-- ==== Sys2Proof/Word.lean ====
section
/-! DEFINITION. The word types of the Celnan: what the manual treats as bits (R7, R261). Addresses and
keys of memory are plain natural numbers; little-endian order is decided in Machine/Bits.lean. -/

namespace Sys2Proof

/-- A byte of memory. -/
abbrev Byte := BitVec 8
/-- A 32-bit lane word (R261). -/
abbrev W32 := BitVec 32
/-- A 64-bit word: a scalar register, an instruction word, a far address (R55, R231, R261). -/
abbrev W64 := BitVec 64

end Sys2Proof
end

