-- ==== Sys2Proof/Config.lean ====
section
/-! DEFINITION. Config.lean: what an implementation fixes and the values the manual leaves open. Every free value is an
opaque constant with no body: nothing can be proved of its value (log 5). Fixed sizes are those of the manual. -/

namespace Sys2Proof.Config

/-- A free value of the given draw: what the spec leaves open (log 5). The draw counter is State's freeIx. -/
opaque free : Nat → W64
/-- The result this implementation answers for an approximation where it lies within the bound (R309, R3; log 7). -/
opaque approx : Nat → W32 → W32
/-- Channel slice of a 4 KiB block of a die's HBM (R478 leaves the function open; log 5). -/
opaque slice : Nat → Nat
/-- The HBM line that holds a line of a warp's spill stack, outside every far space (R193 leaves the place to firmware; log 61). -/
opaque stackLine : Nat → Nat → Nat
/-- Lines an undo log holds, by the number of units withdrawn for it and for save areas (R134, R135 leave the division open; log 33). -/
opaque undoCap : Nat → Nat
/-- The Celnan feature bits that firmware and a partition support, by partition identifier (R108 does not say which; log 64). -/
opaque celnanBits : Nat → BitVec 16
/-- The PCI Subsystem Vendor ID of Barelo (R102 gives no number; log 24). -/
opaque subsysVendor : BitVec 16
/-- Fabric ports a partition owns on another device, at a PART_SET (R51; the command names this device's only; log 20). -/
opaque peerPorts : Nat → Nat → Nat → BitVec 18
/-- Offset of a core's cycle count, by die and position: counts of different cores are not aligned (R384; log 5). -/
opaque coreSkew : Nat → Nat → Nat → Nat
/-- Digest of a byte string (SHA-384, R121, R247: the standard's function, held opaque; log 8). -/
opaque sha384 : List Byte → BitVec 384
/-- Signature of a report by a device key (R121: the key is not given; log 8). -/
opaque sign : List Byte → List Byte
/-- Both signatures of a bundle's image verify with Barelo's keys (R122: the keys are not given; log 8). -/
opaque bundleOk : List Byte → Bool
/-- The serial and identity words DIAG and IDENTIFY report that the manual does not give (log 8). -/
opaque ident : Nat → W64

end Sys2Proof.Config
end

