-- ==== Sys2Proof/Machine/Bits.lean ====
section
/-! DEFINITION. Bit helpers: fields, byte order (R7: little-endian), sign extension (Table 10-6), two's complement. -/

namespace Sys2Proof.Machine

/-- Bits hi..lo of a word as a number (x[hi:lo] of R223). -/
def fld {w : Nat} (x : BitVec w) (hi lo : Nat) : Nat := (x.toNat >>> lo) % 2 ^ (hi + 1 - lo)
/-- Bits hi..lo of a number. -/
def nfld (x hi lo : Nat) : Nat := (x >>> lo) % 2 ^ (hi + 1 - lo)
/-- One bit of a word. -/
def bit {w : Nat} (x : BitVec w) (i : Nat) : Bool := x.getLsbD i
/-- x with bits hi..lo replaced by v. -/
def setFld {w : Nat} (x : BitVec w) (hi lo : Nat) (v : Nat) : BitVec w :=
  let n := hi + 1 - lo
  BitVec.ofNat w (x.toNat % 2 ^ lo + (v % 2 ^ n) * 2 ^ lo + (x.toNat >>> (hi + 1)) * 2 ^ (hi + 1))
/-- x with bit i set to b. -/
def setBit {w : Nat} (x : BitVec w) (i : Nat) (b : Bool) : BitVec w := setFld x i i (if b then 1 else 0)

/-- The low n bits of v read as two's complement. -/
def sval (n v : Nat) : Int :=
  let m := v % 2 ^ n
  if 2 * m < 2 ^ n then (m : Int) else (m : Int) - (2 ^ n : Nat)
/-- x mod 2^n of an integer (wrap of Table 10-6). -/
def wrapN (n : Nat) (x : Int) : Nat := (x % ((2 ^ n : Nat) : Int)).toNat
/-- sext(x, n) at 64 bits (Table 10-6). -/
def sext64 (n v : Nat) : W64 := BitVec.ofNat 64 (wrapN 64 (sval n v))

/-- The n low bytes of v, least significant first. -/
def leBytes : Nat → Nat → List Byte
  | 0, _ => []
  | n + 1, v => BitVec.ofNat 8 v :: leBytes n (v / 256)
/-- The number whose little-endian bytes are given. -/
def leVal : List Byte → Nat
  | [] => 0
  | b :: bs => b.toNat + 256 * leVal bs

/-- The bytes lo..hi of a byte string as a number. -/
def byteFld (bs : List Byte) (lo hi : Nat) : Nat := leVal ((bs.drop lo).take (hi + 1 - lo))

/-- Positions of the set bits of a mask below n, ascending. -/
def bitsOf {w : Nat} (m : BitVec w) (n : Nat) : List Nat := (List.range n).filter (fun i => m.getLsbD i)
/-- The mask whose set bits are the listed positions. -/
def maskOf (w : Nat) (ls : List Nat) : BitVec w := ls.foldl (fun m i => m ||| (1#w <<< i)) 0#w
/-- Number of set bits. -/
def popCount {w : Nat} (x : BitVec w) : Nat := (bitsOf x w).length
/-- Leading zero bits of the low n bits. -/
def lzCount (n v : Nat) : Nat := if v % 2 ^ n = 0 then n else n - 1 - Nat.log2 (v % 2 ^ n)

/-- Far-address bits [63:57] must be zero (R55). -/
def farOk (a : Nat) : Bool := a < 2 ^ 57
/-- Round a down to a multiple of n. -/
def alignDown (a n : Nat) : Nat := a / n * n

/-- The defined generator (R281). -/
def gen (seed : W64) (stream : W32) (ctr : W64) : W64 :=
  let x := seed ^^^ (stream.zeroExtend 64 * 0x9E3779B97F4A7C15#64)
  let x := x + ctr * 0xD1B54A32D192ED03#64
  let round (x : W64) : W64 :=
    let x := x ^^^ (x >>> 31)
    let x := x * 0xBF58476D1CE4E5B9#64
    let x := x ^^^ (x >>> 29)
    let x := x * 0x94D049BB133111EB#64
    x ^^^ (x >>> 32)
  round (round (round x))

/-- First entry of a table with the key. -/
def lkp {κ α : Type} [DecidableEq κ] (t : List (κ × α)) (k : κ) : Option α :=
  match t with
  | [] => none
  | (k', v) :: r => if k' = k then some v else lkp r k
/-- The table with the entry of the key replaced, or added at the end. -/
def ins {κ α : Type} [DecidableEq κ] (t : List (κ × α)) (k : κ) (v : α) : List (κ × α) :=
  match t with
  | [] => [(k, v)]
  | (k', v') :: r => if k' = k then (k, v) :: r else (k', v') :: ins r k v
/-- The table without the entries of the key. -/
def del {κ α : Type} [DecidableEq κ] (t : List (κ × α)) (k : κ) : List (κ × α) := t.filter (fun e => e.1 ≠ k)

end Sys2Proof.Machine
end

