-- ==== Sys2Proof/Syntax.lean ====
section
/-! DEFINITION. The syntax: the steps of opcode_table.json, one constructor of Instr per row. A Dundaot operation
carries the fields of its format (R231, R235 to R242); an event carries what arrives with it. -/

namespace Sys2Proof

/-- Type codes of Table 11-3 (R234), b128 included (R316). -/
inductive Ty where
  | f32 | f16 | bf16 | e4m3 | e5m2 | q4
  | s8 | s16 | s32 | s64 | z8 | z16 | z32 | z64 | b8 | b16 | b32 | b64 | b128
  deriving DecidableEq, Repr

/-- Rounding codes of Table 11-3 (R234, R265). -/
inductive Rnd where
  | rn | rz | ru | rd | rs
  deriving DecidableEq, Repr

/-- Ordering field ORD of format M and of FENCE (R238, R359). -/
inductive Ord where
  | rlx | acq | rel | acqrel
  deriving DecidableEq, Repr

/-- Scope codes 0 to 6 (R215, R329). -/
inductive Scope where
  | warp | block | team | die | device | domain | system
  deriving DecidableEq, Repr

/-- Space codes of R238. -/
inductive Space where
  | stack | shared | nbrN | nbrS | nbrE | nbrW | yard | far
  deriving DecidableEq, Repr

/-- Named-completion kinds CKIND (Table 4-3, R240). -/
inductive CKind where
  | none | tag | wp | status
  deriving DecidableEq, Repr

/-- The common fields of an instruction word but for the opcode (R231). -/
structure Common where
  gneg  : Bool
  guard : BitVec 3
  la    : BitVec 4
  deriving DecidableEq, Repr

/-- Format T (R236). -/
structure FmtT where
  c   : Common
  oc  : BitVec 8
  ob  : BitVec 8
  oa  : BitVec 8
  dst : BitVec 8
  ua  : Bool
  ub  : Bool
  uc  : Bool
  ty  : Ty
  rnd : Rnd
  sat : Bool
  sub : BitVec 2
  deriving DecidableEq, Repr

/-- Format I (R237). -/
structure FmtI where
  c   : Common
  imm : BitVec 32
  dst : BitVec 8
  ty  : Ty
  hi  : Bool
  deriving DecidableEq, Repr

/-- Format M (R238). -/
structure FmtM where
  c     : Common
  data  : BitVec 8
  base  : BitVec 8
  off   : BitVec 16
  ord   : Ord
  scope : Scope
  space : Space
  ty    : Ty
  ubase : Bool
  deriving DecidableEq, Repr

/-- Format B (R239). -/
structure FmtB where
  c     : Common
  tgt1  : BitVec 20
  tgt2  : BitVec 20
  cpred : BitVec 3
  cneg  : Bool
  sub   : BitVec 2
  deriving DecidableEq, Repr

/-- Format A (R240). -/
structure FmtA where
  c     : Common
  oa    : BitVec 8
  ob    : BitVec 8
  oc    : BitVec 8
  kh    : BitVec 4
  ckind : CKind
  carg  : BitVec 6
  sub   : BitVec 10
  deriving DecidableEq, Repr

/-- Format X (R241). -/
structure FmtX where
  c   : Common
  imm : BitVec 16
  dst : BitVec 8
  oa  : BitVec 8
  deriving DecidableEq, Repr

/-- Format C (R242). -/
structure FmtC where
  c     : Common
  abase : BitVec 8
  bbase : BitVec 8
  aslot : BitVec 6
  bslot : BitVec 6
  tile  : BitVec 3
  ty    : Ty
  batch : BitVec 4
  nk    : BitVec 4
  sub   : BitVec 2
  deriving DecidableEq, Repr

/-! Names of places and agents. -/

/-- A core: compute die and mesh position (R12). -/
structure CoreId where
  die : Nat
  x   : Nat
  y   : Nat
  deriving DecidableEq, Repr

/-- An agent that executes instructions: a warp in a slot of a core, or the stream of a control core (R164, R168). -/
inductive AgentId where
  | warp (core : CoreId) (slot : Nat)
  | stream (die cluster : Nat)
  deriving DecidableEq, Repr

/-- A site that pops continuation records (R155). -/
inductive PopSite where
  | core (c : CoreId)
  | ctl (die cluster : Nat)
  deriving DecidableEq, Repr

/-- A claim slot of a cluster's path-claim engine, 0 to 47 held and 48 to 63 transient (R389). -/
structure ClaimId where
  die     : Nat
  cluster : Nat
  slot    : Nat
  deriving DecidableEq, Repr

/-- An external port (Table 1-2). -/
inductive PortId where
  | fab (j : Nat)
  | eth (e : Nat)
  deriving DecidableEq, Repr

/-- Where an access is performed (LOC of Table 3-4, Table 3-2). -/
inductive Loc where
  | dev (p : Nat)
  | jct (j : Nat)
  | host (p : Nat)
  deriving DecidableEq, Repr

/-- The kind of an access for permissions (R61, R318). -/
inductive Acc where
  | rd | wr | rw | fetch
  deriving DecidableEq, Repr

/-- Why a page is taken back (Table 22-5). -/
inductive TakeBack where
  | unmap | migrate
  deriving DecidableEq, Repr

/-! What arrives with an event. -/

/-- The result of a patrol-scrub visit (R13, Table 1-3). -/
inductive Ecc where
  | clean | correctable | uncorrectable
  deriving DecidableEq, Repr

/-- What bring-up finds (Table 1-7, R22): the self-checks, the bundle in force, stack training and die self-test. -/
structure BringUp where
  poddev   : Nat
  scPass   : BitVec 24
  bundleOk : Bool
  stacksOk : BitVec 12
  diesOk   : BitVec 4
  fwver    : W32
  deriving DecidableEq, Repr

/-- A bulk-plane reservation request to junction j for one path of a claim (R29 to R31): src is the device that asks, dst the other end
of the path, and out says that the data leave src. -/
structure ResvReq where
  claim : ClaimId
  src   : Nat
  dst   : Nat
  part  : Nat
  out   : Bool
  data  : Nat
  ctl   : Nat
  deriving DecidableEq, Repr

/-- The junction's answer to a reservation request (R31, R52). -/
structure ResvReply where
  claim   : ClaimId
  j       : Nat
  granted : Bool
  deriving DecidableEq, Repr

/-- The answer to a grant request (R66, R67, R73). -/
inductive GrantAns where
  | grant (vpage size : Nat) (loc : Loc) (pa : Nat) (rd w : Bool)
  | forward (loc : Loc) (pa : Nat)
  | fault (perm : Bool)
  deriving DecidableEq, Repr

/-- The payloads of word-plane packets (R34, R66, R70); an atomic's is the bytes of Table 16-5 (R480). -/
inductive PktBody where
  | none
  | read (accs : List (Nat × Nat))
  | write (accs : List (Nat × List Byte))
  | atomic (bs : List Byte)
  | cas (bs : List Byte)
  | ack (value : Option W64)
  | data (vals : List (List Byte × Bool))
  | grantReq (ctx : Nat) (va : Nat) (acc : Acc)
  | grantAns (a : GrantAns)
  | inval (ctx : Nat) (va size : Nat) (why : TakeBack)
  | resvReq (r : ResvReq)
  | resvReply (r : ResvReply)
  deriving DecidableEq, Repr

/-- A word-plane packet: the header of Table 2-3 and its payload. -/
structure Packet where
  low   : BitVec 24
  rsv   : BitVec 6
  psn   : Bool
  rtx   : Bool
  stamp : BitVec 16
  gen   : BitVec 16
  part  : BitVec 16
  tgt   : BitVec 8
  src   : BitVec 8
  seq   : BitVec 24
  kind  : BitVec 8
  body  : PktBody
  deriving DecidableEq, Repr

/-- A milepost flit (Table 2-5). -/
structure Flit where
  payload : BitVec 256
  dest    : BitVec 144
  gen     : BitVec 16
  part    : BitVec 16
  itick   : BitVec 48
  src     : BitVec 16
  kind    : BitVec 8
  deriving DecidableEq, Repr

/-- An outstanding packet of the device: a sequenced entry of a stream or a read tag (R36). -/
inductive EntryRef where
  | seq (tgt part : Nat) (q : BitVec 24)
  | tag (t : BitVec 24)
  deriving DecidableEq, Repr

/-- A PCIe ATS translation completion that found a translation (R75). -/
structure AtsAns where
  pa : Nat
  rd : Bool
  w  : Bool
  deriving DecidableEq, Repr

/-- A NAK of the RoCE peer (Table 4-6). -/
inductive Nak where
  | remoteAccess | remoteInvalid | remoteOperation | rnr
  deriving DecidableEq, Repr

/-- What a RoCE peer answers to the oldest outstanding request of a queue pair (R92). -/
inductive NetResp where
  | ack
  | readData (data : List Byte)
  | atomicValue (v : W64)
  | nak (n : Nak)
  deriving DecidableEq, Repr

/-- Request header (Table 5-7). -/
structure ReqHdr where
  cookie : W64
  ctxid  : BitVec 16
  gen    : BitVec 16
  count  : BitVec 16
  code   : BitVec 16
  deriving DecidableEq, Repr

/-- The payload of a control command: bytes where the manual lays them out (Tables 6-1, 6-4, 7-4, 11-6, 25-4, 28-1), named
arguments where it gives none. -/
inductive CmdArgs where
  | raw (bytes : List Byte)
  | xlate (vf : Nat) (stage1 stage2 homemap hostpt pasid thresh : Option Nat)
  | inval (vf : Nat) (addr size : Nat) (why : TakeBack) (gpa : Bool) (moved : Option (Loc × Nat))
  | migrate (vf : Nat) (va frame : Nat)
  | s2 (idx : Nat) (retry : Bool)
  | homemap (part : Nat) (entries : List (Nat × W32))
  | vf (v : Nat)
  | qpCreate (port mtu sqDepth rqDepth rqBase cq cqBase cqDepth ackTimeout retries rnr : Nat)
  | qpModify (qpn state : Nat)
  | obj (n : Nat)
  | mrReg (key : W32) (base len : Nat) (rd w atomic : Bool)
  | netAddr (port : Nat) (mac : BitVec 48) (gids : List (Nat × BitVec 128))
  deriving DecidableEq, Repr

/-- A request read from a function's control queue (R117): len is the length of the payload its chain holds, room that of the chain's
device-writable part. -/
structure CmdReq where
  fn   : Nat
  hdr  : ReqHdr
  args : CmdArgs
  len  : Nat
  room : Nat
  deriving DecidableEq, Repr

/-- The form of a descriptor chain (R106). -/
inductive ChainForm where
  | ok | writableFirst | noWritable
  deriving DecidableEq, Repr

/-- One descriptor chain of a virtqueue: a control command, a work-queue request of 8-byte words, or an event buffer. descs are its
descriptors in the ring, len the length of its payload, room that of its device-writable part. -/
structure Chain where
  form  : ChainForm
  descs : Nat
  hdr   : ReqHdr
  args  : CmdArgs
  words : List W64
  len   : Nat
  room  : Nat
  deriving DecidableEq, Repr

/-- A register a driver writes: at an offset of BAR0 (Table 5-1), or one of the function's PCI configuration, named (R102, R103): the halves of
BAR0's address and the MSI-X control. -/
inductive RegAt where
  | bar (off : Nat)
  | bar0Lo | bar0Hi | msixControl
  deriving DecidableEq, Repr

/-- The head of an incoming network request (R81): its queue pair here, whether it carries an ECN congestion mark, and whether it is a form
Table 4-1 does not support (immediate data, an invalidate, an atomic of another size, a FLUSH of another placement type). -/
structure RxHead where
  qpn   : Nat
  ce    : Bool
  other : Bool
  deriving DecidableEq, Repr

/-- One rank's COLL as the collective engine receives it (R409). -/
structure CollShare where
  rank : Nat
  spec : BitVec 10
  word : W64
  data : List Byte
  dup  : Bool
  /-- The 64-byte pieces of the data that carry poison. -/
  psn  : List Nat
  deriving DecidableEq, Repr

/-- A leg that has come to its end (R399, R29): one of this device's own flow, or of a peer's: its data to be placed at an address here, or a
request for bytes of this device. -/
inductive LegAt where
  | own (n : Nat)
  | place (src part : Nat) (gen : BitVec 16) (n pa : Nat)
  | ask (src part : Nat) (gen : BitVec 16) (n pa len : Nat)
  deriving DecidableEq, Repr

/-- The steps of the device, one constructor per row of opcode_table.json: the Dundaot operations, then the
events, those the device raises by itself first (Lean compiles no constructor with data past the 244th). -/
inductive Instr where
  /-- SADD (R284). -/
  | sadd (f : FmtT)
  /-- SSUB (R284). -/
  | ssub (f : FmtT)
  /-- SMUL (R284). -/
  | smul (f : FmtT)
  /-- SMULH (R284). -/
  | smulh (f : FmtT)
  /-- SDIV (R285). -/
  | sdiv (f : FmtT)
  /-- SREM (R285). -/
  | srem (f : FmtT)
  /-- SAND (R284). -/
  | sand (f : FmtT)
  /-- SOR (R284). -/
  | sor (f : FmtT)
  /-- SXOR (R284). -/
  | sxor (f : FmtT)
  /-- SSHL (R284). -/
  | sshl (f : FmtT)
  /-- SSHR (R284). -/
  | sshr (f : FmtT)
  /-- SSAR (R284). -/
  | ssar (f : FmtT)
  /-- SMIN (R284). -/
  | smin (f : FmtT)
  /-- SMAX (R284). -/
  | smax (f : FmtT)
  /-- SCMP (R284). -/
  | scmp (f : FmtT)
  /-- SSEL (R284). -/
  | ssel (f : FmtT)
  /-- SCLZ (R284). -/
  | sclz (f : FmtT)
  /-- SPOP (R284). -/
  | spop (f : FmtT)
  /-- SMOV (R284). -/
  | smov (f : FmtT)
  /-- SMOVI (R286). -/
  | smovi (f : FmtI)
  /-- SADDI (R286). -/
  | saddi (f : FmtI)
  /-- SANDI (R286). -/
  | sandi (f : FmtI)
  /-- SORI (R286). -/
  | sori (f : FmtI)
  /-- SXORI (R286). -/
  | sxori (f : FmtI)
  /-- SCMPI (R286). -/
  | scmpi (f : FmtI)
  /-- SRD (R287). -/
  | srd (f : FmtX)
  /-- MFSR (R288). -/
  | mfsr (f : FmtX)
  /-- MTSR (R288). -/
  | mtsr (f : FmtX)
  /-- SFMT (R289). -/
  | sfmt (f : FmtX)
  /-- BRA (R291). -/
  | bra (f : FmtB)
  /-- BRAR (R291). -/
  | brar (f : FmtB)
  /-- CALL (R291). -/
  | call (f : FmtB)
  /-- CALLR (R291). -/
  | callr (f : FmtB)
  /-- RET (R291). -/
  | ret (f : FmtB)
  /-- BIF (R177). -/
  | bifOpen (f : FmtB)
  /-- BELSE (R178). -/
  | belse (f : FmtB)
  /-- BEND (R179). -/
  | bend (f : FmtB)
  /-- LPSET (R293). -/
  | lpset (f : FmtB)
  /-- LPCNT (R293). -/
  | lpcnt (f : FmtX)
  /-- YIELD (R294). -/
  | yield (f : FmtX)
  /-- EXIT (R183). -/
  | exit (f : FmtX)
  /-- NOP (R294). -/
  | nop (f : FmtX)
  /-- SPAWN (R295). -/
  | spawn (f : FmtT)
  /-- JOIN (R296). -/
  | join (f : FmtT)
  /-- VADD (R300). -/
  | vadd (f : FmtT)
  /-- VSUB (R300). -/
  | vsub (f : FmtT)
  /-- VMUL (R300). -/
  | vmul (f : FmtT)
  /-- VFMA (R300). -/
  | vfma (f : FmtT)
  /-- VMULH (R300). -/
  | vmulh (f : FmtT)
  /-- VMIN (R301). -/
  | vmin (f : FmtT)
  /-- VMAX (R301). -/
  | vmax (f : FmtT)
  /-- VABS (R300). -/
  | vabs (f : FmtT)
  /-- VNEG (R300). -/
  | vneg (f : FmtT)
  /-- VADDMIN (R300). -/
  | vaddmin (f : FmtT)
  /-- VADDMAX (R300). -/
  | vaddmax (f : FmtT)
  /-- VCLAMP (R300). -/
  | vclamp (f : FmtT)
  /-- VAND (R302). -/
  | vand (f : FmtT)
  /-- VOR (R302). -/
  | vor (f : FmtT)
  /-- VXOR (R302). -/
  | vxor (f : FmtT)
  /-- VNOT (R302). -/
  | vnot (f : FmtT)
  /-- VSHL (R302). -/
  | vshl (f : FmtT)
  /-- VSHR (R302). -/
  | vshr (f : FmtT)
  /-- VSAR (R302). -/
  | vsar (f : FmtT)
  /-- VCLZ (R302). -/
  | vclz (f : FmtT)
  /-- VPOPC (R302). -/
  | vpopc (f : FmtT)
  /-- VMOV (R302). -/
  | vmov (f : FmtT)
  /-- VSEL (R302). -/
  | vsel (f : FmtT)
  /-- VCMP (R303). -/
  | vcmp (f : FmtT)
  /-- VMOVI (R302). -/
  | vmovi (f : FmtI)
  /-- PAND (R304). -/
  | pand (f : FmtT)
  /-- POR (R304). -/
  | por (f : FmtT)
  /-- PXOR (R304). -/
  | pxor (f : FmtT)
  /-- PNOT (R304). -/
  | pnot (f : FmtT)
  /-- VP2V (R304). -/
  | vp2v (f : FmtT)
  /-- VV2P (R304). -/
  | vv2p (f : FmtT)
  /-- VCVT (R305). -/
  | vcvt (f : FmtT)
  /-- VF8PK (R306). -/
  | vf8pk (f : FmtT)
  /-- VF8UPK (R306). -/
  | vf8upk (f : FmtT)
  /-- VQPACK (R307). -/
  | vqpack (f : FmtT)
  /-- VQUNPK (R308). -/
  | vqunpk (f : FmtT)
  /-- VDIV (R309). -/
  | vdiv (f : FmtT)
  /-- VRCP (R309). -/
  | vrcp (f : FmtT)
  /-- VRSQ (R309). -/
  | vrsq (f : FmtT)
  /-- VSQRT (R309). -/
  | vsqrt (f : FmtT)
  /-- VEXP2 (R309). -/
  | vexp2 (f : FmtT)
  /-- VLOG2 (R309). -/
  | vlog2 (f : FmtT)
  /-- VSIN (R309). -/
  | vsin (f : FmtT)
  /-- VCOS (R309). -/
  | vcos (f : FmtT)
  /-- VTANH (R309). -/
  | vtanh (f : FmtT)
  /-- QXCH (R311). -/
  | qxch (f : FmtT)
  /-- QBRD (R311). -/
  | qbrd (f : FmtT)
  /-- VSHUP (R312). -/
  | vshup (f : FmtT)
  /-- VSHDN (R312). -/
  | vshdn (f : FmtT)
  /-- VSHFL (R312). -/
  | vshfl (f : FmtT)
  /-- VBCAST (R312). -/
  | vbcast (f : FmtT)
  /-- VSCAN (R313). -/
  | vscan (f : FmtT)
  /-- VRED (R313). -/
  | vred (f : FmtT)
  /-- VVOTE (R314). -/
  | vvote (f : FmtT)
  /-- PRAND (R315). -/
  | prand (f : FmtT)
  /-- LD (R320). -/
  | ld (f : FmtM)
  /-- ST (R321). -/
  | st (f : FmtM)
  /-- ATOM_ADD (R322). -/
  | atomAdd (f : FmtM)
  /-- ATOM_MIN (R322). -/
  | atomMin (f : FmtM)
  /-- ATOM_MAX (R322). -/
  | atomMax (f : FmtM)
  /-- ATOM_AND (R322). -/
  | atomAnd (f : FmtM)
  /-- ATOM_OR (R322). -/
  | atomOr (f : FmtM)
  /-- ATOM_XOR (R322). -/
  | atomXor (f : FmtM)
  /-- ATOM_EXCH (R322). -/
  | atomExch (f : FmtM)
  /-- CAS (R322). -/
  | cas (f : FmtM)
  /-- FLD (R320). -/
  | fld (f : FmtM)
  /-- FST (R321). -/
  | fst (f : FmtM)
  /-- FATOM_ADD (R322). -/
  | fatomAdd (f : FmtM)
  /-- FATOM_MIN (R322). -/
  | fatomMin (f : FmtM)
  /-- FATOM_MAX (R322). -/
  | fatomMax (f : FmtM)
  /-- FATOM_AND (R322). -/
  | fatomAnd (f : FmtM)
  /-- FATOM_OR (R322). -/
  | fatomOr (f : FmtM)
  /-- FATOM_XOR (R322). -/
  | fatomXor (f : FmtM)
  /-- FATOM_EXCH (R322). -/
  | fatomExch (f : FmtM)
  /-- FCAS (R322). -/
  | fcas (f : FmtM)
  /-- CLAIM (R404). -/
  | claim (f : FmtA)
  /-- RECLAIM (R401). -/
  | reclaim (f : FmtA)
  /-- FLOW (R398). -/
  | flow (f : FmtA)
  /-- UNCLAIM (R402). -/
  | unclaim (f : FmtA)
  /-- KSTAT (R403). -/
  | kstat (f : FmtA)
  /-- COPY (R405). -/
  | copy (f : FmtA)
  /-- HALO (R406). -/
  | halo (f : FmtA)
  /-- HFLOW (R407). -/
  | hflow (f : FmtA)
  /-- GATHER (R408). -/
  | gather (f : FmtA)
  /-- COLL (R409). -/
  | coll (f : FmtA)
  /-- FENCE (R359). -/
  | fence (f : FmtX)
  /-- WAYREG (R362). -/
  | wayreg (f : FmtX)
  /-- WAYREG_NEED (R362). -/
  | wayregNeed (f : FmtX)
  /-- WAYARR (R363). -/
  | wayarr (f : FmtX)
  /-- WAYARR_NEIGHBOUR (R363). -/
  | wayarrNeighbour (f : FmtX)
  /-- WAYWAIT (R364). -/
  | waywait (f : FmtX)
  /-- WAYTEST (R364). -/
  | waytest (f : FmtX)
  /-- WAYDROP (R362). -/
  | waydrop (f : FmtX)
  /-- WAYDROP_RESET (R362). -/
  | waydropReset (f : FmtX)
  /-- YCFG (R366). -/
  | ycfg (f : FmtX)
  /-- QPUSH (R367). -/
  | qpush (f : FmtX)
  /-- QPOP (R367). -/
  | qpop (f : FmtX)
  /-- QLEN (R368). -/
  | qlen (f : FmtX)
  /-- WAITC (R369). -/
  | waitc (f : FmtX)
  /-- TWAIT (R370). -/
  | twait (f : FmtX)
  /-- TFIND (R371). -/
  | tfind (f : FmtX)
  /-- TCLR (R371). -/
  | tclr (f : FmtX)
  /-- MMA (R427). -/
  | mma (f : FmtC)
  /-- MMAT (R427). -/
  | mmat (f : FmtC)
  /-- MZERO (R428). -/
  | mzero (f : FmtC)
  /-- MLOAD (R429). -/
  | mload (f : FmtC)
  /-- MDRAIN (R429). -/
  | mdrain (f : FmtC)
  /-- MADDT (R428). -/
  | maddt (f : FmtC)
  /-- MFENCE (R430). -/
  | mfence (f : FmtC)
  /-- MWAIT (R431). -/
  | mwait (f : FmtC)
  /-- PINIT (R441). -/
  | pinit (f : FmtA)
  /-- PJOIN (R442). -/
  | pjoin (f : FmtA)
  /-- PLEAVE (R443). -/
  | pleave (f : FmtA)
  /-- RESAMPLE (R444). -/
  | resample (f : FmtA)
  /-- PSTAT (R450). -/
  | pstat (f : FmtA)
  /-- PLIN (R451). -/
  | plin (f : FmtA)
  /-- NWIN (R468). -/
  | nwin (f : FmtA)
  /-- NOTICE (R469). -/
  | notice (f : FmtA)
  /-- OBJECT (R470). -/
  | object (f : FmtA)
  /-- NAWAIT (R471). -/
  | nawait (f : FmtA)
  /-- NREAD (R472). -/
  | nread (f : FmtA)
  /-- NFILTER (R473). -/
  | nfilter (f : FmtA)
  /-- NSTAT (R471). -/
  | nstat (f : FmtA)
  /-- NSTAT_CNT (R471). -/
  | nstatCnt (f : FmtA)
  /-- XWRITE (R387). -/
  | xwrite (f : FmtA)
  /-- XREAD (R387). -/
  | xread (f : FmtA)
  /-- XSEND (R387). -/
  | xsend (f : FmtA)
  /-- XATOM (R387). -/
  | xatom (f : FmtA)
  /-- XFLUSH (R387). -/
  | xflush (f : FmtA)
  /-- XPOLL (R388). -/
  | xpoll (f : FmtA)
  /-- TRAP (R381). -/
  | trap (f : FmtX)
  /-- TRAP_VEC (R381). -/
  | trapVec (f : FmtX)
  /-- TRET (R379). -/
  | tret (f : FmtX)
  /-- BRK (R382). -/
  | brk (f : FmtX)
  /-- HALT (R383). -/
  | halt (f : FmtX)
  /-- RDTIME (R384). -/
  | rdtime (f : FmtX)
  /-- CHKPT (R385). -/
  | chkpt (f : FmtX)
  /-- WATCH (R386). -/
  | watch (f : FmtX)
  /-- UNWATCH (R386). -/
  | unwatch (f : FmtX)
  /-- WALK_COMPLETE (R63). -/
  | walkComplete (n : Nat)
  /-- CLAUSE_FETCH (R227). -/
  | clauseFetch (a : AgentId)
  /-- TEAM_DISPATCH (R152). -/
  | teamDispatch (launch : Nat)
  /-- CONTINUATION_POP (R155). -/
  | continuationPop (at_ : PopSite)
  /-- LAUNCH_PACKET (R145). -/
  | launchPacket (fn q : Nat)
  /-- FENCE_PACKET (R142). -/
  | fencePacket (fn q : Nat)
  /-- GRAPH_PACKET (R160). -/
  | graphPacket (fn q : Nat)
  /-- LAYOUT_PACKET (R209). -/
  | layoutPacket (fn q : Nat)
  /-- SIGNAL_PACKET (R112). -/
  | signalPacket (fn q : Nat)
  /-- TIMER_PACKET (R112). -/
  | timerPacket (fn q : Nat)
  /-- LAUNCH_FINISH (R141). -/
  | launchFinish (fn q : Nat)
  /-- GRAPH_NODE_FINISH (R162). -/
  | graphNodeFinish (fn q node : Nat)
  /-- FENCE_ROUND (R142). -/
  | fenceRound (fn q : Nat)
  /-- BATCH_START (R433). -/
  | batchStart (die cluster : Nat)
  /-- MATRIX_STEP_COMPLETE (R427). -/
  | matrixStepComplete (die cluster : Nat)
  /-- CLAIM_PHASE_COMPLETE (R396). -/
  | claimPhaseComplete (c : ClaimId)
  /-- RESULT_WRITEBACK (R244). -/
  | resultWriteback (a : AgentId) (id : Nat)
  /-- TRAP_ENTRY (R378). -/
  | trapEntry (a : AgentId)
  /-- MILEPOST_INJECT (R46). -/
  | milepostInject
  /-- RESAMPLE_COMMIT (R446). -/
  | resampleCommit (part ctx pop : Nat)
  /-- RESERVATION_QUEUE_GRANT (R31). -/
  | reservationQueueGrant
  /-- TOKEN_COUNT_EFFECT (R434). -/
  | tokenCountEffect (part die : Nat)
  /-- JOIN_POLL (R296). -/
  | joinPoll (a : AgentId)
  /-- NET_WORK_REQUEST (R92). -/
  | netWorkRequest (qpn : Nat)
  /-- HALO_PATH_MATCH (R407). -/
  | haloPathMatch (c : ClaimId) (k : Nat)
  /-- WARP_PROMOTION (R166). -/
  | warpPromotion (a : AgentId)
  /-- QUEUE_RESERVATION (R156). -/
  | queueReservation (part die prio : Nat)
  /-- IDENTIFY (R117). -/
  | identify (q : CmdReq)
  /-- DIAG (R117). -/
  | diag (q : CmdReq)
  /-- TELEMETRY (R435). -/
  | telemetry (q : CmdReq)
  /-- CTX_CREATE (R56). -/
  | ctxCreate (q : CmdReq)
  /-- CTX_DESTROY (R131). -/
  | ctxDestroy (q : CmdReq)
  /-- XLATE_SET (R56). -/
  | xlateSet (q : CmdReq)
  /-- INVAL_PAGE (R70). -/
  | invalPage (q : CmdReq)
  /-- MIGRATE (R79). -/
  | migrate (q : CmdReq)
  /-- S2_ANSWER (R64). -/
  | s2Answer (q : CmdReq)
  /-- HOMEMAP_SET (R59). -/
  | homemapSet (q : CmdReq)
  /-- PART_SET (R125). -/
  | partSet (q : CmdReq)
  /-- TOKENS_SET (R434). -/
  | tokensSet (q : CmdReq)
  /-- SLICE_SET (R134). -/
  | sliceSet (q : CmdReq)
  /-- VF_RESET (R119). -/
  | vfReset (q : CmdReq)
  /-- QP_CREATE (R83). -/
  | qpCreate (q : CmdReq)
  /-- QP_MODIFY (R83). -/
  | qpModify (q : CmdReq)
  /-- QP_DESTROY (R83). -/
  | qpDestroy (q : CmdReq)
  /-- MR_REG (R94). -/
  | mrReg (q : CmdReq)
  /-- MR_DEREG (R94). -/
  | mrDereg (q : CmdReq)
  /-- NET_ADDR (R82). -/
  | netAddr (q : CmdReq)
  /-- DECODE_LOAD (R247). -/
  | decodeLoad (q : CmdReq)
  /-- PGROUP_SET (R146). -/
  | pgroupSet (q : CmdReq)
  /-- NGROUP_SET (R456). -/
  | ngroupSet (q : CmdReq)
  /-- ATTEST (R121). -/
  | attest (q : CmdReq)
  /-- BUNDLE_WRITE (R122). -/
  | bundleWrite (q : CmdReq) (sigsOk : Bool)
  /-- STREAM_RESET_SEND (R41). -/
  | streamResetSend (tgt part : Nat)
  /-- POWER_GOOD (R21). -/
  | powerGood (b : BringUp)
  /-- VIRTUAL_FUNCTION_PRESENTATION (R22). -/
  | virtualFunctionPresentation
  /-- SERVICE_CORE_TAKEOVER (R15). -/
  | serviceCoreTakeover (sc : Nat)
  /-- THERMAL_HIGH (R19). -/
  | thermalHigh (die : Nat)
  /-- THERMAL_RESTORE (R19). -/
  | thermalRestore
  /-- THERMAL_SHUTDOWN (R19). -/
  | thermalShutdown
  /-- PATROL_SCRUB (R13). -/
  | patrolScrub (line : Nat) (e : Ecc)
  /-- LINK_UP (R50). -/
  | linkUp (p : PortId)
  /-- LINK_DOWN (R50). -/
  | linkDown (p : PortId)
  /-- LINK_REPLAY (R33). -/
  | linkReplay (p : PortId)
  /-- RESERVATION_REQUEST (R30). -/
  | reservationRequest (j : Nat) (p : Packet)
  /-- RESERVATION_REPLY (R31). -/
  | reservationReply (p : Packet)
  /-- JUNCTION_WORD_FLIT (R52). -/
  | junctionWordFlit (j port : Nat) (p : Packet)
  /-- READ_PACKET (R34). -/
  | readPacket (p : Packet)
  /-- WRITE_PACKET (R37). -/
  | writePacket (p : Packet)
  /-- ATOMIC_PACKET (R480). -/
  | atomicPacket (p : Packet)
  /-- CAS_PACKET (R480). -/
  | casPacket (p : Packet)
  /-- ORDERED_PACKET_RELEASE (R323). -/
  | orderedPacketRelease (src part : Nat)
  /-- ACKNOWLEDGEMENT (R36). -/
  | acknowledgement (p : Packet)
  /-- READ_RESPONSE (R36). -/
  | readResponse (p : Packet)
  /-- ROUTE_ERROR (R40). -/
  | routeError (p : Packet)
  /-- STREAM_RESET (R41). -/
  | streamReset (p : Packet)
  /-- STREAM_WAIT_TIMEOUT (R41). -/
  | streamWaitTimeout (tgt part : Nat)
  /-- RETRANSMIT_TIMEOUT (R38). -/
  | retransmitTimeout (r : EntryRef)
  /-- PACKET_ABANDON (R39). -/
  | packetAbandon (r : EntryRef)
  /-- FETCHED_VALUE_EXPIRY (R37). -/
  | fetchedValueExpiry (src part : Nat) (seq : BitVec 24)
  /-- JUNCTION_MILEPOST_COPY (R44). -/
  | junctionMilepostCopy (j : Nat) (f : Flit)
  /-- MILEPOST_DELIVERY (R53). -/
  | milepostDelivery (f : Flit)
  /-- TIME_BASE_FLIT (R47). -/
  | timeBaseFlit (ns : Nat)
  /-- LINK_MAP_FLIT (R47). -/
  | linkMapFlit (j : Nat) (down : List Nat)
  /-- TIME_MASTER_TAKEOVER (R47). -/
  | timeMasterTakeover
  /-- TIME_BASE_LOST (R48). -/
  | timeBaseLost
  /-- TIME_BASE_REGAINED (R48). -/
  | timeBaseRegained
  /-- GRANT_REQUEST (R66). -/
  | grantRequest (p : Packet)
  /-- GRANT_RESPONSE (R68). -/
  | grantResponse (p : Packet)
  /-- INVALIDATION (R71). -/
  | invalidation (p : Packet)
  /-- INVALIDATION_ACK (R71). -/
  | invalidationAck (n : Nat)
  /-- STUCK_INVALIDATION (R72). -/
  | stuckInvalidation (n : Nat)
  /-- PRI_RESPONSE (R75). -/
  | priResponse (pgi : Nat) (ok : Bool)
  /-- ATS_INVALIDATE_REQUEST (R76). -/
  | atsInvalidateRequest (tag part ctx : Nat) (va size : Nat)
  /-- MIGRATION_COPY_DONE (R79). -/
  | migrationCopyDone (n : Nat)
  /-- MIGRATION_TIMEOUT (R79). -/
  | migrationTimeout (n : Nat)
  /-- NET_RESPONSE (R92). -/
  | netResponse (qpn : Nat) (r : NetResp)
  /-- NET_ACK_TIMEOUT (R81). -/
  | netAckTimeout (qpn : Nat)
  /-- INCOMING_RDMA_WRITE (R94). -/
  | incomingRdmaWrite (h : RxHead) (rkey : W32) (addr : Nat) (data : List Byte)
  /-- INCOMING_RDMA_READ (R94). -/
  | incomingRdmaRead (h : RxHead) (rkey : W32) (addr len : Nat)
  /-- INCOMING_SEND (R93). -/
  | incomingSend (h : RxHead) (data : List Byte)
  /-- INCOMING_ATOMIC (R95). -/
  | incomingAtomic (h : RxHead) (rkey : W32) (addr : Nat) (cas : Bool) (a b : W64)
  /-- INCOMING_FLUSH (R92). -/
  | incomingFlush (h : RxHead) (rkey : W32) (addr len : Nat)
  /-- CNP_RECEIVED (R81). -/
  | cnpReceived (qpn : Nat)
  /-- RATE_RECOVERY (R81). -/
  | rateRecovery (qpn : Nat)
  /-- LOCAL_REVOKE_TIMEOUT (R99). -/
  | localRevokeTimeout (n : Nat)
  /-- BACKGROUND_CUT (R97). -/
  | backgroundCut (part fn : Nat)
  /-- DRIVER_NOTIFICATION (R115). -/
  | driverNotification (fn q : Nat) (chains : List Chain)
  /-- DEVICE_STATUS_RESET (R118). -/
  | deviceStatusReset (fn : Nat)
  /-- FEATURES_OK_WRITE (R107). -/
  | featuresOkWrite (fn : Nat) (bits : W64)
  /-- FUNCTION_LEVEL_RESET (R118). -/
  | functionLevelReset (fn : Nat)
  /-- CONFIG_REGISTER_WRITE (R103). -/
  | configRegisterWrite (fn : Nat) (reg : RegAt) (v : W32)
  /-- WATCHDOG_EXPIRY (R139). -/
  | watchdogExpiry (fn q : Nat)
  /-- RESET_MARK (R120). -/
  | resetMark (f : Flit)
  /-- RESET_MARK_RESEND (R120). -/
  | resetMarkResend (fn : Nat)
  /-- CHECKPOINT_SCHEDULE (R136). -/
  | checkpointSchedule (part : Nat)
  /-- CUT_MARK (R136). -/
  | cutMark (f : Flit)
  /-- CUT_TICK (R136). -/
  | cutTick (part : Nat)
  /-- DONE_MARK (R136). -/
  | doneMark (f : Flit)
  /-- COMMIT_MARK (R137). -/
  | commitMark (f : Flit)
  /-- CUT_TIMEOUT (R136). -/
  | cutTimeout (part : Nat)
  /-- SLICE_END (R138). -/
  | sliceEnd (part : Nat)
  /-- SLICEEND_MARK (R138). -/
  | sliceendMark (f : Flit)
  /-- WARP_HALT (R132). -/
  | warpHalt (a : AgentId)
  /-- CONTEXT_SAVE (R416). -/
  | contextSave (part ctx : Nat)
  /-- CONTEXT_RESUME (R133). -/
  | contextResume (part ctx : Nat)
  /-- PRIORITY_PREEMPTION (R159). -/
  | priorityPreemption (fn q : Nat)
  /-- FLOW_LEG_ACK (R399). -/
  | flowLegAck (c : ClaimId) (leg : LegAt) (data : List Byte) (psn : List Nat)
  /-- COLL_MATCH (R409). -/
  | collMatch (part ctx : Nat) (shares : List CollShare)
  /-- TOKEN_ARRIVAL (R433). -/
  | tokenArrival (part die cluster : Nat)
  /-- NOTICE_FLIT (R457). -/
  | noticeFlit (f : Flit)
  /-- OBJECTION_FLIT (R458). -/
  | objectionFlit (f : Flit)
  /-- OUTCOME_FLIT (R464). -/
  | outcomeFlit (f : Flit)
  /-- NOTICE_DECIDE (R459). -/
  | noticeDecide (gid : BitVec 16) (rank itick : Nat)
  /-- OUTCOME_EXPIRY (R460). -/
  | outcomeExpiry (gid : BitVec 16) (rank itick : Nat)
  /-- MODULE_POWER_LOSS (R122). -/
  | modulePowerLoss
  /-- ATS_TRANSLATION_COMPLETION (R75). -/
  | atsTranslationCompletion (id : Nat) (r : Option AtsAns)
  /-- HOST_READ_COMPLETION (R347). -/
  | hostReadCompletion (id : Nat) (data : List Byte)
  /-- UNKNOWN_OUTCOME_DEADLINE (R464). -/
  | unknownOutcomeDeadline (gid : BitVec 16) (rank itick : Nat)
  /-- RNR_RETRY_TIMEOUT (R81). -/
  | rnrRetryTimeout (qpn : Nat)
  deriving DecidableEq, Repr

end Sys2Proof
end

