-- ==== Sys2Proof/Machine/Operands.lean ====
section
/-! DEFINITION. Operand forms: for each Dundaot operation the published opcode, class, format checks (R232 to R242 and the
form tables of each instruction chapter), capability, and the registers it names as sources and destinations. -/

namespace Sys2Proof.Machine

/-! Type, rounding, ordering and scope codes (Table 11-3, R238). -/

def Ty.code : Ty → Nat
  | .f32 => 0 | .f16 => 1 | .bf16 => 2 | .e4m3 => 3 | .e5m2 => 4 | .q4 => 5
  | .s8 => 8 | .s16 => 9 | .s32 => 10 | .s64 => 11 | .z8 => 12 | .z16 => 13 | .z32 => 14 | .z64 => 15
  | .b8 => 16 | .b16 => 17 | .b32 => 18 | .b64 => 19 | .b128 => 20
def Ty.ofCode : Nat → Option Ty
  | 0 => some .f32 | 1 => some .f16 | 2 => some .bf16 | 3 => some .e4m3 | 4 => some .e5m2 | 5 => some .q4
  | 8 => some .s8 | 9 => some .s16 | 10 => some .s32 | 11 => some .s64
  | 12 => some .z8 | 13 => some .z16 | 14 => some .z32 | 15 => some .z64
  | 16 => some .b8 | 17 => some .b16 | 18 => some .b32 | 19 => some .b64 | 20 => some .b128
  | _ => none
def Ty.bits : Ty → Nat
  | .f32 => 32 | .f16 => 16 | .bf16 => 16 | .e4m3 => 8 | .e5m2 => 8 | .q4 => 4
  | .s8 => 8 | .s16 => 16 | .s32 => 32 | .s64 => 64 | .z8 => 8 | .z16 => 16 | .z32 => 32 | .z64 => 64
  | .b8 => 8 | .b16 => 16 | .b32 => 32 | .b64 => 64 | .b128 => 128
/-- Bytes of an access of the type. -/
def Ty.bytes (t : Ty) : Nat := Ty.bits t / 8
def Ty.isFloat : Ty → Bool
  | .f32 | .f16 | .bf16 | .e4m3 | .e5m2 | .q4 => true
  | _ => false
def Ty.signed : Ty → Bool
  | .s8 | .s16 | .s32 | .s64 => true
  | _ => false
/-- s or z type: arithmetic wraps or saturates (R264). -/
def Ty.isInt : Ty → Bool
  | .s8 | .s16 | .s32 | .s64 | .z8 | .z16 | .z32 | .z64 => true
  | _ => false
def Rnd.code : Rnd → Nat | .rn => 0 | .rz => 1 | .ru => 2 | .rd => 3 | .rs => 4
def Rnd.ofCode : Nat → Option Rnd
  | 0 => some .rn | 1 => some .rz | 2 => some .ru | 3 => some .rd | 4 => some .rs | _ => none
def Ord.code : Ord → Nat | .rlx => 0 | .acq => 1 | .rel => 2 | .acqrel => 3
def Ord.ofCode : Nat → Ord | 1 => .acq | 2 => .rel | 3 => .acqrel | _ => .rlx
def Scope.code : Scope → Nat
  | .warp => 0 | .block => 1 | .team => 2 | .die => 3 | .device => 4 | .domain => 5 | .system => 6
def Scope.ofCode : Nat → Option Scope
  | 0 => some .warp | 1 => some .block | 2 => some .team | 3 => some .die | 4 => some .device
  | 5 => some .domain | 6 => some .system | _ => none
def Space.code : Space → Nat
  | .stack => 0 | .shared => 1 | .nbrN => 2 | .nbrS => 3 | .nbrE => 4 | .nbrW => 5 | .yard => 6 | .far => 7
def Space.ofCode : Nat → Space
  | 0 => .stack | 1 => .shared | 2 => .nbrN | 3 => .nbrS | 4 => .nbrE | 5 => .nbrW | 6 => .yard | _ => .far
def CKind.code : CKind → Nat | .none => 0 | .tag => 1 | .wp => 2 | .status => 3
def CKind.ofCode : Nat → CKind | 1 => .tag | 2 => .wp | 3 => .status | _ => .none

/-! The published map (Table 12-2). -/

/-- Published opcode of an operation; none for an event. -/
def opcode : Instr → Option Nat
  | .sadd _ => some 0x000
  | .ssub _ => some 0x001
  | .smul _ => some 0x002
  | .smulh _ => some 0x003
  | .sdiv _ => some 0x004
  | .srem _ => some 0x005
  | .sand _ => some 0x006
  | .sor _ => some 0x007
  | .sxor _ => some 0x008
  | .sshl _ => some 0x009
  | .sshr _ => some 0x00A
  | .ssar _ => some 0x00B
  | .smin _ => some 0x00C
  | .smax _ => some 0x00D
  | .scmp _ => some 0x00E
  | .ssel _ => some 0x00F
  | .sclz _ => some 0x010
  | .spop _ => some 0x011
  | .smov _ => some 0x012
  | .smovi _ => some 0x018
  | .saddi _ => some 0x019
  | .sandi _ => some 0x01A
  | .sori _ => some 0x01B
  | .sxori _ => some 0x01C
  | .scmpi _ => some 0x01D
  | .srd _ => some 0x020
  | .mfsr _ => some 0x021
  | .mtsr _ => some 0x022
  | .sfmt _ => some 0x023
  | .bra _ => some 0x030
  | .brar _ => some 0x031
  | .call _ => some 0x032
  | .callr _ => some 0x033
  | .ret _ => some 0x034
  | .bifOpen _ => some 0x035
  | .belse _ => some 0x036
  | .bend _ => some 0x037
  | .lpset _ => some 0x038
  | .lpcnt _ => some 0x040
  | .yield _ => some 0x041
  | .exit _ => some 0x042
  | .nop _ => some 0x043
  | .spawn _ => some 0x048
  | .join _ => some 0x049
  | .vadd _ => some 0x080
  | .vsub _ => some 0x081
  | .vmul _ => some 0x082
  | .vfma _ => some 0x083
  | .vmulh _ => some 0x084
  | .vmin _ => some 0x085
  | .vmax _ => some 0x086
  | .vabs _ => some 0x087
  | .vneg _ => some 0x088
  | .vaddmin _ => some 0x089
  | .vaddmax _ => some 0x08A
  | .vclamp _ => some 0x08B
  | .vand _ => some 0x090
  | .vor _ => some 0x091
  | .vxor _ => some 0x092
  | .vnot _ => some 0x093
  | .vshl _ => some 0x094
  | .vshr _ => some 0x095
  | .vsar _ => some 0x096
  | .vclz _ => some 0x097
  | .vpopc _ => some 0x098
  | .vmov _ => some 0x0A0
  | .vsel _ => some 0x0A1
  | .vcmp _ => some 0x0A2
  | .vmovi _ => some 0x0A8
  | .pand _ => some 0x0B0
  | .por _ => some 0x0B1
  | .pxor _ => some 0x0B2
  | .pnot _ => some 0x0B3
  | .vp2v _ => some 0x0B4
  | .vv2p _ => some 0x0B5
  | .vcvt _ => some 0x0C0
  | .vf8pk _ => some 0x0C1
  | .vf8upk _ => some 0x0C2
  | .vqpack _ => some 0x0C3
  | .vqunpk _ => some 0x0C4
  | .vdiv _ => some 0x0D0
  | .vrcp _ => some 0x0D1
  | .vrsq _ => some 0x0D2
  | .vsqrt _ => some 0x0D3
  | .vexp2 _ => some 0x0D4
  | .vlog2 _ => some 0x0D5
  | .vsin _ => some 0x0D6
  | .vcos _ => some 0x0D7
  | .vtanh _ => some 0x0D8
  | .qxch _ => some 0x0E0
  | .qbrd _ => some 0x0E1
  | .vshup _ => some 0x0E2
  | .vshdn _ => some 0x0E3
  | .vshfl _ => some 0x0E4
  | .vbcast _ => some 0x0E5
  | .vscan _ => some 0x0E6
  | .vred _ => some 0x0E7
  | .vvote _ => some 0x0E8
  | .prand _ => some 0x0F0
  | .ld _ => some 0x180
  | .st _ => some 0x181
  | .atomAdd _ => some 0x182
  | .atomMin _ => some 0x183
  | .atomMax _ => some 0x184
  | .atomAnd _ => some 0x185
  | .atomOr _ => some 0x186
  | .atomXor _ => some 0x187
  | .atomExch _ => some 0x188
  | .cas _ => some 0x189
  | .fld _ => some 0x1C0
  | .fst _ => some 0x1C1
  | .fatomAdd _ => some 0x1C2
  | .fatomMin _ => some 0x1C3
  | .fatomMax _ => some 0x1C4
  | .fatomAnd _ => some 0x1C5
  | .fatomOr _ => some 0x1C6
  | .fatomXor _ => some 0x1C7
  | .fatomExch _ => some 0x1C8
  | .fcas _ => some 0x1C9
  | .claim _ => some 0x1E0
  | .reclaim _ => some 0x1E1
  | .flow _ => some 0x1E2
  | .unclaim _ => some 0x1E3
  | .kstat _ => some 0x1E4
  | .copy _ => some 0x1E5
  | .halo _ => some 0x1E6
  | .hflow _ => some 0x1E7
  | .gather _ => some 0x1E8
  | .coll _ => some 0x1E9
  | .fence _ => some 0x220
  | .wayreg _ => some 0x221
  | .wayregNeed _ => some 0x221
  | .wayarr _ => some 0x222
  | .wayarrNeighbour _ => some 0x222
  | .waywait _ => some 0x223
  | .waytest _ => some 0x224
  | .waydrop _ => some 0x225
  | .waydropReset _ => some 0x225
  | .ycfg _ => some 0x226
  | .qpush _ => some 0x227
  | .qpop _ => some 0x228
  | .qlen _ => some 0x229
  | .waitc _ => some 0x22A
  | .twait _ => some 0x22B
  | .tfind _ => some 0x22C
  | .tclr _ => some 0x22D
  | .mma _ => some 0x240
  | .mmat _ => some 0x241
  | .mzero _ => some 0x242
  | .mload _ => some 0x243
  | .mdrain _ => some 0x244
  | .maddt _ => some 0x245
  | .mfence _ => some 0x246
  | .mwait _ => some 0x247
  | .pinit _ => some 0x260
  | .pjoin _ => some 0x261
  | .pleave _ => some 0x262
  | .resample _ => some 0x263
  | .pstat _ => some 0x264
  | .plin _ => some 0x265
  | .nwin _ => some 0x270
  | .notice _ => some 0x271
  | .object _ => some 0x272
  | .nawait _ => some 0x273
  | .nread _ => some 0x274
  | .nfilter _ => some 0x275
  | .nstat _ => some 0x276
  | .nstatCnt _ => some 0x276
  | .xwrite _ => some 0x280
  | .xread _ => some 0x281
  | .xsend _ => some 0x282
  | .xatom _ => some 0x283
  | .xflush _ => some 0x284
  | .xpoll _ => some 0x285
  | .trap _ => some 0x2A0
  | .trapVec _ => some 0x2A0
  | .tret _ => some 0x2A1
  | .brk _ => some 0x2A2
  | .halt _ => some 0x2A3
  | .rdtime _ => some 0x2A4
  | .chkpt _ => some 0x2A5
  | .watch _ => some 0x2A6
  | .unwatch _ => some 0x2A7
  | .powerGood _ => none
  | .virtualFunctionPresentation => none
  | .serviceCoreTakeover _ => none
  | .thermalHigh _ => none
  | .thermalRestore => none
  | .thermalShutdown => none
  | .patrolScrub _ _ => none
  | .linkUp _ => none
  | .linkDown _ => none
  | .linkReplay _ => none
  | .reservationRequest _ _ => none
  | .reservationReply _ => none
  | .reservationQueueGrant => none
  | .junctionWordFlit _ _ _ => none
  | .readPacket _ => none
  | .writePacket _ => none
  | .atomicPacket _ => none
  | .casPacket _ => none
  | .orderedPacketRelease _ _ => none
  | .acknowledgement _ => none
  | .readResponse _ => none
  | .routeError _ => none
  | .streamReset _ => none
  | .streamResetSend _ _ => none
  | .streamWaitTimeout _ _ => none
  | .retransmitTimeout _ => none
  | .packetAbandon _ => none
  | .fetchedValueExpiry _ _ _ => none
  | .milepostInject => none
  | .junctionMilepostCopy _ _ => none
  | .milepostDelivery _ => none
  | .timeBaseFlit _ => none
  | .linkMapFlit _ _ => none
  | .timeMasterTakeover => none
  | .timeBaseLost => none
  | .timeBaseRegained => none
  | .walkComplete _ => none
  | .grantRequest _ => none
  | .grantResponse _ => none
  | .invalidation _ => none
  | .invalidationAck _ => none
  | .stuckInvalidation _ => none
  | .priResponse _ _ => none
  | .atsInvalidateRequest _ _ _ _ _ => none
  | .migrationCopyDone _ => none
  | .migrationTimeout _ => none
  | .netWorkRequest _ => none
  | .netResponse _ _ => none
  | .netAckTimeout _ => none
  | .incomingRdmaWrite _ _ _ _ => none
  | .incomingRdmaRead _ _ _ _ => none
  | .incomingSend _ _ => none
  | .incomingAtomic _ _ _ _ _ _ => none
  | .incomingFlush _ _ _ _ => none
  | .cnpReceived _ => none
  | .rateRecovery _ => none
  | .localRevokeTimeout _ => none
  | .backgroundCut _ _ => none
  | .driverNotification _ _ _ => none
  | .deviceStatusReset _ => none
  | .featuresOkWrite _ _ => none
  | .functionLevelReset _ => none
  | .configRegisterWrite _ _ _ => none
  | .identify _ => none
  | .diag _ => none
  | .telemetry _ => none
  | .ctxCreate _ => none
  | .ctxDestroy _ => none
  | .xlateSet _ => none
  | .invalPage _ => none
  | .migrate _ => none
  | .s2Answer _ => none
  | .homemapSet _ => none
  | .partSet _ => none
  | .tokensSet _ => none
  | .sliceSet _ => none
  | .vfReset _ => none
  | .qpCreate _ => none
  | .qpModify _ => none
  | .qpDestroy _ => none
  | .mrReg _ => none
  | .mrDereg _ => none
  | .netAddr _ => none
  | .decodeLoad _ => none
  | .pgroupSet _ => none
  | .ngroupSet _ => none
  | .attest _ => none
  | .bundleWrite _ _ => none
  | .launchPacket _ _ => none
  | .launchFinish _ _ => none
  | .fencePacket _ _ => none
  | .fenceRound _ _ => none
  | .graphPacket _ _ => none
  | .graphNodeFinish _ _ _ => none
  | .layoutPacket _ _ => none
  | .signalPacket _ _ => none
  | .timerPacket _ _ => none
  | .watchdogExpiry _ _ => none
  | .resetMark _ => none
  | .resetMarkResend _ => none
  | .checkpointSchedule _ => none
  | .cutMark _ => none
  | .cutTick _ => none
  | .doneMark _ => none
  | .commitMark _ => none
  | .cutTimeout _ => none
  | .sliceEnd _ => none
  | .sliceendMark _ => none
  | .warpHalt _ => none
  | .contextSave _ _ => none
  | .contextResume _ _ => none
  | .priorityPreemption _ _ => none
  | .teamDispatch _ => none
  | .continuationPop _ => none
  | .queueReservation _ _ _ => none
  | .clauseFetch _ => none
  | .warpPromotion _ => none
  | .resultWriteback _ _ => none
  | .trapEntry _ => none
  | .flowLegAck _ _ _ _ => none
  | .claimPhaseComplete _ => none
  | .haloPathMatch _ _ => none
  | .collMatch _ _ _ => none
  | .matrixStepComplete _ _ => none
  | .batchStart _ _ => none
  | .tokenArrival _ _ _ => none
  | .tokenCountEffect _ _ => none
  | .resampleCommit _ _ _ => none
  | .noticeFlit _ => none
  | .objectionFlit _ => none
  | .outcomeFlit _ => none
  | .noticeDecide _ _ _ => none
  | .outcomeExpiry _ _ _ => none
  | .joinPoll _ => none
  | .modulePowerLoss => none
  | .atsTranslationCompletion _ _ => none
  | .hostReadCompletion _ _ => none
  | .unknownOutcomeDeadline _ _ _ => none
  | .rnrRetryTimeout _ => none

/-- The format of an operation with its fields. -/
inductive Fmt where
  | t (f : FmtT) | i (f : FmtI) | m (f : FmtM) | b (f : FmtB) | a (f : FmtA) | x (f : FmtX) | c (f : FmtC)
  deriving DecidableEq, Repr

def fmtOf : Instr → Option Fmt
  | .sadd f => some (.t f)
  | .ssub f => some (.t f)
  | .smul f => some (.t f)
  | .smulh f => some (.t f)
  | .sdiv f => some (.t f)
  | .srem f => some (.t f)
  | .sand f => some (.t f)
  | .sor f => some (.t f)
  | .sxor f => some (.t f)
  | .sshl f => some (.t f)
  | .sshr f => some (.t f)
  | .ssar f => some (.t f)
  | .smin f => some (.t f)
  | .smax f => some (.t f)
  | .scmp f => some (.t f)
  | .ssel f => some (.t f)
  | .sclz f => some (.t f)
  | .spop f => some (.t f)
  | .smov f => some (.t f)
  | .smovi f => some (.i f)
  | .saddi f => some (.i f)
  | .sandi f => some (.i f)
  | .sori f => some (.i f)
  | .sxori f => some (.i f)
  | .scmpi f => some (.i f)
  | .srd f => some (.x f)
  | .mfsr f => some (.x f)
  | .mtsr f => some (.x f)
  | .sfmt f => some (.x f)
  | .bra f => some (.b f)
  | .brar f => some (.b f)
  | .call f => some (.b f)
  | .callr f => some (.b f)
  | .ret f => some (.b f)
  | .bifOpen f => some (.b f)
  | .belse f => some (.b f)
  | .bend f => some (.b f)
  | .lpset f => some (.b f)
  | .lpcnt f => some (.x f)
  | .yield f => some (.x f)
  | .exit f => some (.x f)
  | .nop f => some (.x f)
  | .spawn f => some (.t f)
  | .join f => some (.t f)
  | .vadd f => some (.t f)
  | .vsub f => some (.t f)
  | .vmul f => some (.t f)
  | .vfma f => some (.t f)
  | .vmulh f => some (.t f)
  | .vmin f => some (.t f)
  | .vmax f => some (.t f)
  | .vabs f => some (.t f)
  | .vneg f => some (.t f)
  | .vaddmin f => some (.t f)
  | .vaddmax f => some (.t f)
  | .vclamp f => some (.t f)
  | .vand f => some (.t f)
  | .vor f => some (.t f)
  | .vxor f => some (.t f)
  | .vnot f => some (.t f)
  | .vshl f => some (.t f)
  | .vshr f => some (.t f)
  | .vsar f => some (.t f)
  | .vclz f => some (.t f)
  | .vpopc f => some (.t f)
  | .vmov f => some (.t f)
  | .vsel f => some (.t f)
  | .vcmp f => some (.t f)
  | .vmovi f => some (.i f)
  | .pand f => some (.t f)
  | .por f => some (.t f)
  | .pxor f => some (.t f)
  | .pnot f => some (.t f)
  | .vp2v f => some (.t f)
  | .vv2p f => some (.t f)
  | .vcvt f => some (.t f)
  | .vf8pk f => some (.t f)
  | .vf8upk f => some (.t f)
  | .vqpack f => some (.t f)
  | .vqunpk f => some (.t f)
  | .vdiv f => some (.t f)
  | .vrcp f => some (.t f)
  | .vrsq f => some (.t f)
  | .vsqrt f => some (.t f)
  | .vexp2 f => some (.t f)
  | .vlog2 f => some (.t f)
  | .vsin f => some (.t f)
  | .vcos f => some (.t f)
  | .vtanh f => some (.t f)
  | .qxch f => some (.t f)
  | .qbrd f => some (.t f)
  | .vshup f => some (.t f)
  | .vshdn f => some (.t f)
  | .vshfl f => some (.t f)
  | .vbcast f => some (.t f)
  | .vscan f => some (.t f)
  | .vred f => some (.t f)
  | .vvote f => some (.t f)
  | .prand f => some (.t f)
  | .ld f => some (.m f)
  | .st f => some (.m f)
  | .atomAdd f => some (.m f)
  | .atomMin f => some (.m f)
  | .atomMax f => some (.m f)
  | .atomAnd f => some (.m f)
  | .atomOr f => some (.m f)
  | .atomXor f => some (.m f)
  | .atomExch f => some (.m f)
  | .cas f => some (.m f)
  | .fld f => some (.m f)
  | .fst f => some (.m f)
  | .fatomAdd f => some (.m f)
  | .fatomMin f => some (.m f)
  | .fatomMax f => some (.m f)
  | .fatomAnd f => some (.m f)
  | .fatomOr f => some (.m f)
  | .fatomXor f => some (.m f)
  | .fatomExch f => some (.m f)
  | .fcas f => some (.m f)
  | .claim f => some (.a f)
  | .reclaim f => some (.a f)
  | .flow f => some (.a f)
  | .unclaim f => some (.a f)
  | .kstat f => some (.a f)
  | .copy f => some (.a f)
  | .halo f => some (.a f)
  | .hflow f => some (.a f)
  | .gather f => some (.a f)
  | .coll f => some (.a f)
  | .fence f => some (.x f)
  | .wayreg f => some (.x f)
  | .wayregNeed f => some (.x f)
  | .wayarr f => some (.x f)
  | .wayarrNeighbour f => some (.x f)
  | .waywait f => some (.x f)
  | .waytest f => some (.x f)
  | .waydrop f => some (.x f)
  | .waydropReset f => some (.x f)
  | .ycfg f => some (.x f)
  | .qpush f => some (.x f)
  | .qpop f => some (.x f)
  | .qlen f => some (.x f)
  | .waitc f => some (.x f)
  | .twait f => some (.x f)
  | .tfind f => some (.x f)
  | .tclr f => some (.x f)
  | .mma f => some (.c f)
  | .mmat f => some (.c f)
  | .mzero f => some (.c f)
  | .mload f => some (.c f)
  | .mdrain f => some (.c f)
  | .maddt f => some (.c f)
  | .mfence f => some (.c f)
  | .mwait f => some (.c f)
  | .pinit f => some (.a f)
  | .pjoin f => some (.a f)
  | .pleave f => some (.a f)
  | .resample f => some (.a f)
  | .pstat f => some (.a f)
  | .plin f => some (.a f)
  | .nwin f => some (.a f)
  | .notice f => some (.a f)
  | .object f => some (.a f)
  | .nawait f => some (.a f)
  | .nread f => some (.a f)
  | .nfilter f => some (.a f)
  | .nstat f => some (.a f)
  | .nstatCnt f => some (.a f)
  | .xwrite f => some (.a f)
  | .xread f => some (.a f)
  | .xsend f => some (.a f)
  | .xatom f => some (.a f)
  | .xflush f => some (.a f)
  | .xpoll f => some (.a f)
  | .trap f => some (.x f)
  | .trapVec f => some (.x f)
  | .tret f => some (.x f)
  | .brk f => some (.x f)
  | .halt f => some (.x f)
  | .rdtime f => some (.x f)
  | .chkpt f => some (.x f)
  | .watch f => some (.x f)
  | .unwatch f => some (.x f)
  | .powerGood _ => none
  | .virtualFunctionPresentation => none
  | .serviceCoreTakeover _ => none
  | .thermalHigh _ => none
  | .thermalRestore => none
  | .thermalShutdown => none
  | .patrolScrub _ _ => none
  | .linkUp _ => none
  | .linkDown _ => none
  | .linkReplay _ => none
  | .reservationRequest _ _ => none
  | .reservationReply _ => none
  | .reservationQueueGrant => none
  | .junctionWordFlit _ _ _ => none
  | .readPacket _ => none
  | .writePacket _ => none
  | .atomicPacket _ => none
  | .casPacket _ => none
  | .orderedPacketRelease _ _ => none
  | .acknowledgement _ => none
  | .readResponse _ => none
  | .routeError _ => none
  | .streamReset _ => none
  | .streamResetSend _ _ => none
  | .streamWaitTimeout _ _ => none
  | .retransmitTimeout _ => none
  | .packetAbandon _ => none
  | .fetchedValueExpiry _ _ _ => none
  | .milepostInject => none
  | .junctionMilepostCopy _ _ => none
  | .milepostDelivery _ => none
  | .timeBaseFlit _ => none
  | .linkMapFlit _ _ => none
  | .timeMasterTakeover => none
  | .timeBaseLost => none
  | .timeBaseRegained => none
  | .walkComplete _ => none
  | .grantRequest _ => none
  | .grantResponse _ => none
  | .invalidation _ => none
  | .invalidationAck _ => none
  | .stuckInvalidation _ => none
  | .priResponse _ _ => none
  | .atsInvalidateRequest _ _ _ _ _ => none
  | .migrationCopyDone _ => none
  | .migrationTimeout _ => none
  | .netWorkRequest _ => none
  | .netResponse _ _ => none
  | .netAckTimeout _ => none
  | .incomingRdmaWrite _ _ _ _ => none
  | .incomingRdmaRead _ _ _ _ => none
  | .incomingSend _ _ => none
  | .incomingAtomic _ _ _ _ _ _ => none
  | .incomingFlush _ _ _ _ => none
  | .cnpReceived _ => none
  | .rateRecovery _ => none
  | .localRevokeTimeout _ => none
  | .backgroundCut _ _ => none
  | .driverNotification _ _ _ => none
  | .deviceStatusReset _ => none
  | .featuresOkWrite _ _ => none
  | .functionLevelReset _ => none
  | .configRegisterWrite _ _ _ => none
  | .identify _ => none
  | .diag _ => none
  | .telemetry _ => none
  | .ctxCreate _ => none
  | .ctxDestroy _ => none
  | .xlateSet _ => none
  | .invalPage _ => none
  | .migrate _ => none
  | .s2Answer _ => none
  | .homemapSet _ => none
  | .partSet _ => none
  | .tokensSet _ => none
  | .sliceSet _ => none
  | .vfReset _ => none
  | .qpCreate _ => none
  | .qpModify _ => none
  | .qpDestroy _ => none
  | .mrReg _ => none
  | .mrDereg _ => none
  | .netAddr _ => none
  | .decodeLoad _ => none
  | .pgroupSet _ => none
  | .ngroupSet _ => none
  | .attest _ => none
  | .bundleWrite _ _ => none
  | .launchPacket _ _ => none
  | .launchFinish _ _ => none
  | .fencePacket _ _ => none
  | .fenceRound _ _ => none
  | .graphPacket _ _ => none
  | .graphNodeFinish _ _ _ => none
  | .layoutPacket _ _ => none
  | .signalPacket _ _ => none
  | .timerPacket _ _ => none
  | .watchdogExpiry _ _ => none
  | .resetMark _ => none
  | .resetMarkResend _ => none
  | .checkpointSchedule _ => none
  | .cutMark _ => none
  | .cutTick _ => none
  | .doneMark _ => none
  | .commitMark _ => none
  | .cutTimeout _ => none
  | .sliceEnd _ => none
  | .sliceendMark _ => none
  | .warpHalt _ => none
  | .contextSave _ _ => none
  | .contextResume _ _ => none
  | .priorityPreemption _ _ => none
  | .teamDispatch _ => none
  | .continuationPop _ => none
  | .queueReservation _ _ _ => none
  | .clauseFetch _ => none
  | .warpPromotion _ => none
  | .resultWriteback _ _ => none
  | .trapEntry _ => none
  | .flowLegAck _ _ _ _ => none
  | .claimPhaseComplete _ => none
  | .haloPathMatch _ _ => none
  | .collMatch _ _ _ => none
  | .matrixStepComplete _ _ => none
  | .batchStart _ _ => none
  | .tokenArrival _ _ _ => none
  | .tokenCountEffect _ _ => none
  | .resampleCommit _ _ _ => none
  | .noticeFlit _ => none
  | .objectionFlit _ => none
  | .outcomeFlit _ => none
  | .noticeDecide _ _ _ => none
  | .outcomeExpiry _ _ _ => none
  | .joinPoll _ => none
  | .modulePowerLoss => none
  | .atsTranslationCompletion _ _ => none
  | .hostReadCompletion _ _ => none
  | .unknownOutcomeDeadline _ _ _ => none
  | .rnrRetryTimeout _ => none

/-- Port class of a published opcode (Table 12-1). -/
def classOf (op : Nat) : Nat :=
  if op < 0x080 then 0 else if op < 0x180 then 1 else if op < 0x1C0 then 2 else if op < 0x1E0 then 3
  else if op < 0x220 then 4 else if op < 0x240 then 5 else if op < 0x260 then 6 else if op < 0x280 then 7
  else if op < 0x2A0 then 8 else 9
/-- Long-latency operations (Table 12-2). -/
def longLat (op : Nat) : Bool :=
  op = 0x004 || op = 0x005 || (0x0D0 ≤ op && op ≤ 0x0D8) || op = 0x180 || (0x182 ≤ op && op ≤ 0x189)
  || op = 0x1C0 || (0x1C2 ≤ op && op ≤ 0x1C9) || op = 0x1E4 || op = 0x285
/-- The first opcodes and lengths of the rows of Table 12-2. -/
def assignedRows : List (Nat × Nat) :=
  [(0x000, 19), (0x018, 6), (0x020, 4), (0x030, 9), (0x040, 4), (0x048, 2), (0x080, 12), (0x090, 9), (0x0A0, 3),
   (0x0A8, 1), (0x0B0, 6), (0x0C0, 5), (0x0D0, 9), (0x0E0, 9), (0x0F0, 1), (0x180, 10), (0x1C0, 10), (0x1E0, 10),
   (0x220, 14), (0x240, 8), (0x260, 6), (0x270, 7), (0x280, 6), (0x2A0, 8)]
/-- Assigned opcodes (R255, R259). -/
def assigned (op : Nat) : Bool := assignedRows.any (fun r => r.1 ≤ op && op < r.1 + r.2)
/-- Feature bits an operation needs (Table 12-3). -/
def capsOf (op : Nat) (q4 : Bool) : List Nat :=
  if op = 0x1E6 || op = 0x1E7 then [0, 3]
  else if 0x1E0 ≤ op && op < 0x220 then [0]
  else if 0x270 ≤ op && op ≤ 0x276 then [1]
  else if 0x260 ≤ op && op ≤ 0x265 then [2]
  else if 0x280 ≤ op && op < 0x2A0 then [4]
  else if (op = 0x240 || op = 0x241) && q4 then [14]
  else []
/-- Operations that may continue elsewhere and so stand last in their clause (R228, R290). -/
def lastOnly (op : Nat) : Bool :=
  (0x030 ≤ op && op ≤ 0x035) || op = 0x042 || op = 0x2A0 || op = 0x2A1 || op = 0x2A2

/-! Format T: what each register field holds (R282, R297 and the tables of 14 and 15). -/

/-- How a field is read: unused, V register (pair at 64 bits), V single, V or S by its U bit, S, S with the U bit set,
predicate, predicate destination P0 to P6, first of eight V registers, a code checked apart. -/
inductive Fld where
  | none | v | vs | vu | vus | s | su | p | pd | v8 | code
  deriving DecidableEq, Repr

/-- One operation of format T. -/
structure SpecT where
  dst : Fld
  oa  : Fld
  ob  : Fld
  oc  : Fld
  types : List Ty
  satInt : Bool
  rnd : Nat
  deriving DecidableEq, Repr

def tyS : List Ty := [.s64, .s32, .z64, .z32]
def tyVA : List Ty := [.f32, .f16, .bf16, .s32, .z32, .s64, .z64]
def tyVB : List Ty := [.b32, .s32, .z32, .b64, .s64, .z64]
def tyNone : List Ty := [.f32]

/-- The form tables of format T by published opcode (Tables 14-1, 15-1, 15-2, 15-4; R295, R296, R303 to R315). -/
def specT : Nat → Option SpecT
  | 0x000 | 0x001 | 0x002 | 0x004 => some ⟨.s, .s, .s, .none, tyS, true, 0⟩
  | 0x003 | 0x005 | 0x00C | 0x00D | 0x00E => some ⟨.s, .s, .s, .none, tyS, false, 0⟩
  | 0x006 | 0x007 | 0x008 | 0x009 | 0x00A => some ⟨.s, .s, .s, .none, [.b64, .b32], false, 0⟩
  | 0x00B => some ⟨.s, .s, .s, .none, [.s64, .s32], false, 0⟩
  | 0x00F => some ⟨.s, .s, .s, .s, [.b64], false, 0⟩
  | 0x010 | 0x011 => some ⟨.s, .s, .none, .none, [.b64, .b32], false, 0⟩
  | 0x012 => some ⟨.s, .s, .none, .none, [.b64], false, 0⟩
  | 0x048 => some ⟨.none, .s, .code, .s, tyNone, false, 0⟩
  | 0x049 => some ⟨.none, .s, .none, .none, tyNone, false, 0⟩
  | 0x080 | 0x081 | 0x082 => some ⟨.v, .vu, .vu, .none, tyVA, true, 4⟩
  | 0x083 => some ⟨.v, .vu, .vu, .vu, [.f32, .f16, .bf16], false, 4⟩
  | 0x084 => some ⟨.v, .vu, .vu, .none, [.s32, .z32], false, 0⟩
  | 0x085 | 0x086 => some ⟨.v, .vu, .vu, .none, tyVA, false, 4⟩
  | 0x087 | 0x088 => some ⟨.v, .vu, .none, .none, tyVA, true, 4⟩
  | 0x089 | 0x08A => some ⟨.v, .vu, .vu, .vu, tyVA, true, 4⟩
  | 0x08B => some ⟨.v, .vu, .vu, .vu, tyVA, false, 4⟩
  | 0x090 | 0x091 | 0x092 | 0x094 | 0x095 | 0x096 => some ⟨.v, .vu, .vu, .none, tyVB, false, 0⟩
  | 0x093 | 0x0A0 => some ⟨.v, .vu, .none, .none, tyVB, false, 0⟩
  | 0x097 | 0x098 => some ⟨.v, .vu, .none, .none, [.b32], false, 0⟩
  | 0x0A1 => some ⟨.v, .vu, .vu, .p, tyVB, false, 0⟩
  | 0x0A2 => some ⟨.pd, .vu, .vu, .code, tyVA ++ [.b32, .b64], false, 0⟩
  | 0x0B0 | 0x0B1 | 0x0B2 => some ⟨.pd, .p, .p, .none, tyNone, false, 0⟩
  | 0x0B3 => some ⟨.pd, .p, .none, .none, tyNone, false, 0⟩
  | 0x0B4 => some ⟨.vs, .p, .none, .none, tyNone, false, 0⟩
  | 0x0B5 => some ⟨.pd, .vus, .none, .none, tyNone, false, 0⟩
  | 0x0C0 => some ⟨.vs, .vus, .code, .none, [.f32, .f16, .bf16, .s32, .z32], false, 4⟩
  | 0x0C1 => some ⟨.vs, .vus, .vus, .none, [.e4m3, .e5m2], false, 4⟩
  | 0x0C2 => some ⟨.vs, .vus, .none, .none, [.e4m3, .e5m2], false, 0⟩
  | 0x0C3 => some ⟨.vs, .v8, .vs, .none, [.q4], false, 4⟩
  | 0x0C4 => some ⟨.v8, .vus, .vus, .none, [.q4], false, 0⟩
  | 0x0D0 => some ⟨.v, .vu, .vu, .none, [.f32, .f16], false, 3⟩
  | 0x0D3 => some ⟨.v, .vu, .none, .none, [.f32, .f16], false, 3⟩
  | 0x0D1 | 0x0D2 | 0x0D4 | 0x0D5 | 0x0D6 | 0x0D7 | 0x0D8 => some ⟨.v, .vu, .none, .none, [.f32, .f16], false, 0⟩
  | 0x0E0 | 0x0E1 => some ⟨.v, .vu, .none, .none, [.b32, .b64], false, 0⟩
  | 0x0E2 | 0x0E3 => some ⟨.v, .vu, .code, .vu, [.b32, .b64], false, 0⟩
  | 0x0E4 => some ⟨.v, .vu, .vus, .vu, [.b32, .b64], false, 0⟩
  | 0x0E5 => some ⟨.v, .vu, .code, .none, [.b32, .b64], false, 0⟩
  | 0x0E6 => some ⟨.v, .vu, .code, .none, [.f32, .s32, .z32, .s64, .z64, .b32, .b64], true, 4⟩
  | 0x0E7 => some ⟨.s, .vu, .code, .none, [.f32, .s32, .z32, .s64, .z64, .b32, .b64], true, 4⟩
  | 0x0E8 => some ⟨.code, .p, .none, .none, tyNone, false, 0⟩
  | 0x0F0 => some ⟨.v, .su, .su, .su, [.b32, .f32, .b64], false, 0⟩
  | _ => none

/-- Whether a field holds what its kind allows (R233, R297). -/
def fldOk (k : Fld) (n : BitVec 8) (u w64 : Bool) : Bool :=
  match k with
  | .none => n = 0 && !u
  | .v => !u && (!w64 || n.toNat % 2 = 0)
  | .vs => !u
  | .vu => if u then n.toNat < 64 else !w64 || n.toNat % 2 = 0
  | .vus => !u || n.toNat < 64
  | .s => !u && n.toNat < 64
  | .su => u && n.toNat < 64
  | .p => !u && n.toNat < 8
  | .pd => !u && n.toNat < 7
  | .v8 => !u && n.toNat ≤ 248
  | .code => true

/-- The checks of one operation that its table states beside the field kinds. -/
def extraT (op : Nat) (f : FmtT) : Bool :=
  let sub := f.sub.toNat
  match op with
  | 0x048 => sub % 2 = 0 && f.oa.toNat < 63 && !f.ub &&
      (if sub / 2 = 1 then f.ob.toNat < 64 else f.ob.toNat % 2 = 0)
  | 0x0A2 => sub = 0 && !f.uc && f.oc.toNat < 8 && (Ty.isFloat f.ty || f.oc.toNat < 6)
  | 0x0B4 => sub < 2
  | 0x0C0 =>
    (match Ty.ofCode f.ob.toNat with
     | some ts =>
       !f.ub && ts ≠ f.ty && [Ty.f32, .f16, .bf16, .s32, .z32].contains ts && (Ty.isFloat ts || Ty.isFloat f.ty)
       && (Ty.bits f.ty = 16 || sub % 2 = 0) && (Ty.bits ts = 16 || sub / 2 = 0)
     | none => false)
  | 0x0C1 => sub < 2
  | 0x0C2 => true
  | 0x0C3 => sub < 2
  | 0x0E0 => sub ≠ 0
  | 0x0E1 => true
  | 0x0E2 | 0x0E3 | 0x0E5 => sub < 2 && (if sub = 1 then f.ob.toNat < 32 && !f.ub else f.ub && f.ob.toNat < 64)
  | 0x0E6 => sub < 2 && !f.ub && f.ob.toNat < 6
      && (if f.ob.toNat < 3 then Ty.isFloat f.ty || Ty.isInt f.ty else !Ty.isFloat f.ty)
  | 0x0E7 => sub = 0 && !f.ub && f.ob.toNat < 6
      && (if f.ob.toNat < 3 then Ty.isFloat f.ty || Ty.isInt f.ty else !Ty.isFloat f.ty)
  | 0x0E8 => sub < 3 && (if sub = 2 then f.dst.toNat < 64 else f.dst.toNat < 7)
  | _ => sub = 0

/-- Rounding field: VCVT accepts codes 0 to 3 for every pair and rs only to a 16-bit destination (R305); every other
operation takes its table's modes on float types and 0 on the rest (R282, R297). -/
def rndOkT (op : Nat) (max : Nat) (f : FmtT) : Bool :=
  if op = 0x0C0 then Rnd.code f.rnd ≤ 3 || Ty.bits f.ty = 16
  else if Ty.isFloat f.ty then Rnd.code f.rnd ≤ max else Rnd.code f.rnd = 0

/-- `.sat` on integer types of the operations that show it; VSCAN and VRED accept it with code 0 only (R313). -/
def satOkT (op : Nat) (ok : Bool) (f : FmtT) : Bool :=
  !f.sat || (ok && Ty.isInt f.ty && ((op ≠ 0x0E6 && op ≠ 0x0E7) || f.ob = 0))

/-- Well-formed word of format T (R232, R236). -/
def wfT (op : Nat) (f : FmtT) : Bool :=
  match specT op with
  | none => false
  | some sp =>
    let w64 := Ty.bits f.ty = 64
    fldOk sp.dst f.dst false w64 && fldOk sp.oa f.oa f.ua w64 && fldOk sp.ob f.ob f.ub w64 && fldOk sp.oc f.oc f.uc w64
    && sp.types.contains f.ty && satOkT op sp.satInt f && rndOkT op sp.rnd f && extraT op f

/-- Well-formed word of format I (R237, R286, R302). -/
def wfI (op : Nat) (f : FmtI) : Bool :=
  match op with
  | 0x018 => f.dst.toNat < 64 && [Ty.s64, .z64].contains f.ty
  | 0x019 => f.dst.toNat < 64 && tyS.contains f.ty && (!f.hi || Ty.bits f.ty = 64)
  | 0x01A | 0x01B | 0x01C => f.dst.toNat < 64 && [Ty.b64, .b32].contains f.ty && (!f.hi || f.ty = .b64)
  | 0x01D => f.dst.toNat < 64 && tyS.contains f.ty && !f.hi
  | 0x0A8 => [Ty.b32, .f32].contains f.ty && !f.hi
  | _ => false

/-- Load types (Table 16-1). -/
def tyLd (far : Bool) : List Ty := [Ty.b32, .b8, .b16, .b64, .s8, .s16, .z8, .z16] ++ (if far then [] else [Ty.b128])
def tySt (far : Bool) : List Ty := [Ty.b32, .b8, .b16, .b64] ++ (if far then [] else [Ty.b128])
/-- The kind of a format M operation from its opcode within its range (R256). -/
inductive MKind where
  | load | store | add | min | max | and | or | xor | exch | cas
  deriving DecidableEq, Repr
def mkind (op : Nat) : MKind :=
  match op % 0x40 with
  | 0 => .load | 1 => .store | 2 => .add | 3 => .min | 4 => .max | 5 => .and | 6 => .or | 7 => .xor | 8 => .exch | _ => .cas
def tyAtom (k : MKind) : List Ty :=
  match k with
  | .add | .min | .max => [.s32, .z32, .s64, .z64, .f32]
  | _ => [.b32, .b64]
/-- Register number n may start a datum of the type (R317). -/
def regAlign (t : Ty) (n : Nat) : Bool :=
  if Ty.bits t = 64 then n % 2 = 0 else if Ty.bits t = 128 then n % 4 = 0 else true
/-- Operand register and attribute byte of an atomic (R238, R317). -/
def FmtM.opnd (f : FmtM) : Nat := f.off.toNat / 256
def FmtM.attr (f : FmtM) : Nat := f.off.toNat % 256
/-- Well-formed word of format M (R238, R316, R317). -/
def wfM (op : Nat) (f : FmtM) : Bool :=
  let far := 0x1C0 ≤ op
  let k := mkind op
  ((f.space = .far) = far)
  && (f.ord ≠ .rlx || f.scope = .warp)
  && (if f.ubase then f.base.toNat < 64 else !far || f.base.toNat % 2 = 0)
  && regAlign f.ty f.data.toNat
  && (match k with
      | .load => (tyLd far).contains f.ty && (f.ord = .rlx || f.ord = .acq)
      | .store => (tySt far).contains f.ty && (f.ord = .rlx || f.ord = .rel)
      | .cas => (tyAtom k).contains f.ty && regAlign f.ty (FmtM.opnd f) && regAlign f.ty (FmtM.attr f)
      | _ => (tyAtom k).contains f.ty && regAlign f.ty (FmtM.opnd f) && FmtM.attr f < 2
             && (FmtM.attr f = 0 || f.ord = .rlx))

/-- Register named by TGT2[43:36] in the register forms of format B (R239). -/
def FmtB.treg (f : FmtB) : Nat := f.tgt2.toNat / 2 ^ 12
/-- Well-formed word of format B (Table 14-5). The guards of BIF, BELSE and BEND must be P7 (R181). -/
def wfB (op : Nat) (f : FmtB) : Bool :=
  let sub := f.sub.toNat
  let reg := f.tgt2.toNat % 2 ^ 12 = 0 && FmtB.treg f < 64
  let p7 := f.c.guard = 7 && !f.c.gneg
  match op with
  | 0x030 => f.cpred = 0 && (if sub = 0 then f.tgt2 = 0 && !f.cneg else reg)
  | 0x031 | 0x033 | 0x034 => f.tgt1 = 0 && reg && f.cpred = 0 && !f.cneg && sub = 0
  | 0x032 => f.tgt2 = 0 && f.cpred = 0 && !f.cneg && sub = 0
  | 0x035 => p7 && sub = 0
  | 0x036 | 0x037 => p7 && f.tgt1 = 0 && f.tgt2 = 0 && f.cpred = 0 && !f.cneg && sub = 0
  | 0x038 => f.cpred = 0 && !f.cneg && sub < 2
  | _ => false

/-- Special-register numbers of Table 14-4. -/
def sregOk (n : Nat) : Bool :=
  [0x0000, 0x0001, 0x0002, 0x0004, 0x0005, 0x0006, 0x0007, 0x0010, 0x0014, 0x0011, 0x0015, 0x0012, 0x0016, 0x0020,
   0x0021, 0x0022, 0x0030, 0x0031, 0x0032].contains n
/-- MODE and DIR of a waypoint IMM16 (Table 19-3). -/
def wpMode (i : Nat) : Nat := nfld i 10 9
def wpDir (i : Nat) : Nat := nfld i 8 6
def wpBlk (i : Nat) : Nat := nfld i 5 4
def wpNum (i : Nat) : Nat := nfld i 3 0
/-- Well-formed word of format X (R241; R287 to R289, R293, R294, Tables 19-1, 21-3). -/
def wfX (op : Nat) (f : FmtX) : Bool :=
  let i := f.imm.toNat
  let d := f.dst.toNat
  let a := f.oa.toNat
  match op with
  | 0x020 => a = 0 && nfld i 14 5 = 0 && nfld i 4 0 ≤ 12
      && (if i < 0x8000 then d < 64 && nfld i 4 0 ≠ 0 else true)
  | 0x021 => sregOk i && d < 64 && (if i = 1 || i = 0x22 then a < 64 else a = 0)
  | 0x022 => sregOk i && i ≠ 1 && i ≠ 0x20 && i ≠ 0x21 && i ≠ 0x22 && d = 0 && a < 64
  | 0x023 => i ≤ 1 && (if i = 0 then d = 0 else d < 64) && a < 64
  | 0x040 => d = 0 && (if nfld i 14 14 = 1 then a = 0 else nfld i 13 0 = 0 && a < 64)
  | 0x041 | 0x042 | 0x043 => i = 0 && d = 0 && a = 0
  | 0x220 => d = 0 && a = 0 && nfld i 15 14 ≠ 0 && nfld i 13 11 ≠ 7 && nfld i 10 0 = 0
  | 0x221 => nfld i 15 11 = 0 && d = 0 && wpMode i < 2 && (if wpMode i = 0 then a = 0 && wpDir i = 0 else a < 64 && wpDir i < 5)
  | 0x222 => nfld i 15 11 = 0 && wpMode i = 0 && wpDir i < 5 && (if wpDir i = 0 then d < 64 && a = 0 else d = 0 && a < 64)
  | 0x223 => nfld i 15 11 = 0 && wpMode i < 2 && wpDir i = 0 && d = 0 && (if wpMode i = 1 then a = 0 else a < 64)
  | 0x224 => nfld i 15 11 = 0 && wpMode i < 2 && wpDir i = 0 && d < 64 && (if wpMode i = 1 then a = 0 else a < 64)
  | 0x225 => nfld i 15 11 = 0 && wpMode i < 2 && wpDir i = 0 && d = 0 && a = 0
  | 0x226 => i < 64 && nfld i 5 4 = 0 && d = 0 && a < 64
  | 0x227 => nfld i 15 9 = 0 && nfld i 7 6 = 0 && a < 64 && (if nfld i 8 8 = 1 then d < 64 else d = 0)
  | 0x228 => nfld i 15 9 = 0 && nfld i 7 6 = 0 && d < 64 && a = 0
  | 0x229 => nfld i 15 6 = 0 && d < 64 && a = 0
  | 0x22A => d = 0 && a = 0 && 1 ≤ nfld i 15 12 && nfld i 15 12 ≤ 5 && nfld i 11 10 = 0
  | 0x22B | 0x22C => i ≤ 1 && d < 64 && a < 64
  | 0x22D => i = 0 && d = 0 && a < 64
  | 0x2A0 => d = 0 && a < 64 && (i < 0x8000 || i = 0x8000)
  | 0x2A1 => i ≤ 1 && d = 0 && a = 0
  | 0x2A2 => d = 0 && a = 0
  | 0x2A3 => i = 0 && d = 0 && a < 64
  | 0x2A4 => i ≤ 2 && d < 64 && a = 0
  | 0x2A5 => i = 0 && d < 64 && a = 0
  | 0x2A6 => nfld i 15 11 = 0 && nfld i 7 4 ≤ 12 && nfld i 3 2 ≠ 0 && d = 0 && a < 64
  | 0x2A7 => i < 4 && d = 0 && a = 0
  | _ => false

/-- A named completion is in range (R240). -/
def complOk (f : FmtA) : Bool :=
  match f.ckind with
  | .none => f.carg = 0
  | .wp => f.carg.toNat < 16
  | _ => true
/-- Well-formed word of format A (R240; Tables 21-5, 22-12, 26-3, 28-4). -/
def wfA (op : Nat) (f : FmtA) : Bool :=
  let a := f.oa.toNat
  let b := f.ob.toNat
  let c := f.oc.toNat
  let sub := f.sub.toNat
  let nokh := f.kh = 0
  let noc := f.ckind = .none && f.carg = 0
  let b0 := b = 0 && c = 0
  match op with
  | 0x1E0 => a ≤ 61 && b0 && noc && sub = 0
  | 0x1E1 | 0x1E3 => a = 0 && b0 && noc && sub = 0
  | 0x1E2 => a < 64 && b0 && complOk f && sub = 0
  | 0x1E4 => a < 64 && b0 && noc && sub = 0
  | 0x1E5 => a ≤ 61 && b0 && nokh && complOk f && sub = 0
  | 0x1E6 => a ≤ 60 && b0 && noc && sub = 0
  | 0x1E7 => a = 0 && b0 && complOk f && sub = 0
  | 0x1E8 => a ≤ 60 && b0 && nokh && complOk f && sub ≤ 1
  | 0x1E9 => a ≤ 61 && b0 && nokh && complOk f && nfld sub 2 0 < 4 && nfld sub 4 3 < 3 && nfld sub 6 5 < 3 && nfld sub 9 7 = 0
  | 0x260 => nokh && noc && a ≤ 62 && b0 && sub < 16
  | 0x261 => nokh && noc && a = 0 && b0 && sub < 32
  | 0x262 => nokh && noc && a = 0 && b0 && sub < 16
  | 0x263 => nokh && noc && sub < 32 && (if sub < 16 then b < 64 else b = 0) && c < 7
  | 0x264 => nokh && noc && a ≤ 62 && sub < 32 && (if sub < 16 then b = 0 else b < 7) && c = 0
  | 0x265 => nokh && noc && a % 2 = 0 && b0 && sub = 0
  | 0x270 => nokh && noc && a = 0 && b0 && 6 ≤ nfld sub 7 0 && nfld sub 9 8 = 0
  | 0x271 => nokh && noc && a ≤ 62 && b = 0 && c < 64 && sub = 0
  | 0x272 => nokh && noc && a < 64 && b0 && sub = 0
  | 0x273 => nokh && noc && a < 64 && b = 0 && c < 64 && sub = 0
  | 0x274 => nokh && noc && a < 64 && b = 0 && c ≤ 60 && sub = 0
  | 0x275 => nokh && noc && a < 64 && b < 64 && c = 0 && sub = 0
  | 0x276 => nokh && noc && a < 64 && b = 0 && c < 64 && sub < 2
  | 0x280 | 0x281 | 0x282 | 0x284 => nokh && a ≤ 60 && b < 64 && c = 0 && complOk f && sub < 2
  | 0x283 => nokh && a ≤ 60 && b < 64 && c ≤ 62 && complOk f && sub < 4
  | 0x285 => nokh && noc && a ≤ 60 && b < 64 && c < 64 && sub = 0
  | _ => false

def tyMma : List Ty := [.f16, .bf16, .e4m3, .e5m2, .q4, .s8]
/-- Well-formed word of format C (Table 25-2). -/
def wfC (op : Nat) (f : FmtC) : Bool :=
  let noAB := f.bbase = 0 && f.bslot = 0
  let noA := f.abase = 0 && f.aslot = 0
  match op with
  | 0x240 | 0x241 => f.aslot.toNat < 48 && f.bslot.toNat < 48 && tyMma.contains f.ty
  | 0x242 => noA && noAB && f.ty = .f32 && f.nk = 0 && f.sub = 0
  | 0x243 => noAB && f.aslot.toNat < 48 && [Ty.f32, .bf16].contains f.ty && f.nk.toNat < 4
  | 0x244 => noAB && f.aslot.toNat < 48 && [Ty.f32, .bf16, .f16].contains f.ty && f.nk.toNat < 4
  | 0x245 => f.abase.toNat < 8 && f.aslot = 0 && noAB && f.ty = .f32 && f.nk = 0 && f.sub = 0
  | 0x246 | 0x247 => noA && noAB && f.tile = 0 && f.ty = .f32 && f.nk = 0 && f.sub = 0
  | _ => false

/-- The common fields of a word. -/
def Fmt.common : Fmt → Common
  | .t f => f.c | .i f => f.c | .m f => f.c | .b f => f.c | .a f => f.c | .x f => f.c | .c f => f.c

/-- The rows of the opcode table that share one opcode take it by a field (Tables 19-4, 21-3, 28-4). -/
def variantOk : Instr → Bool
  | .wayreg f => wpMode f.imm.toNat = 0
  | .wayregNeed f => wpMode f.imm.toNat = 1
  | .wayarr f => wpDir f.imm.toNat = 0
  | .wayarrNeighbour f => wpDir f.imm.toNat ≠ 0
  | .waydrop f => wpMode f.imm.toNat = 0
  | .waydropReset f => wpMode f.imm.toNat = 1
  | .nstat f => f.sub.toNat % 2 = 0
  | .nstatCnt f => f.sub.toNat % 2 = 1
  | .trap f => f.imm.toNat < 0x8000
  | .trapVec f => 0x8000 ≤ f.imm.toNat
  | _ => true

/-- Field checks of a word in its format (R232). -/
def wfFmt (op : Nat) : Fmt → Bool
  | .t f => wfT op f | .i f => wfI op f | .m f => wfM op f | .b f => wfB op f
  | .a f => wfA op f | .x f => wfX op f | .c f => wfC op f

/-- Decode checks of an operation but for capability: lookahead, fields (R232). -/
def formOk (i : Instr) : Bool :=
  match opcode i, fmtOf i with
  | some op, some f => ((Fmt.common f).la = 0 || longLat op) && wfFmt op f && variantOk i
  | _, _ => true

/-! Registers named by an operation (R233, R243). -/

/-- A register: file 0 V, 1 S, 2 P, and its number (register code of R232). -/
structure RC where
  file : Nat
  num  : Nat
  deriving DecidableEq, Repr
/-- Register code as TVAL holds it (R232). -/
def RC.code (r : RC) : Nat := r.file * 256 + r.num

/-- The registers of n consecutive numbers. -/
def rcs (file n k : Nat) : List RC := (List.range k).map (fun j => ⟨file, n + j⟩)
/-- Registers a field names. -/
def fldRegs (k : Fld) (n : Nat) (u w64 : Bool) : List RC :=
  match k with
  | .none | .code => []
  | .v => rcs 0 n (if w64 then 2 else 1)
  | .vs => rcs 0 n 1
  | .vu => if u then rcs 1 n 1 else rcs 0 n (if w64 then 2 else 1)
  | .vus => if u then rcs 1 n 1 else rcs 0 n 1
  | .s | .su => rcs 1 n 1
  | .p | .pd => rcs 2 n 1
  | .v8 => rcs 0 n 8

/-- Destinations and sources of an operation. -/
structure Use where
  dst : List RC
  src : List RC
  deriving DecidableEq, Repr

def useT (op : Nat) (f : FmtT) : Use :=
  match specT op with
  | none => ⟨[], []⟩
  | some sp =>
    let w64 := Ty.bits f.ty = 64
    let srcs := fldRegs sp.oa f.oa.toNat f.ua w64 ++ fldRegs sp.ob f.ob.toNat f.ub w64 ++ fldRegs sp.oc f.oc.toNat f.uc w64
    match op with
    | 0x048 => ⟨[], rcs 1 f.oa.toNat 2 ++ (if f.sub.toNat / 2 = 1 then rcs 1 f.ob.toNat 1 else rcs 0 f.ob.toNat 2) ++ rcs 1 f.oc.toNat 1⟩
    | 0x0C3 => ⟨rcs 0 f.dst.toNat 1 ++ rcs 0 f.ob.toNat 1, srcs⟩
    | 0x0C0 => ⟨rcs 0 f.dst.toNat 1, srcs ++ (if Ty.bits f.ty = 16 then rcs 0 f.dst.toNat 1 else [])⟩
    | 0x0C1 => ⟨rcs 0 f.dst.toNat 1, srcs ++ rcs 0 f.dst.toNat 1⟩
    | 0x0E2 | 0x0E3 | 0x0E5 => ⟨fldRegs sp.dst f.dst.toNat false w64, srcs ++ (if f.ub then rcs 1 f.ob.toNat 1 else [])⟩
    | 0x0E8 => ⟨if f.sub.toNat = 2 then rcs 1 f.dst.toNat 1 else rcs 2 f.dst.toNat 1, srcs⟩
    | _ => ⟨fldRegs sp.dst f.dst.toNat false w64, srcs⟩

def useI (op : Nat) (f : FmtI) : Use :=
  if op = 0x0A8 then ⟨rcs 0 f.dst.toNat 1, []⟩
  else ⟨rcs 1 f.dst.toNat 1, if op = 0x018 && !f.hi then [] else rcs 1 f.dst.toNat 1⟩

/-- V registers a datum of the type takes. -/
def Ty.regs (t : Ty) : Nat := if Ty.bits t = 128 then 4 else if Ty.bits t = 64 then 2 else 1
def useM (op : Nat) (f : FmtM) : Use :=
  let n := Ty.regs f.ty
  let base := if f.ubase then rcs 1 f.base.toNat 1 else rcs 0 f.base.toNat (if f.space = .far then 2 else 1)
  match mkind op with
  | .load => ⟨rcs 0 f.data.toNat n, base⟩
  | .store => ⟨[], rcs 0 f.data.toNat n ++ base⟩
  | .cas => ⟨rcs 0 f.data.toNat n, base ++ rcs 0 (FmtM.opnd f) n ++ rcs 0 (FmtM.attr f) n⟩
  | _ => ⟨rcs 0 f.data.toNat n, base ++ rcs 0 (FmtM.opnd f) n⟩

def useB (op : Nat) (f : FmtB) : Use :=
  match op with
  | 0x030 => ⟨[], if f.sub = 0 then [] else rcs 1 (FmtB.treg f) 1⟩
  | 0x031 | 0x034 => ⟨[], rcs 1 (FmtB.treg f) 1⟩
  | 0x032 => ⟨[⟨1, 63⟩], []⟩
  | 0x033 => ⟨[⟨1, 63⟩], rcs 1 (FmtB.treg f) 1⟩
  | 0x035 => ⟨[], [⟨2, f.cpred.toNat⟩]⟩
  | _ => ⟨[], []⟩

def useX (op : Nat) (f : FmtX) : Use :=
  let i := f.imm.toNat
  let d := f.dst.toNat
  let a := f.oa.toNat
  match op with
  | 0x020 => ⟨rcs (if i < 0x8000 then 1 else 0) d 1, []⟩
  | 0x021 => ⟨rcs 1 d 1, if i = 1 || i = 0x22 then rcs 1 a 1 else []⟩
  | 0x022 => ⟨[], rcs 1 a 1⟩
  | 0x023 => ⟨if i = 1 then rcs 1 d 1 else [], rcs 1 a 1⟩
  | 0x040 => ⟨[], if nfld i 14 14 = 1 then [] else rcs 1 a 1⟩
  | 0x221 => ⟨[], if wpMode i = 1 then rcs 1 a 1 else []⟩
  | 0x222 => if wpDir i = 0 then ⟨rcs 1 d 1, []⟩ else ⟨[], rcs 1 a 1⟩
  | 0x223 => ⟨[], if wpMode i = 1 then [] else rcs 1 a 1⟩
  | 0x224 => ⟨rcs 1 d 1, if wpMode i = 1 then [] else rcs 1 a 1⟩
  | 0x226 | 0x22D | 0x2A0 | 0x2A3 | 0x2A6 => ⟨[], rcs 1 a 1⟩
  | 0x227 => ⟨if nfld i 8 8 = 1 then rcs 1 d 1 else [], rcs 1 a 1⟩
  | 0x228 | 0x229 | 0x2A4 | 0x2A5 => ⟨rcs 1 d 1, []⟩
  | 0x22B | 0x22C => ⟨rcs 1 d 1, rcs 1 a 1⟩
  | _ => ⟨[], []⟩

def useA (op : Nat) (f : FmtA) : Use :=
  let a := f.oa.toNat
  let b := f.ob.toNat
  let c := f.oc.toNat
  let st := if f.ckind = .status then rcs 1 f.carg.toNat 1 else []
  match op with
  | 0x1E0 => ⟨[], rcs 1 a 3⟩
  | 0x1E2 => ⟨st, rcs 1 a 1⟩
  | 0x1E4 => ⟨rcs 1 a 1, []⟩
  | 0x1E5 | 0x1E9 => ⟨st, rcs 1 a 3⟩
  | 0x1E6 => ⟨[], rcs 1 a 4⟩
  | 0x1E7 => ⟨st, []⟩
  | 0x1E8 => ⟨st, rcs 1 a 4⟩
  | 0x260 => ⟨[], rcs 1 a 2⟩
  | 0x263 => ⟨rcs 2 c 1, rcs 0 a 1 ++ (if f.sub.toNat < 16 then rcs 1 b 1 else [])⟩
  | 0x264 => ⟨rcs 1 a 2 ++ (if f.sub.toNat < 16 then [] else rcs 2 b 1), []⟩
  | 0x265 => ⟨rcs 0 a 2, []⟩
  | 0x271 => ⟨rcs 1 c 1, rcs 1 a 2⟩
  | 0x272 => ⟨[], rcs 1 a 1⟩
  | 0x273 | 0x276 => ⟨rcs 1 c 1, rcs 1 a 1⟩
  | 0x274 => ⟨rcs 1 c 4, rcs 1 a 1⟩
  | 0x275 => ⟨[], rcs 1 a 1 ++ rcs 1 b 1⟩
  | 0x280 | 0x281 | 0x282 | 0x284 => ⟨st, rcs 1 a 4 ++ rcs 1 b 1⟩
  | 0x283 => ⟨st, rcs 1 a 4 ++ rcs 1 b 1 ++ rcs 1 c 2⟩
  | 0x285 => ⟨rcs 1 a 4, rcs 1 b 1 ++ rcs 1 c 1⟩
  | _ => ⟨[], []⟩

/-- Registers an operation names. The matrix operations name registers of feeder warps only (R242). -/
def useOf (op : Nat) : Fmt → Use
  | .t f => useT op f | .i f => useI op f | .m f => useM op f | .b f => useB op f
  | .a f => useA op f | .x f => useX op f | .c _ => ⟨[], []⟩

/-- First V register at or above the allocation, destinations first (R185, R232; log 9). -/
def boundsReg (u : Use) (alloc : Nat) : Option Nat :=
  ((u.dst ++ u.src).find? (fun r => r.file = 0 && alloc ≤ r.num)).map RC.num

end Sys2Proof.Machine
end

