-- ==== Sys2Proof/Machine/Flags.lean ====
section
/-! DEFINITION. Numbers and flags (13): exact dyadic values of the floating-point formats, the five rounding modes, the
sticky flags of Table 13-2, conversions, the q4 family, and integer results with wrap, sat and SQ. Flags are six bits in
FMT's order: 0 NV, 1 DZ, 2 OF, 3 UF, 4 NX, 5 SQ (FMT[37:32]). -/

namespace Sys2Proof.Machine

abbrev FlagBits := BitVec 6
def fNV : FlagBits := 0b000001#6
def fDZ : FlagBits := 0b000010#6
def fOF : FlagBits := 0b000100#6
def fUF : FlagBits := 0b001000#6
def fNX : FlagBits := 0b010000#6
def fSQ : FlagBits := 0b100000#6
def flagIf (c : Bool) (f : FlagBits) : FlagBits := if c then f else 0

/-- FMT with flags ORed in (R270, R272). -/
def orFlags (fmt : W64) (f : FlagBits) : W64 := fmt ||| ((f.zeroExtend 64) <<< 32)

/-! ## Exact values. -/

/-- A value: NaN, an infinity, or (-1)^neg * m * 2^e; m = 0 is a signed zero. -/
inductive FVal where
  | nan
  | inf (neg : Bool)
  | fin (neg : Bool) (m : Nat) (e : Int)
  deriving DecidableEq, Repr

/-- A format of Table 13-1: exponent and fraction widths, bias, and whether all-ones exponents are infinities and NaNs
(E4M3 has no infinity and its NaNs are 0x7F and 0xFF). -/
structure FSpec where
  eb   : Nat
  mb   : Nat
  bias : Nat
  inf  : Bool
  dnan : Nat
  deriving DecidableEq, Repr
def spF32 : FSpec := ⟨8, 23, 127, true, 0x7FC00000⟩
def spF16 : FSpec := ⟨5, 10, 15, true, 0x7E00⟩
def spBf16 : FSpec := ⟨8, 7, 127, true, 0x7FC0⟩
def spE4m3 : FSpec := ⟨4, 3, 7, false, 0x7F⟩
def spE5m2 : FSpec := ⟨5, 2, 15, true, 0x7E⟩
/-- The format of a floating-point type; f32 for the others. -/
def specOf : Ty → FSpec
  | .f16 => spF16 | .bf16 => spBf16 | .e4m3 => spE4m3 | .e5m2 => spE5m2 | _ => spF32

/-- Exponent of the least significant fraction bit of a subnormal: 1 - bias - mb. -/
def FSpec.emin (sp : FSpec) : Int := 1 - (sp.bias : Int) - (sp.mb : Int)
/-- Largest finite encoding without sign. -/
def FSpec.maxEnc (sp : FSpec) : Nat :=
  if sp.inf then (2 ^ sp.eb - 1) * 2 ^ sp.mb - 1 else 2 ^ (sp.eb + sp.mb) - 2
/-- The value of an encoding (R262). -/
def fdec (sp : FSpec) (b : Nat) : FVal :=
  let neg := (b >>> (sp.eb + sp.mb)) % 2 = 1
  let mag := b % 2 ^ (sp.eb + sp.mb)
  if mag ≤ FSpec.maxEnc sp then
    let ex := mag >>> sp.mb
    let fr := mag % 2 ^ sp.mb
    if ex = 0 then .fin neg fr (FSpec.emin sp)
    else .fin neg (2 ^ sp.mb + fr) (FSpec.emin sp + ((ex : Int) - 1))
  else if sp.inf && mag = FSpec.maxEnc sp + 1 then .inf neg
  else .nan
/-- Sign bit in place. -/
def fsign (sp : FSpec) (neg : Bool) : Nat := if neg then 2 ^ (sp.eb + sp.mb) else 0
/-- Encoding of an infinity. -/
def finf (sp : FSpec) (neg : Bool) : Nat := fsign sp neg + FSpec.maxEnc sp + 1

/-! ## Rounding (R265, R266). -/

/-- m * 2^e in units of 2^q: the whole part, the remainder and the number of bits it has. -/
def inUnits (m : Nat) (e q : Int) : Nat × Nat × Nat :=
  if q ≤ e then (m <<< (e - q).toNat, 0, 0)
  else
    let d := (q - e).toNat
    (m >>> d, m % 2 ^ d, d)
/-- Whether the magnitude n + rem / 2^d is rounded away from zero. r is the 24-bit draw of rs. -/
def roundsUp (rnd : Rnd) (neg : Bool) (n rem d r : Nat) : Bool :=
  rem ≠ 0 &&
  (match rnd with
   | .rn => 2 * rem > 2 ^ d || (2 * rem = 2 ^ d && n % 2 = 1)
   | .rz => false
   | .ru => !neg
   | .rd => neg
   | .rs => r * 2 ^ d < rem * 2 ^ 24)
/-- Magnitude m * 2^e rounded to a multiple of 2^q: the multiple and whether it was inexact. -/
def roundMag (rnd : Rnd) (neg : Bool) (m : Nat) (e q : Int) (r : Nat) : Nat × Bool :=
  let (n, rem, d) := inUnits m e q
  (if roundsUp rnd neg n rem d r then n + 1 else n, rem ≠ 0)
/-- m1 * 2^e1 compared with m2 * 2^e2. -/
def magLt (m1 : Nat) (e1 : Int) (m2 : Nat) (e2 : Int) : Bool :=
  let q := min e1 e2
  m1 <<< (e1 - q).toNat < m2 <<< (e2 - q).toNat

/-- The largest finite magnitude as an exact value. -/
def FSpec.maxVal (sp : FSpec) : Nat × Int :=
  match fdec sp (FSpec.maxEnc sp) with
  | .fin _ m e => (m, e)
  | _ => (0, 0)

/-- A rounded result: its encoding, the flags it raises, and whether the rounding under an unbounded exponent range
exceeds the largest finite value. -/
structure Rounded where
  enc   : Nat
  flags : FlagBits
  ovf   : Bool
  deriving DecidableEq, Repr

/-- The exact nonzero real (-1)^neg * m * 2^e rounded to the format (R265, R266, R270): the quantum of the unbounded
range gives OF and the tininess of UF, the bounded quantum gives the result. Under rn the result overflows from half an ulp above the largest
finite value on, whatever the parity of that value. -/
def roundFin (sp : FSpec) (rnd0 : Rnd) (neg : Bool) (m : Nat) (e : Int) (r : Nat) : Rounded :=
  let (mm, me) := FSpec.maxVal sp
  let big := magLt mm me m e
  let rnd := if rnd0 = .rs && big then .rn else rnd0
  let top : Int := (Nat.log2 m : Int) + e
  let q := top - (sp.mb : Int)
  let (nu, _) := roundMag rnd neg m e q r
  let ovf := if rnd = .rn then !magLt m e (2 * mm + 1) (me - 1) else magLt mm me nu q
  let qb := max q (FSpec.emin sp)
  let (nb, inex) := roundMag rnd neg m e qb r
  let tiny := nu ≠ 0 && magLt nu q (2 ^ sp.mb) (FSpec.emin sp)
  if ovf then
    let toMax := match rnd with
      | .rz => true
      | .ru => neg
      | .rd => !neg
      | _ => false
    ⟨if toMax then fsign sp neg + FSpec.maxEnc sp else finf sp neg, fOF ||| fNX, true⟩
  else
    -- nb * 2^qb is representable: place it
    let (mant, ex) :=
      if nb < 2 ^ sp.mb then (nb, 0)
      else if nb < 2 ^ (sp.mb + 1) then (nb - 2 ^ sp.mb, (qb - FSpec.emin sp).toNat + 1)
      else (0, (qb - FSpec.emin sp).toNat + 2)
    ⟨fsign sp neg + ex * 2 ^ sp.mb + mant, flagIf inex fNX ||| flagIf (inex && tiny) fUF, false⟩

/-- round(x, f, m) of an exact value (Table 10-6, R263, R265): NaN gives the default NaN, an infinity itself. -/
def roundF (sp : FSpec) (rnd : Rnd) (x : FVal) (r : Nat) : Nat × FlagBits :=
  match x with
  | .nan => (sp.dnan, 0)
  | .inf n => (finf sp n, 0)
  | .fin n 0 _ => (fsign sp n, 0)
  | .fin n m e => let o := roundFin sp rnd n m e r; (o.enc, o.flags)

/-! ## Exact arithmetic (R263: signs of zeros, NaN rules). Each answers the exact value and NV when a NaN is created. -/

/-- Sign of an exact zero sum: minus under rd, else plus. -/
def zeroSum (rnd : Rnd) : FVal := .fin (rnd = .rd) 0 0
/-- Signed integer of a finite value in units of 2^q. -/
def sInt (neg : Bool) (m : Nat) (e q : Int) : Int :=
  let v : Int := (m <<< (e - q).toNat : Nat)
  if neg then -v else v
def fadd (rnd : Rnd) (a b : FVal) : FVal × FlagBits :=
  match a, b with
  | .nan, _ => (.nan, 0)
  | _, .nan => (.nan, 0)
  | .inf s, .inf t => if s = t then (.inf s, 0) else (.nan, fNV)
  | .inf s, _ => (.inf s, 0)
  | _, .inf t => (.inf t, 0)
  | .fin s m e, .fin t n f =>
    if m = 0 && n = 0 then (if s = t then (.fin s 0 0, 0) else (zeroSum rnd, 0))
    else
      let q := min e f
      let z := sInt s m e q + sInt t n f q
      if z = 0 then (zeroSum rnd, 0) else (.fin (z < 0) z.natAbs q, 0)
def fneg : FVal → FVal
  | .nan => .nan | .inf s => .inf (!s) | .fin s m e => .fin (!s) m e
def fabs : FVal → FVal
  | .nan => .nan | .inf _ => .inf false | .fin _ m e => .fin false m e
def fmul (a b : FVal) : FVal × FlagBits :=
  match a, b with
  | .nan, _ => (.nan, 0)
  | _, .nan => (.nan, 0)
  | .inf s, .inf t => (.inf (s != t), 0)
  | .inf s, .fin t n _ => if n = 0 then (.nan, fNV) else (.inf (s != t), 0)
  | .fin s m _, .inf t => if m = 0 then (.nan, fNV) else (.inf (s != t), 0)
  | .fin s m e, .fin t n f => (.fin (s != t) (m * n) (e + f), 0)
def ffma (rnd : Rnd) (a b c : FVal) : FVal × FlagBits :=
  let (p, f1) := fmul a b
  if c = .nan && (a = .nan || b = .nan || p = .nan) then (.nan, 0)
  else
    let (s, f2) := fadd rnd p c
    (s, f1 ||| f2)
/-- Quotient with 66 extra bits and a sticky bit, enough for a correct rounding of any format (R309). -/
def fdiv (a b : FVal) : FVal × FlagBits :=
  match a, b with
  | .nan, _ => (.nan, 0)
  | _, .nan => (.nan, 0)
  | .inf _, .inf _ => (.nan, fNV)
  | .inf s, .fin t _ _ => (.inf (s != t), 0)
  | .fin s _ _, .inf t => (.fin (s != t) 0 0, 0)
  | .fin s m e, .fin t n f =>
    if n = 0 then (if m = 0 then (.nan, fNV) else (.inf (s != t), fDZ))
    else
      let num := m <<< 66
      (.fin (s != t) (2 * (num / n) + (if num % n = 0 then 0 else 1)) (e - f - 67), 0)
/-- Integer square root, bit by bit from bit i. -/
def isqrt : Nat → Nat → Nat → Nat
  | 0, n, r => if (r + 1) * (r + 1) ≤ n then r + 1 else r
  | i + 1, n, r => if (r + 2 ^ (i + 1)) * (r + 2 ^ (i + 1)) ≤ n then isqrt i n (r + 2 ^ (i + 1)) else isqrt i n r
/-- Square root with a sticky bit (R309). -/
def fsqrt (a : FVal) : FVal × FlagBits :=
  match a with
  | .nan => (.nan, 0)
  | .inf s => if s then (.nan, fNV) else (.inf false, 0)
  | .fin s m e =>
    if m = 0 then (.fin s 0 0, 0)
    else if s then (.nan, fNV)
    else
      let (m', e') := if e % 2 = 0 then (m, e) else (2 * m, e - 1)
      let num := m' <<< 80
      let k := isqrt 80 num 0
      (.fin false (2 * k + (if k * k = num then 0 else 1)) (e' / 2 - 41), 0)

/-- a < b on values that are not NaN; minus zero below plus zero when ordered (R301), equal otherwise (R303). -/
def fltOrd (zeros : Bool) (a b : FVal) : Bool :=
  match a, b with
  | .nan, _ => false
  | _, .nan => false
  | .inf s, .inf t => s && !t
  | .inf s, _ => s
  | _, .inf t => !t
  | .fin s m e, .fin t n f =>
    if m = 0 && n = 0 then zeros && s && !t
    else
      let q := min e f
      decide (sInt s m e q < sInt t n f q)
def feq (a b : FVal) : Bool :=
  match a, b with
  | .nan, _ => false
  | _, .nan => false
  | x, y => !fltOrd false x y && !fltOrd false y x
/-- Lesser and greater of R301: a NaN is ignored in favour of the other operand. -/
def fmin (a b : FVal) : FVal :=
  match a, b with
  | .nan, y => y
  | x, .nan => x
  | x, y => if fltOrd true y x then y else x
def fmax (a b : FVal) : FVal :=
  match a, b with
  | .nan, y => y
  | x, .nan => x
  | x, y => if fltOrd true x y then y else x

/-! ## Conversions (R268, R269). -/

/-- The exact value of an integer of a type. -/
def ival (t : Ty) (v : Nat) : Int := if Ty.signed t then sval (Ty.bits t) v else ((v % 2 ^ Ty.bits t : Nat) : Int)
def ofInt (z : Int) : FVal := .fin (z < 0) z.natAbs 0
/-- Range of an integer type. -/
def tmin (t : Ty) : Int := if Ty.signed t then -((2 ^ (Ty.bits t - 1) : Nat) : Int) else 0
def tmax (t : Ty) : Int := if Ty.signed t then (2 ^ (Ty.bits t - 1) : Nat) - 1 else (2 ^ Ty.bits t : Nat) - 1
/-- Clamp to the range of an integer type (sat of Table 10-6). -/
def satT (t : Ty) (z : Int) : Int := if z < tmin t then tmin t else if tmax t < z then tmax t else z
/-- Integer result: wrapped, or saturated with SQ (R264). -/
def intRes (t : Ty) (sat : Bool) (z : Int) : Nat × FlagBits :=
  if sat then
    let y := satT t z
    (wrapN (Ty.bits t) y, flagIf (y ≠ z) fSQ)
  else (wrapN (Ty.bits t) z, 0)

/-- Rounding to a destination format from f32, f16 or bf16, with FMT.F8SAT deciding the 8-bit formats (R268). -/
def convF (td : Ty) (rnd : Rnd) (f8sat : Bool) (x : FVal) (r : Nat) : Nat × FlagBits :=
  let sp := specOf td
  match x with
  | .nan => (sp.dnan, 0)
  | .inf n =>
    if td = .e4m3 then (if f8sat then fsign sp n + FSpec.maxEnc sp else sp.dnan, fNV)
    else (finf sp n, 0)
  | .fin n 0 _ => (fsign sp n, 0)
  | .fin n m e =>
    let o := roundFin sp rnd n m e r
    if o.ovf && (td = .e4m3 || td = .e5m2) then
      if td = .e5m2 then (if f8sat then fsign sp n + FSpec.maxEnc sp else o.enc, o.flags)
      else if f8sat then (fsign sp n + FSpec.maxEnc sp, o.flags)
      else (if o.enc = finf sp n then sp.dnan else o.enc, o.flags)
    else (o.enc, o.flags)
/-- Floating point to integer (R269). -/
def convI (t : Ty) (rnd : Rnd) (x : FVal) : Nat × FlagBits :=
  match x with
  | .nan => (0, fNV)
  | .inf n => (wrapN (Ty.bits t) (if n then tmin t else tmax t), fNV)
  | .fin n m e =>
    let (k, inex) := roundMag rnd n m e 0 0
    let z : Int := if n then -(k : Int) else k
    let y := satT t z
    if y ≠ z then (wrapN (Ty.bits t) y, fNV) else (wrapN (Ty.bits t) z, flagIf inex fNX)

/-! ## The q4 family (R275 to R278). -/

/-- Twice the magnitude of code value m in a block type (Table 13-4). -/
def q4Mag2 (ty m : Nat) : Nat :=
  match ty with
  | 0 => 2 * m
  | 1 => [0, 1, 2, 3, 4, 6, 8, 12].getD m 0
  | 2 => [0, 2, 4, 8, 16, 32, 64, 128].getD m 0
  | _ => [0, 2, 4, 6, 8, 12, 16, 24].getD m 0
/-- Sign and magnitude index of a code. -/
def q4Split (ty code : Nat) : Bool × Nat :=
  if ty = 0 then (code ≥ 8, if code ≥ 8 then 16 - code else code) else (code ≥ 8, code % 8)
/-- q4val (R277). -/
def q4val (code sbyte : Nat) (xv : Nat) : FVal :=
  if sbyte = 0xFF then .nan
  else if code = 8 then fdec spBf16 xv
  else
    let (neg, m) := q4Split (sbyte / 64) code
    let v := q4Mag2 (sbyte / 64) m
    .fin (neg && v ≠ 0) v ((sbyte % 64 : Nat) - 33)
/-- Code of sign and index. -/
def q4Code (ty : Nat) (neg : Bool) (m : Nat) : Nat :=
  if m = 0 then 0 else if !neg then m else if ty = 0 then 16 - m else 8 + m
/-- Rounding up from index lo of a block's magnitudes: rem of a gap, both over one denominator. -/
def q4Up (rnd : Rnd) (n : Bool) (lo rem gap r : Nat) : Bool := match rnd with
  | .rn => decide (2 * rem > gap) || (decide (2 * rem = gap) && lo % 2 = 1)
  | .rz => false
  | .ru => !n
  | .rd => n
  | .rs => decide (r * gap < rem * 2 ^ 24)
/-- The magnitude after the largest, in halves, were the range unbounded. -/
def q4Next2 (ty : Nat) : Nat := [16, 16, 256, 32].getD ty 0
/-- Encoding of a real under a block type and scale exponent (R278): candidate indices around |y|, then the mode. A finite value that rounds beyond
the largest magnitude sets OF besides SQ and NX (R270; DEDUCED, log 74). -/
def q4Enc (ty : Nat) (sexp : Int) (rnd : Rnd) (x : FVal) (r : Nat) : Nat × FlagBits :=
  match x with
  | .nan => (0, 0)
  | .inf n => (q4Code ty n 7, fSQ ||| fNX)
  | .fin n m e =>
    if m = 0 then (0, 0)
    else
      -- |y| in halves of the scale: m * 2^e / 2^(sexp - 1), kept as num / den
      let d := e - (sexp - 1)
      let num := if 0 ≤ d then m <<< d.toNat else m
      let den := if 0 ≤ d then 1 else 1 <<< (-d).toNat
      let top := q4Mag2 ty 7
      if num > top * den then
        let past := q4Next2 ty * den ≤ num || q4Up rnd n 7 (num - top * den) ((q4Next2 ty - top) * den) r
        (q4Code ty n 7, fSQ ||| fNX ||| if past then fOF else 0)
      else
        let lo := ((List.range 8).filter (fun i => q4Mag2 ty i * den ≤ num)).length - 1
        let a := q4Mag2 ty lo
        if a * den = num then (q4Code ty n lo, 0)
        else
          let up := q4Up rnd n lo (num - a * den) ((q4Mag2 ty (lo + 1) - a) * den) r
          (q4Code ty n (if up then lo + 1 else lo), fNX)

/-! ## FMT fields (Table 13-3). -/

def fmtRscnt (fmt : W64) : Nat := fld fmt 63 40
def fmtF8sat (fmt : W64) : Bool := bit fmt 4
def fmtXA (fmt : W64) : Nat := fld fmt 1 0
def fmtXB (fmt : W64) : Nat := fld fmt 3 2
/-- A write of FMT that would set a reserved bit (R272). -/
def fmtBad (v : W64) : Bool := fld v 39 38 ≠ 0 || fld v 7 5 ≠ 0
/-- FMT after an instruction with RND = 4 (R267). -/
def bumpRscnt (fmt : W64) : W64 := setFld fmt 63 40 ((fmtRscnt fmt + 1) % 2 ^ 24)

end Sys2Proof.Machine
end

