-- ==== Sys2Proof/WellFormed.lean ====
section
/-! DEFINITION. WellFormed.lean: which instructions the encoding admits: an operation passes the field checks of R232, an
event carries whatever arrives with it. The checks themselves stand in Machine/Operands.lean. -/

namespace Sys2Proof

/-- The instruction passes the decode checks of its form. -/
def Instr.WellFormed (i : Instr) : Prop := Machine.formOk i = true

end Sys2Proof
end

