-- ==== Sys2Proof/Decode.lean ====
section
/-! DEFINITION. Decode.lean: instruction words and clause headers (R226, R231, R235 to R242), the decoder, total on any
word or byte list, and the encoder. A word whose opcode is unassigned, or a field of which is refused by its form
(Machine/Operands.lean), decodes to none: it raises ILLOP when it issues (R232, R259). -/

namespace Sys2Proof

open Machine

/-! Fields of the seven formats. -/

/-- The common fields (Table 11-2). -/
def parseC (w : W64) : Common := ⟨w.extractLsb' 17 1 = 1, w.extractLsb' 14 3, w.extractLsb' 10 4⟩
/-- A flag bit. -/
def bool1 (b : Bool) : BitVec 1 := if b then 1 else 0
/-- Bits [17:0] of a word: guard, lookahead, opcode. -/
def packC (c : Common) (op : Nat) : BitVec 18 := bool1 c.gneg ++ (c.guard ++ (c.la ++ BitVec.ofNat 10 op))

/-- Format T (R236). -/
def parseT (w : W64) : Option FmtT :=
  match Ty.ofCode (w.extractLsb' 24 5).toNat, Rnd.ofCode (w.extractLsb' 21 3).toNat with
  | some ty, some rnd =>
    some { c := parseC w, oc := w.extractLsb' 56 8, ob := w.extractLsb' 48 8, oa := w.extractLsb' 40 8,
           dst := w.extractLsb' 32 8, ua := w.extractLsb' 31 1 = 1, ub := w.extractLsb' 30 1 = 1,
           uc := w.extractLsb' 29 1 = 1, ty, rnd, sat := w.extractLsb' 20 1 = 1, sub := w.extractLsb' 18 2 }
  | _, _ => none
def packT (f : FmtT) (op : Nat) : W64 :=
  f.oc ++ (f.ob ++ (f.oa ++ (f.dst ++ (bool1 f.ua ++ (bool1 f.ub ++ (bool1 f.uc ++ (BitVec.ofNat 5 (Ty.code f.ty) ++
    (BitVec.ofNat 3 (Rnd.code f.rnd) ++ (bool1 f.sat ++ (f.sub ++ packC f.c op))))))))))

/-- Format I (R237). -/
def parseI (w : W64) : Option FmtI :=
  (Ty.ofCode (w.extractLsb' 19 5).toNat).map fun ty =>
    { c := parseC w, imm := w.extractLsb' 32 32, dst := w.extractLsb' 24 8, ty, hi := w.extractLsb' 18 1 = 1 }
def packI (f : FmtI) (op : Nat) : W64 :=
  f.imm ++ (f.dst ++ (BitVec.ofNat 5 (Ty.code f.ty) ++ (bool1 f.hi ++ packC f.c op)))

/-- Format M (R238). -/
def parseM (w : W64) : Option FmtM :=
  match Ty.ofCode (w.extractLsb' 19 5).toNat, Scope.ofCode (w.extractLsb' 27 3).toNat with
  | some ty, some scope =>
    some { c := parseC w, data := w.extractLsb' 56 8, base := w.extractLsb' 48 8, off := w.extractLsb' 32 16,
           ord := Ord.ofCode (w.extractLsb' 30 2).toNat, scope, space := Space.ofCode (w.extractLsb' 24 3).toNat,
           ty, ubase := w.extractLsb' 18 1 = 1 }
  | _, _ => none
def packM (f : FmtM) (op : Nat) : W64 :=
  f.data ++ (f.base ++ (f.off ++ (BitVec.ofNat 2 (Ord.code f.ord) ++ (BitVec.ofNat 3 (Scope.code f.scope) ++
    (BitVec.ofNat 3 (Space.code f.space) ++ (BitVec.ofNat 5 (Ty.code f.ty) ++ (bool1 f.ubase ++ packC f.c op)))))))

/-- Format B (R239). -/
def parseB (w : W64) : Option FmtB :=
  some { c := parseC w, tgt1 := w.extractLsb' 44 20, tgt2 := w.extractLsb' 24 20, cpred := w.extractLsb' 21 3,
         cneg := w.extractLsb' 20 1 = 1, sub := w.extractLsb' 18 2 }
def packB (f : FmtB) (op : Nat) : W64 :=
  f.tgt1 ++ (f.tgt2 ++ (f.cpred ++ (bool1 f.cneg ++ (f.sub ++ packC f.c op))))

/-- Format A (R240). -/
def parseA (w : W64) : Option FmtA :=
  some { c := parseC w, oa := w.extractLsb' 56 8, ob := w.extractLsb' 48 8, oc := w.extractLsb' 40 8,
         kh := w.extractLsb' 36 4, ckind := CKind.ofCode (w.extractLsb' 34 2).toNat, carg := w.extractLsb' 28 6,
         sub := w.extractLsb' 18 10 }
def packA (f : FmtA) (op : Nat) : W64 :=
  f.oa ++ (f.ob ++ (f.oc ++ (f.kh ++ (BitVec.ofNat 2 (CKind.code f.ckind) ++ (f.carg ++ (f.sub ++ packC f.c op))))))

/-- Format X (R241); bits [31:18] are reserved. -/
def parseX (w : W64) : Option FmtX :=
  if w.extractLsb' 18 14 = 0 then
    some { c := parseC w, imm := w.extractLsb' 48 16, dst := w.extractLsb' 40 8, oa := w.extractLsb' 32 8 }
  else none
def packX (f : FmtX) (op : Nat) : W64 := f.imm ++ (f.dst ++ (f.oa ++ (0#14 ++ packC f.c op)))

/-- Format C (R242). -/
def parseCx (w : W64) : Option FmtC :=
  (Ty.ofCode (w.extractLsb' 28 5).toNat).map fun ty =>
    { c := parseC w, abase := w.extractLsb' 56 8, bbase := w.extractLsb' 48 8, aslot := w.extractLsb' 42 6,
      bslot := w.extractLsb' 36 6, tile := w.extractLsb' 33 3, ty, batch := w.extractLsb' 24 4,
      nk := w.extractLsb' 20 4, sub := w.extractLsb' 18 2 }
def packCx (f : FmtC) (op : Nat) : W64 :=
  f.abase ++ (f.bbase ++ (f.aslot ++ (f.bslot ++ (f.tile ++ (BitVec.ofNat 5 (Ty.code f.ty) ++ (f.batch ++ (f.nk ++
    (f.sub ++ packC f.c op))))))))

/-! The opcode map. -/

/-- What a word of each published opcode says; the rows that share an opcode are told apart by their field. -/
def opTable : List (Nat × (W64 → Option Instr)) :=
  [(0x000, fun w => (parseT w).map .sadd),
   (0x001, fun w => (parseT w).map .ssub),
   (0x002, fun w => (parseT w).map .smul),
   (0x003, fun w => (parseT w).map .smulh),
   (0x004, fun w => (parseT w).map .sdiv),
   (0x005, fun w => (parseT w).map .srem),
   (0x006, fun w => (parseT w).map .sand),
   (0x007, fun w => (parseT w).map .sor),
   (0x008, fun w => (parseT w).map .sxor),
   (0x009, fun w => (parseT w).map .sshl),
   (0x00A, fun w => (parseT w).map .sshr),
   (0x00B, fun w => (parseT w).map .ssar),
   (0x00C, fun w => (parseT w).map .smin),
   (0x00D, fun w => (parseT w).map .smax),
   (0x00E, fun w => (parseT w).map .scmp),
   (0x00F, fun w => (parseT w).map .ssel),
   (0x010, fun w => (parseT w).map .sclz),
   (0x011, fun w => (parseT w).map .spop),
   (0x012, fun w => (parseT w).map .smov),
   (0x018, fun w => (parseI w).map .smovi),
   (0x019, fun w => (parseI w).map .saddi),
   (0x01A, fun w => (parseI w).map .sandi),
   (0x01B, fun w => (parseI w).map .sori),
   (0x01C, fun w => (parseI w).map .sxori),
   (0x01D, fun w => (parseI w).map .scmpi),
   (0x020, fun w => (parseX w).map .srd),
   (0x021, fun w => (parseX w).map .mfsr),
   (0x022, fun w => (parseX w).map .mtsr),
   (0x023, fun w => (parseX w).map .sfmt),
   (0x030, fun w => (parseB w).map .bra)] ++
  [(0x031, fun w => (parseB w).map .brar),
   (0x032, fun w => (parseB w).map .call),
   (0x033, fun w => (parseB w).map .callr),
   (0x034, fun w => (parseB w).map .ret),
   (0x035, fun w => (parseB w).map .bifOpen),
   (0x036, fun w => (parseB w).map .belse),
   (0x037, fun w => (parseB w).map .bend),
   (0x038, fun w => (parseB w).map .lpset),
   (0x040, fun w => (parseX w).map .lpcnt),
   (0x041, fun w => (parseX w).map .yield),
   (0x042, fun w => (parseX w).map .exit),
   (0x043, fun w => (parseX w).map .nop),
   (0x048, fun w => (parseT w).map .spawn),
   (0x049, fun w => (parseT w).map .join),
   (0x080, fun w => (parseT w).map .vadd),
   (0x081, fun w => (parseT w).map .vsub),
   (0x082, fun w => (parseT w).map .vmul),
   (0x083, fun w => (parseT w).map .vfma),
   (0x084, fun w => (parseT w).map .vmulh),
   (0x085, fun w => (parseT w).map .vmin),
   (0x086, fun w => (parseT w).map .vmax),
   (0x087, fun w => (parseT w).map .vabs),
   (0x088, fun w => (parseT w).map .vneg),
   (0x089, fun w => (parseT w).map .vaddmin),
   (0x08A, fun w => (parseT w).map .vaddmax),
   (0x08B, fun w => (parseT w).map .vclamp),
   (0x090, fun w => (parseT w).map .vand),
   (0x091, fun w => (parseT w).map .vor),
   (0x092, fun w => (parseT w).map .vxor),
   (0x093, fun w => (parseT w).map .vnot)] ++
  [(0x094, fun w => (parseT w).map .vshl),
   (0x095, fun w => (parseT w).map .vshr),
   (0x096, fun w => (parseT w).map .vsar),
   (0x097, fun w => (parseT w).map .vclz),
   (0x098, fun w => (parseT w).map .vpopc),
   (0x0A0, fun w => (parseT w).map .vmov),
   (0x0A1, fun w => (parseT w).map .vsel),
   (0x0A2, fun w => (parseT w).map .vcmp),
   (0x0A8, fun w => (parseI w).map .vmovi),
   (0x0B0, fun w => (parseT w).map .pand),
   (0x0B1, fun w => (parseT w).map .por),
   (0x0B2, fun w => (parseT w).map .pxor),
   (0x0B3, fun w => (parseT w).map .pnot),
   (0x0B4, fun w => (parseT w).map .vp2v),
   (0x0B5, fun w => (parseT w).map .vv2p),
   (0x0C0, fun w => (parseT w).map .vcvt),
   (0x0C1, fun w => (parseT w).map .vf8pk),
   (0x0C2, fun w => (parseT w).map .vf8upk),
   (0x0C3, fun w => (parseT w).map .vqpack),
   (0x0C4, fun w => (parseT w).map .vqunpk),
   (0x0D0, fun w => (parseT w).map .vdiv),
   (0x0D1, fun w => (parseT w).map .vrcp),
   (0x0D2, fun w => (parseT w).map .vrsq),
   (0x0D3, fun w => (parseT w).map .vsqrt),
   (0x0D4, fun w => (parseT w).map .vexp2),
   (0x0D5, fun w => (parseT w).map .vlog2),
   (0x0D6, fun w => (parseT w).map .vsin),
   (0x0D7, fun w => (parseT w).map .vcos),
   (0x0D8, fun w => (parseT w).map .vtanh),
   (0x0E0, fun w => (parseT w).map .qxch)] ++
  [(0x0E1, fun w => (parseT w).map .qbrd),
   (0x0E2, fun w => (parseT w).map .vshup),
   (0x0E3, fun w => (parseT w).map .vshdn),
   (0x0E4, fun w => (parseT w).map .vshfl),
   (0x0E5, fun w => (parseT w).map .vbcast),
   (0x0E6, fun w => (parseT w).map .vscan),
   (0x0E7, fun w => (parseT w).map .vred),
   (0x0E8, fun w => (parseT w).map .vvote),
   (0x0F0, fun w => (parseT w).map .prand),
   (0x180, fun w => (parseM w).map .ld),
   (0x181, fun w => (parseM w).map .st),
   (0x182, fun w => (parseM w).map .atomAdd),
   (0x183, fun w => (parseM w).map .atomMin),
   (0x184, fun w => (parseM w).map .atomMax),
   (0x185, fun w => (parseM w).map .atomAnd),
   (0x186, fun w => (parseM w).map .atomOr),
   (0x187, fun w => (parseM w).map .atomXor),
   (0x188, fun w => (parseM w).map .atomExch),
   (0x189, fun w => (parseM w).map .cas),
   (0x1C0, fun w => (parseM w).map .fld),
   (0x1C1, fun w => (parseM w).map .fst),
   (0x1C2, fun w => (parseM w).map .fatomAdd),
   (0x1C3, fun w => (parseM w).map .fatomMin),
   (0x1C4, fun w => (parseM w).map .fatomMax),
   (0x1C5, fun w => (parseM w).map .fatomAnd),
   (0x1C6, fun w => (parseM w).map .fatomOr),
   (0x1C7, fun w => (parseM w).map .fatomXor),
   (0x1C8, fun w => (parseM w).map .fatomExch),
   (0x1C9, fun w => (parseM w).map .fcas),
   (0x1E0, fun w => (parseA w).map .claim)] ++
  [(0x1E1, fun w => (parseA w).map .reclaim),
   (0x1E2, fun w => (parseA w).map .flow),
   (0x1E3, fun w => (parseA w).map .unclaim),
   (0x1E4, fun w => (parseA w).map .kstat),
   (0x1E5, fun w => (parseA w).map .copy),
   (0x1E6, fun w => (parseA w).map .halo),
   (0x1E7, fun w => (parseA w).map .hflow),
   (0x1E8, fun w => (parseA w).map .gather),
   (0x1E9, fun w => (parseA w).map .coll),
   (0x220, fun w => (parseX w).map .fence),
   (0x221, fun w => (parseX w).map fun f => if wpMode f.imm.toNat = 0 then .wayreg f else .wayregNeed f),
   (0x222, fun w => (parseX w).map fun f => if wpDir f.imm.toNat = 0 then .wayarr f else .wayarrNeighbour f),
   (0x223, fun w => (parseX w).map .waywait),
   (0x224, fun w => (parseX w).map .waytest),
   (0x225, fun w => (parseX w).map fun f => if wpMode f.imm.toNat = 0 then .waydrop f else .waydropReset f),
   (0x226, fun w => (parseX w).map .ycfg),
   (0x227, fun w => (parseX w).map .qpush),
   (0x228, fun w => (parseX w).map .qpop),
   (0x229, fun w => (parseX w).map .qlen),
   (0x22A, fun w => (parseX w).map .waitc),
   (0x22B, fun w => (parseX w).map .twait),
   (0x22C, fun w => (parseX w).map .tfind),
   (0x22D, fun w => (parseX w).map .tclr),
   (0x240, fun w => (parseCx w).map .mma),
   (0x241, fun w => (parseCx w).map .mmat),
   (0x242, fun w => (parseCx w).map .mzero),
   (0x243, fun w => (parseCx w).map .mload),
   (0x244, fun w => (parseCx w).map .mdrain),
   (0x245, fun w => (parseCx w).map .maddt),
   (0x246, fun w => (parseCx w).map .mfence)] ++
  [(0x247, fun w => (parseCx w).map .mwait),
   (0x260, fun w => (parseA w).map .pinit),
   (0x261, fun w => (parseA w).map .pjoin),
   (0x262, fun w => (parseA w).map .pleave),
   (0x263, fun w => (parseA w).map .resample),
   (0x264, fun w => (parseA w).map .pstat),
   (0x265, fun w => (parseA w).map .plin),
   (0x270, fun w => (parseA w).map .nwin),
   (0x271, fun w => (parseA w).map .notice),
   (0x272, fun w => (parseA w).map .object),
   (0x273, fun w => (parseA w).map .nawait),
   (0x274, fun w => (parseA w).map .nread),
   (0x275, fun w => (parseA w).map .nfilter),
   (0x276, fun w => (parseA w).map fun f => if f.sub.toNat % 2 = 0 then .nstat f else .nstatCnt f),
   (0x280, fun w => (parseA w).map .xwrite),
   (0x281, fun w => (parseA w).map .xread),
   (0x282, fun w => (parseA w).map .xsend),
   (0x283, fun w => (parseA w).map .xatom),
   (0x284, fun w => (parseA w).map .xflush),
   (0x285, fun w => (parseA w).map .xpoll),
   (0x2A0, fun w => (parseX w).map fun f => if f.imm.toNat < 0x8000 then .trap f else .trapVec f),
   (0x2A1, fun w => (parseX w).map .tret),
   (0x2A2, fun w => (parseX w).map .brk),
   (0x2A3, fun w => (parseX w).map .halt),
   (0x2A4, fun w => (parseX w).map .rdtime),
   (0x2A5, fun w => (parseX w).map .chkpt),
   (0x2A6, fun w => (parseX w).map .watch),
   (0x2A7, fun w => (parseX w).map .unwatch)]

/-- Decode a word whose opcode field has been mapped to a published opcode (R232, R246). -/
def decodeAs (op : Nat) (w : W64) : Option Instr :=
  match lkp opTable op with
  | none => none
  | some p =>
    match p w with
    | none => none
    | some i => if formOk i then some i else none
/-- Decode a word under the default decode table (R260). -/
def decode (w : W64) : Option Instr := decodeAs (w.extractLsb' 0 10).toNat w

/-- Decode the first instruction of a byte list, little-endian, and the bytes after it. -/
def decodeBytes (bs : List Byte) : Option (Instr × List Byte) :=
  if bs.length < 8 then none
  else (decode (BitVec.ofNat 64 (leVal (bs.take 8)))).map fun i => (i, bs.drop 8)

/-- The instruction of a row's bits, as the opcode table numbers them (R231: one 64-bit word). -/
def decodeTableWord (nbits w : Nat) : Option Instr :=
  (decodeBytes (leBytes 8 (w % 2 ^ nbits))).map Prod.fst

/-! The encoder. -/

/-- The word of an operation in its format. -/
def packFmt (op : Nat) : Fmt → W64
  | .t f => packT f op | .i f => packI f op | .m f => packM f op | .b f => packB f op
  | .a f => packA f op | .x f => packX f op | .c f => packCx f op
/-- The word of an operation under the published map; an event has none. -/
def encode (i : Instr) : Option W64 :=
  match opcode i, fmtOf i with
  | some op, some f => some (packFmt op f)
  | _, _ => none

/-! Clause headers (R226). -/

/-- A clause header (Table 11-1). -/
structure Hdr where
  yld   : Bool
  drain : Bool
  thr   : BitVec 4
  cwait : BitVec 4
  cls   : BitVec 4
  count : BitVec 4
  deriving DecidableEq, Repr
def parseHdr (w : W64) : Option Hdr :=
  if w.extractLsb' 18 46 = 0 then
    some { yld := w.extractLsb' 17 1 = 1, drain := w.extractLsb' 16 1 = 1, thr := w.extractLsb' 12 4,
           cwait := w.extractLsb' 8 4, cls := w.extractLsb' 4 4, count := w.extractLsb' 0 4 }
  else none
def packHdr (h : Hdr) : W64 := 0#46 ++ (bool1 h.yld ++ (bool1 h.drain ++ (h.thr ++ (h.cwait ++ (h.cls ++ h.count)))))

end Sys2Proof
end

