-- ==== Sys2Proof/Machine/State.lean ====
section
/-! DEFINITION. State of the Celnan: every piece of state the manual names, as plain data. Sparse maps list only entries
that differ from zero, keys strictly rising; a byte, lane, register or tile element that is not listed reads zero (E6 of
Table 1-7 clears memory; R153 clears a warp's registers at dispatch). -/

namespace Sys2Proof.Machine

/-- A sparse map from numbers to words: strictly rising keys, no zero entry, an unlisted key reads zero. -/
abbrev Map (w : Nat) := List (Nat × BitVec w)
/-- Byte memory: cells by address. -/
abbrev Memory := List Host.Cell

/-! ## One agent: a vector warp or a control-core stream (08 R169, R187). -/

/-- A clause fetched whole (R227). -/
structure Clause where
  hdr   : Hdr
  words : List W64
  deriving DecidableEq, Repr

/-- A reconvergence record (Table 8-4). -/
structure Rec where
  fmt   : W32
  els   : Bool
  raddr : BitVec 57
  deriving DecidableEq, Repr

/-- The result of a long-latency operation waiting to be written (R243, R244): lane writes keyed register * 32 + lane,
scalar writes, flags to OR into FMT, and the lowest lane that met a poisoned line, with its address (R326). -/
structure PendRes where
  v      : List (Nat × W32)
  s      : List (Nat × W64)
  flags  : BitVec 6
  poison : Option (Nat × W64)
  deriving DecidableEq, Repr

/-- A pending operation: its destinations, the window instructions not yet issued, the replies still out, and the result
gathered so far; the result has come when no reply is out. mem marks loads and atomics (R340). -/
structure Pend where
  id   : Nat
  mem  : Bool
  dst  : List RC
  win  : Nat
  left : Nat
  res  : PendRes
  deriving DecidableEq, Repr

/-- A watch slot (Table 21-4). -/
structure WatchSlot where
  space : Nat
  slog  : Nat
  kind  : Nat
  base  : W64
  deriving DecidableEq, Repr

/-- A named completion of an asynchronous operation (R205). -/
inductive Compl where
  | none
  | tag (n : Nat)
  | wp (n : Nat)
  | status (s : Nat)
  deriving DecidableEq, Repr

/-- An operation counted in an OUTC class that has not retired (R203). -/
structure OutOp where
  id   : Nat
  cls  : Nat
  done : Bool
  deriving DecidableEq, Repr

/-- A stage of a matrix operation, as it stands in a batch (R423, R427 to R429). -/
structure MOp where
  op    : Nat
  f     : FmtC
  step  : Nat
  deriving DecidableEq, Repr

/-- An instance of a batch (R423). -/
structure Batch where
  closed  : Bool
  ops     : List MOp
  feeders : List AgentId
  opIds   : List (AgentId × Nat)
  deriving DecidableEq, Repr

/-- The matrix side of a stream (25): tiles keyed tile * 16384 + row * 128 + column, batches, the closed instances in
closing order, and whether the first of them is running. -/
structure Mx where
  tiles   : Map 32
  batches : List (Nat × Batch)
  queue   : List Nat
  running : Bool
  deriving DecidableEq, Repr

/-- A milepost send of an agent's NOTICE or OBJECT (R457, R469, R470). -/
inductive SendSt where
  | none | queued | injected (tick : Nat) | unreachable | late
  deriving DecidableEq, Repr

/-- How a warp stands halted (R132). -/
inductive HaltForm where
  | no | boundary | safe
  deriving DecidableEq, Repr

/-- The architectural registers and positions of a warp or stream. -/
structure Agent where
  -- identity (Table 8-2)
  warpNo : Nat
  blockNo : Nat
  teamNo : Nat
  gteam  : Nat
  rank   : Nat
  nrank  : Nat
  die    : Nat
  x      : Nat
  y      : Nat
  cluster : Nat
  -- owner: function, partition, context, generation, launch, block instance, team instance, task record
  fn     : Nat
  part   : Nat
  ctx    : Nat
  gen    : BitVec 16
  launch : Nat
  blk    : Nat
  team   : Nat
  task   : Option Nat
  prio   : Nat
  alloc  : Nat
  -- registers
  v      : Map 32
  s      : Map 64
  p      : Map 32
  exm    : W32
  live   : W32
  nest   : Map 8
  lin    : Map 64
  fmt    : W64
  xv     : Map 32
  lc     : Map 32
  ls     : Map 64
  le     : Map 64
  tags   : W64
  outc   : W64
  k      : Map 64
  recs   : List Rec
  stack  : Memory
  tcause : W64
  tval   : W64
  tpcx   : W64
  tvec   : W64
  posHdr : W64
  posIdx : Option Nat
  posCnt : Nat
  written : Bool
  tprio  : Bool
  depthAt : Nat
  watch  : List (Nat × WatchSlot)
  suppress : Bool
  nwin   : BitVec 8
  -- position in the code
  pc     : W64
  clause : Option Clause
  idx    : Nat
  waited : Bool
  -- outstanding work
  pend   : List Pend
  outOps : List OutOp
  fabErr : Option W64
  poison : Option W64
  wayCur : Option W32
  -- an acquire holds later accesses until earlier loads and atomics have returned (R327, R340)
  acqHold : Bool
  chkptAt : Option Nat
  arrived : Bool
  joinAt : Option Nat
  mpSt   : SendSt
  -- the instruction a jump of BIF or BELSE must find first: 0 none, 1 BELSE, 2 BEND (R179)
  need   : Nat
  -- the same for the program a trap handler interrupts
  needT  : Nat
  -- the clause a trap handler stood at is fetched again after a pre-emption (R131)
  resumed : Bool
  -- registers with an entry in the register log since the latest cut (R135)
  logged : List Nat
  -- the model's own: tells apart the agents that use one slot after another
  born   : Nat
  -- arbitration (R165, R166) and halts (R132)
  waitSince : Nat
  yielded : Bool
  promo  : Bool
  tried  : Nat
  turn   : Nat
  haltForm : HaltForm
  haltReq : Option Nat
  -- ended, but kept while a batch names its registers (R421)
  ended  : Bool
  trapPend : Option (Nat × W64 × Nat)
  mx     : Mx
  deriving DecidableEq, Repr

/-! ## Blocks (08, 09 R194, 19 R360, R366). -/

/-- A waypoint (Table 19-2). -/
structure Wp where
  phase : W32
  sigs  : BitVec 17
  arr   : BitVec 17
  need  : Map 32
  got   : Map 32
  deriving DecidableEq, Repr

/-- A siding (R366, R367). -/
structure Siding where
  base  : Nat
  dlog  : Nat
  head  : Nat
  count : Nat
  waitPush : List AgentId
  waitPop  : List AgentId
  deriving DecidableEq, Repr

/-- A resident or halted block. -/
structure Block where
  core   : CoreId
  launch : Nat
  team   : Nat
  blockNo : Nat
  gteam  : Nat
  ctx    : Nat
  part   : Nat
  shmem  : Nat
  regs   : Nat
  warps  : Nat
  slots  : List Nat
  nbr    : BitVec 4
  mem    : Memory
  poison : List Nat
  wps    : List (Nat × Wp)
  sids   : List (Nat × Siding)
  filters : List (Nat × Nat × W64 × W64)
  halted : Bool
  -- the block of a spawned task, which has no place in the launch's map (R197)
  task   : Bool
  deriving DecidableEq, Repr

/-! ## Module (01). -/

/-- Power and bring-up phase (R21, R22, R19). -/
inductive Power where
  | off | ready | presented | shutdown
  deriving DecidableEq, Repr

structure Mod where
  power  : Power
  poddev : Nat
  fwver  : W32
  fault  : W32
  scFailed : BitVec 24
  leader : Option Nat
  stackLost : BitVec 12
  halving : Bool
  flash  : List (Nat × Nat × List Byte)
  inForce : Nat
  sel    : Nat
  rollback : Nat
  ceCount : Nat
  deriving DecidableEq, Repr

/-! ## Fabric (02). -/

/-- What a group of an atomic instruction carries and does (R201): an operation of Table 16-2 (0 add, 1 min, 2 max, 3 and,
4 or, 5 xor, 6 exch) with its lanes' operands, or compare-and-swap pairs. -/
inductive AtomReq where
  | rmw (op : Nat) (t : Ty) (xs : List Nat)
  | cas (t : Ty) (ps : List (Nat × Nat))
  deriving DecidableEq, Repr

/-- Why the device sent a packet: where its reply goes. -/
inductive Owner where
  | none
  | store (a : AgentId)
  | load (a : AgentId) (pend sx : Nat) (lanes : List (Nat × Nat))
  | atomic (a : AgentId) (pend : Nat) (lanes : List Nat) (ordered : Bool) (req : AtomReq)
  | grant (n : Nat)
  | inval (n : Nat)
  | resv (c : ClaimId) (j : Nat)
  | io (n : Nat) (a : Option AgentId)
  | reset
  deriving DecidableEq, Repr

/-- A far packet of the device that has no reply yet (R36 to R39): first and last transmission, the far address of its
lowest lane and the 8-byte blocks it touches (R332); born is that of the agent it is for, and fn the function (R80). -/
structure Entry where
  ref    : EntryRef
  pkt    : Packet
  first  : Nat
  last   : Nat
  va     : W64
  vas    : List Nat
  ctx    : Nat
  owner  : Owner
  launch : Nat
  born   : Nat
  fn     : Nat
  deriving DecidableEq, Repr

/-- Source end of a stream toward (TGT, PART) (R36, R41). -/
structure SrcStream where
  tgt  : Nat
  part : Nat
  run  : Bool
  next : BitVec 24
  since : Nat
  /-- When the first stream reset since it last ran was sent. -/
  tried : Option Nat
  deriving DecidableEq, Repr

/-- Target end of a stream from (SRC, PART) (R37, R41, R323). -/
structure TgtStream where
  src  : Nat
  part : Nat
  run  : Bool
  base : BitVec 24
  done : List (BitVec 24)
  fetched : List (BitVec 24 × W64 × Bool × Nat)
  held : List Packet
  lastReset : Option (BitVec 24 × Nat)
  deriving DecidableEq, Repr

/-- A bulk reservation granted to a claim (R29 to R32). -/
structure Resv where
  claim : ClaimId
  j     : Nat
  tgt   : Nat
  out   : Bool
  data  : Nat
  ctl   : Nat
  granted : Bool
  deriving DecidableEq, Repr

/-- A reservation a junction has granted, with its maps from input slots to output slots, of data and of control; a path that ends at the
junction has one link, and each slot stands for itself (R30). -/
structure JResv where
  j    : Nat
  req  : ResvReq
  data : List (Nat × Nat)
  ctl  : List (Nat × Nat)
  deriving DecidableEq, Repr

/-- A milepost flit waiting to be sent, with the notice work it belongs to (R46, R457). -/
structure MpSend where
  flit  : Flit
  owner : Option AgentId
  deriving DecidableEq, Repr

structure Fab where
  podNs  : Nat
  cycles : Nat
  synced : Bool
  lastTb : Nat
  master : Option Nat
  /-- Nanoseconds by which the copy of pod time was ahead of the master when it last heard, less what has been made up (R47, R48). -/
  lead   : Nat
  masterHeard : Nat
  fabUp  : BitVec 18
  ethUp  : BitVec 8
  linkDownMap : List (Nat × List Nat)
  replays : List (PortId × Nat)
  rotate : List (Nat × Nat)
  wordDisc : Nat
  mpDisc : Nat
  srcs   : List SrcStream
  /-- When the streams of a partition entered reset form as a whole, where that was not at bring-up (R41). -/
  partReset : List (Nat × Nat)
  tgts   : List TgtStream
  entries : List Entry
  nextTag : BitVec 24
  /-- Read tags that a tenant reset has released, with their targets and functions: a response to one is stale (R475). -/
  deadTags : List (BitVec 24 × Nat × Nat)
  outbox : List (Nat × Packet)
  waitQ  : List Entry
  mpQueue : List MpSend
  mpOut  : List (Nat × Flit)
  losses : List (Nat × Nat × Nat)
  resvs  : List Resv
  resvQ  : List (ClaimId × Nat × Bool)
  /-- Bulk data sent: claim, leg, bytes, and the 64-byte pieces that carry poison. -/
  bulkOut : List (ClaimId × Nat × List Byte × List Nat)
  /-- Answers to legs of peers' flows, in the control slots: device, claim, leg, and the bytes asked for with their poisoned pieces (R29, R399). -/
  legOut : List (Nat × ClaimId × Nat × List Byte × List Nat)
  jRoute : List (Nat × Nat × List Nat)
  jPool  : List (Nat × Nat × Nat)
  jFill  : List (Nat × Nat × Nat)
  jSlots : List JResv
  jOut   : List (Nat × Packet)
  jMpOut : List (Nat × Flit)
  deriving DecidableEq, Repr

/-! ## Translation (03). -/

/-- A context (R56, Table 3-1): its function and partition, the roots of its translations, its home map and host page table, its access-counter
threshold, opcode map, tensor layouts (Table 9-6, 512 bits each) and partition groups. -/
structure Ctx where
  ctxid  : Nat
  fn     : Nat
  part   : Nat
  stage1 : Nat
  stage2 : Nat
  homemap : Nat
  hostpt : Nat
  pasid  : Nat
  thresh : Nat
  decode : Option (List W32)
  layouts : Map 512
  pgroups : List (Nat × List Byte)
  deriving DecidableEq, Repr

/-- A translation held in a cache (R63, R68): die is 0 to 3 for a die's, 4 for the I/O die's agent, and from 8 on a core's micro cache. ctx is the
context key PART * 65536 + CTXID here and below. -/
structure Xlat where
  ctx  : Nat
  va   : Nat
  size : Nat
  loc  : Loc
  pa   : Nat
  gpa  : Nat
  rd   : Bool
  w    : Bool
  x    : Bool
  d    : Bool
  grant : Bool
  die  : Nat
  deriving DecidableEq, Repr

/-- Who makes a far access, and waits for its translation: a packet of a queue, a join counter, an agent's instruction, a queue pair for a source
or for a response's destination, an incoming request, a graph node, a safe-point table for an agent, a claim, a command that pins a region, and
requests of other devices. -/
inductive IoWho where
  | queue (fn q : Nat) | join (n : Nat) | agent (a : AgentId) | qp (n : Nat) | back (n : Nat) | inop (n : Nat) | node (fn q n : Nat) | side (a : AgentId)
  | claim (id : ClaimId) | reg (fn : Nat) (cookie : W64) | peer
  deriving DecidableEq, Repr
/-- Who waits for a translation, and for what kind of access: requests for one page coalesce (R63). -/
abbrev Asks := List (IoWho × Acc)

/-- A translation asked for (R63): s2 is the stage-2 request it waits for. -/
structure Walk where
  n    : Nat
  ctx  : Nat
  va   : Nat
  acc  : Acc
  die  : Nat
  s2   : Option Nat
  asks : Asks
  deriving DecidableEq, Repr

/-- An intermediate entry in a die's walk cache (R63): of stage 1 or stage 2, its level, the address bits above those the next level indexes, and
the table page it names. -/
structure WalkEnt where
  die  : Nat
  ctx  : Nat
  two  : Bool
  lv   : Nat
  pre  : Nat
  fr   : Nat
  deriving DecidableEq, Repr

/-- A translation that failed, waiting for one of those that asked (R65, R66): the trap cause. -/
structure XFault where
  ctx  : Nat
  va   : Nat
  acc  : Acc
  code : Nat
  who  : IoWho
  deriving DecidableEq, Repr

/-- A stage-2 request (R64): kind is that of the access, 0 read, 1 write, 2 fetch. -/
structure S2Req where
  idx  : Nat
  fn   : Nat
  gen  : BitVec 16
  ctx  : Nat
  gpa  : Nat
  kind : Nat
  sent : Bool
  deriving DecidableEq, Repr

/-- A grant request pending at a home (R66, R72, R73): port is the one it last went by, bad are those that drew a route error. -/
structure GrantReq where
  n     : Nat
  ctx   : Nat
  va    : Nat
  acc   : Acc
  die   : Nat
  home  : Loc
  fwds  : Nat
  stale : Bool
  port  : Option Nat
  bad   : List Nat
  asks  : Asks
  deriving DecidableEq, Repr

/-- A grant directory entry of a home (R69): holders, or the whole partition. -/
structure GrantDir where
  ctx  : Nat
  va   : Nat
  size : Nat
  gpa  : Nat
  wide : Bool
  holders : List Nat
  deriving DecidableEq, Repr

/-- A range of pages taken back: by far address, or by guest-physical address. -/
structure Range where
  ctx  : Nat
  base : Nat
  size : Nat
  gpa  : Bool
  deriving DecidableEq, Repr
/-- Where a home has moved the pages of a range (R73, R74), by far or by guest-physical address. The newest entry of a page counts; one that names
this device says that it is here again. -/
structure Fwd where
  q   : Range
  loc : Loc
  pa  : Nat
  deriving DecidableEq, Repr
/-- What an invalidation at its home is for: nothing further, an INVAL_PAGE command with the place a page has moved to, a PCIe
Invalidate Request, a migration, a HOMEMAP_SET of a partition. -/
inductive InvalFor where
  | none
  | cmd (fn : Nat) (cookie : W64) (moved : Option (Loc × Nat))
  | ats (tag : Nat)
  | migr (n : Nat)
  | home (fn : Nat) (cookie : W64) (part : Nat) (entries : List (Nat × W32))
  deriving DecidableEq, Repr
/-- An invalidation in progress at this home (R70 to R72): wait lists the holders and pages not yet acknowledged; done says that it has ended and
still bars the range until the others of its command have (R59). -/
structure Inval where
  n    : Nat
  q    : Range
  why  : TakeBack
  wait : List (Nat × Nat × Nat)
  what : InvalFor
  since : Nat
  stuck : Bool
  done  : Bool
  deriving DecidableEq, Repr

/-- An invalidation received that is not yet acknowledged (R71). -/
structure InvalIn where
  n    : Nat
  pkt  : Packet
  q    : Range
  since : Nat
  deriving DecidableEq, Repr

/-- A PCIe ATS or PRI request outstanding (R75). -/
structure Ats where
  id   : Nat
  fn   : Nat
  gen  : BitVec 16
  part : Nat
  ctx  : Nat
  pasid : Nat
  va   : Nat
  acc  : Acc
  pri  : Bool
  asks : Asks
  deriving DecidableEq, Repr

/-- A migration in progress (R79). -/
structure Migr where
  n    : Nat
  fn   : Nat
  cookie : W64
  ctx  : Nat
  va   : Nat
  frame : Nat
  stage : Nat
  since : Nat
  deriving DecidableEq, Repr

structure Xl where
  ctxs  : List Ctx
  cache : List Xlat
  /-- Home-map leaf entries a die caches: die, directory, granule and entry (R59). -/
  leafs : List (Nat × Nat × Nat × Nat)
  wents : List WalkEnt
  walks : List Walk
  faults : List XFault
  s2    : List S2Req
  s2Next : Nat
  grants : List GrantReq
  grantIn : List Packet
  dir   : List GrantDir
  fwds  : List Fwd
  invals : List Inval
  invalIn : List InvalIn
  ats   : List Ats
  migs  : List Migr
  nextId : Nat
  deriving DecidableEq, Repr

/-! ## Memory (01 R13, R478; 09 R198). -/

structure Mem where
  hbm    : Memory
  yard   : Memory
  poison : List (Nat × Bool)
  deriving DecidableEq, Repr

/-! ## Host side (05). -/

/-- What a read of host memory is for (R347). -/
inductive HostAct where
  | load (a : AgentId) (pend sx lane : Nat) (va : W64)
  | atomic (a : AgentId) (pend : Nat) (lanes : List Nat) (ordered : Bool) (req : AtomReq)
  | reply (p : Packet)
  | io (n : Nat)
  | ioAtom (n : Nat) (req : AtomReq)
  | migr (n : Nat)
  deriving DecidableEq, Repr
/-- A read sent to host memory, with the key of its context and the 8-byte blocks of far space it touches. patch are the stores to its bytes
posted since an atomic's read left: they come before the atomic (R331). born and launch are those of the agent it is for. -/
structure HostRead where
  id     : Nat
  ctx    : Nat
  pasid  : Nat
  addr   : Nat
  len    : Nat
  act    : HostAct
  vas    : List Nat
  patch  : List (Nat × List Byte)
  born   : Nat
  launch : Nat
  deriving DecidableEq, Repr

/-- A used element written to a queue (Table 5-8): the result, the response payload, and the written length (R106). -/
structure UsedEl where
  fn     : Nat
  q      : Nat
  cookie : W64
  status : Nat
  done   : Nat
  detail : Nat
  data   : List Byte
  len    : Nat
  deriving DecidableEq, Repr

/-- An event record (Table 5-13). -/
structure EvRec where
  fn   : Nat
  kind : Nat
  seq  : Nat
  gen  : Nat
  ctx  : Nat
  time : Nat
  payload : BitVec 256
  deriving DecidableEq, Repr

/-- A packed virtqueue of a function (R105): its size, whether it is enabled, the addresses of its areas, and what the serving core keeps of it
(R116): the next descriptor to be read and the next used element, counted modulo twice the size, so that the upper half is the other wrap, and
the descriptor counts of the chains read and not yet used. -/
structure Vq where
  num    : Nat
  size   : Nat
  on     : Bool
  desc   : W64
  driver : W64
  device : W64
  avail  : Nat
  used   : Nat
  outs   : List Nat
  deriving DecidableEq, Repr

/-- A function (Table 5-2 and its queues). prev is the partition a VF last belonged to (R119, R125). bar0 and msix are of its PCI configuration
(R103): the address of BAR0, and whether MSI-X is enabled; isr are the causes noted while it is not. -/
structure Func where
  gen     : BitVec 16
  part    : BitVec 16
  prev    : BitVec 16
  nwq     : BitVec 16
  clusters : BitVec 16
  hbmu    : BitVec 16
  stale   : W32
  evlost  : W32
  fports  : BitVec 18
  status  : BitVec 8
  needsReset : Bool
  resetSeen : Bool
  features : W64
  cfgGen  : BitVec 8
  config  : Map 32
  reading : Bool
  seq     : BitVec 16
  buffers : Nat
  held    : List EvRec
  lost    : Nat
  vqs     : List Vq
  isr     : BitVec 8
  bar0    : W64
  msix    : Bool
  deriving DecidableEq, Repr

/-- A reset of a VF that has not ended (R119, R120): the command that asked for it, the devices still to answer its mark, the device
to answer, the generation it replaces and the new one, the contexts whose writes it waits for, and the time of its last mark. quiet is a
reset that ends no driver reset: a received mark, or the watchdog. part is the partition the tenant worked in, and ran says that its slice was on. -/
structure ResetOp where
  fn    : Nat
  cmd   : Option W64
  wait  : List Nat
  answer : Option Nat
  old   : BitVec 16
  ngen  : BitVec 16
  ctxs  : List Nat
  sentAt : Nat
  quiet : Bool
  part  : Nat
  ran   : Bool
  deriving DecidableEq, Repr

structure HostIf where
  funcs  : List (Nat × Func)
  used   : List UsedEl
  events : List EvRec
  heldS2 : List EvRec
  msi    : List (Nat × Nat)
  ctlQ   : List (Nat × CmdReq × ChainForm)
  busy   : List (Nat × W64)
  macs   : List (Nat × BitVec 48)
  gids   : List (Nat × Nat × BitVec 128)
  reads  : List HostRead
  writes : List (Nat × Nat × List Byte)
  /-- Lines of host memory that have been written poisoned: PASID and line (R399, R326). -/
  badPosts : List (Nat × Nat)
  /-- Chains the driver has made available on a queue while its function does not read its queues (R109, R477). -/
  unread : List (Nat × Nat × Chain)
  atsDone : List Nat
  resets : List ResetOp
  deriving DecidableEq, Repr

/-- A pin: one page of a far window (R389), by the window it was pinned for. -/
structure Pin where
  win  : Nat
  va   : Nat
  size : Nat
  loc  : Loc
  pa   : Nat
  gpa  : Nat
  deriving DecidableEq, Repr

/-! ## Network (04). -/

/-- A part of a local buffer on its way to or from the engine: its place, the far access it waits for, its bytes (R88, R94). -/
structure Piece where
  off : Nat
  io  : Option Nat
  bytes : List Byte
  bad : Bool
  deriving DecidableEq, Repr

/-- A work-queue entry (Table 4-3), with its poster, pins and the tick of its post. -/
structure NetWq where
  op    : Nat
  fence : Bool
  compl : Compl
  laddr : W64
  raddr : W64
  len   : Nat
  rkey  : W32
  opa   : W64
  opb   : W64
  wrid  : W64
  gen   : BitVec 16
  owner : AgentId
  blk   : Nat
  launch : Nat
  opId  : Nat
  pins  : List Pin
  tick  : Nat
  deriving DecidableEq, Repr

inductive QpState where
  | reset | init | rtr | rts | error
  deriving DecidableEq, Repr

/-- A completion queue: entries written so far (R84, R86), and how many of them a rollback leaves: up to the latest requester's (R135). -/
structure Cq where
  fn    : Nat
  ctx   : Nat
  cq    : Nat
  base  : W64
  depth : Nat
  tail  : Nat
  keep  : Nat
  deriving DecidableEq, Repr

/-- An incoming request (R93 to R95); other is one the device does not support (R81). -/
inductive RxReq where
  | write (rkey : W32) (addr : Nat) (data : List Byte)
  | read (rkey : W32) (addr len : Nat)
  | send (data : List Byte)
  | atomic (rkey : W32) (addr : Nat) (cas : Bool) (a b : W64)
  | flush (rkey : W32) (addr len : Nat)
  | other
  deriving DecidableEq, Repr

/-- A queue pair (R83, R84): posted entries, oldest first, of which the first sent have left; fetch are the parts of the next
entry's source, back the places of the oldest response, resps responses behind it; rnrWait says that the oldest waits after an RNR
NAK; rate and since belong to congestion control in 65,536ths (R81); rxq are incoming requests held back. -/
structure Qp where
  qpn    : Nat
  fn     : Nat
  ctx    : Nat
  port   : Nat
  mtu    : Nat
  sqDepth : Nat
  rqDepth : Nat
  rqBase : W64
  cq     : Nat
  ackTimeout : Nat
  retries : Nat
  rnr    : Nat
  st     : QpState
  sq     : List NetWq
  sent   : Nat
  sentAt : Nat
  fetch  : List Piece
  back   : List Piece
  resps  : List NetResp
  tries  : Nat
  rnrTries : Nat
  rnrWait : Option Nat
  rqHead : Nat
  rate   : Nat
  since  : Nat
  rxq    : List RxReq
  deriving DecidableEq, Repr

/-- A memory region (R94). -/
structure MemReg where
  fn   : Nat
  ctx  : Nat
  key  : W32
  base : Nat
  len  : Nat
  rd   : Bool
  w    : Bool
  atomic : Bool
  pins : List Pin
  revoked : Bool
  deriving DecidableEq, Repr

/-- A message on the wire: kinds 1 to 6 are requests (OP of Table 4-3), 0x11 an acknowledgement, 0x12 read data, 0x13 an atomic's
value, 0x14 a NAK of code len, 0x20 a CNP (R81). Data longer than the path MTU leaves in several packets: off is the offset of this one. -/
structure Wire where
  qpn  : Nat
  kind : Nat
  off  : Nat
  addr : W64
  rkey : W32
  len  : Nat
  data : List Byte
  opa  : W64
  opb  : W64
  deriving DecidableEq, Repr

/-- An incoming request whose pages lie off the device, waiting for its parts, with the pins it uses (R94): kind 1 WRITE, 2 READ, 3 SEND of
len bytes, 4 atomic. -/
structure InOp where
  n     : Nat
  qpn   : Nat
  kind  : Nat
  pieces : List Piece
  len   : Nat
  pins  : List Pin
  deriving DecidableEq, Repr

structure Net where
  qps  : List Qp
  mrs  : List MemReg
  cqs  : List Cq
  wire : List Wire
  inops : List InOp
  deriving DecidableEq, Repr

/-! ## Partitions and checkpoints (06). -/

structure Part where
  part   : Nat
  devs   : BitVec 144
  vfs    : W32
  hbmc   : List Nat
  cgrp   : BitVec 16
  fports : BitVec 18
  jmem   : BitVec 16
  ethw   : Nat
  hostw  : Nat
  hbmw   : Nat
  nwq    : Nat
  hold   : Bool
  nten   : Nat
  slice  : Nat
  ckpt   : Nat
  logu   : Nat
  order  : List Nat
  tok    : List (Nat × Nat)
  tokNamed : Bool
  deriving DecidableEq, Repr

/-- A token of a die's ring: where it is and whether an engine holds it (R433). -/
structure Token where
  part : Nat
  die  : Nat
  at_  : Nat
  held : Bool
  deriving DecidableEq, Repr

structure Parts where
  parts  : List Part
  units  : List (Nat × Nat)
  tokens : List Token
  tokEff : List (Nat × Nat × Nat)
  tokPend : List (Nat × Nat × Nat)
  tokWait : List (Nat × Nat × Nat)
  tokCmd : List (Nat × Nat × W64)
  holdCmd : List (Nat × W64)
  deriving DecidableEq, Repr

/-- An effect that leaves a time-shared tenant, held until a checkpoint commits (R137). -/
inductive Export where
  | pkt (e : Entry)
  | used (u : UsedEl)
  | event (r : EvRec)
  | flit (m : MpSend)
  | net (w : Wire)
  deriving DecidableEq, Repr

/-! ## Scheduler (07). -/

/-- One request read from a work queue: header and the packets' 8-byte words (R110, R111); bad is one whose chain is malformed (R106). -/
structure WqReq where
  hdr  : ReqHdr
  words : List W64
  bad  : Bool
  deriving DecidableEq, Repr

/-- A hardware work queue (R140, R141): its requests, which of them is the first unfinished one, the index and word offset of its
head packet, whether that packet is in progress, and its watchdog: period in microseconds, start and nanoseconds counted in earlier slices (R139). -/
structure Ring where
  fn     : Nat
  q      : Nat
  reqs   : List WqReq
  idx    : Nat
  pkt    : Nat
  off    : Nat
  busy   : Bool
  period : Nat
  since  : Nat
  count  : Nat
  deriving DecidableEq, Repr

/-- A launch in progress on this device (R144 to R152). -/
structure Launch where
  id     : Nat
  fn     : Nat
  q      : Nat
  node   : Option Nat
  ctx    : Nat
  part   : Nat
  gen    : BitVec 16
  code   : W64
  tcode  : W64
  frame  : W64
  map    : List W64
  joinp  : W64
  teams  : Nat
  bpt    : Nat
  wpb    : Nat
  regs   : Nat
  shmem  : Nat
  prio   : Nat
  gang   : Bool
  pgid   : Nat
  rank   : Nat
  nrank  : Nat
  nbrs   : List (Nat × List Nat)
  next   : Nat
  liveRecs : Nat
  failed : Option Nat
  halted : Bool
  deriving DecidableEq, Repr

/-- A continuation record (Table 7-7). -/
structure Cont where
  id     : Nat
  code   : W64
  frame  : W64
  join   : W64
  ctx    : Nat
  gen    : BitVec 16
  part   : Nat
  fn     : Nat
  launch : Nat
  kind   : Bool
  warps  : Nat
  regs   : Nat
  shmem  : Nat
  prio   : Nat
  rank   : Nat
  nrank  : Nat
  die    : Nat
  born   : Nat
  deriving DecidableEq, Repr

/-- A team in residence: its blocks and its stream (R152, R183). -/
structure Team where
  id     : Nat
  launch : Nat
  gteam  : Nat
  blocks : List Nat
  stream : Option AgentId
  cluster : Nat
  die    : Nat
  join   : W64
  deriving DecidableEq, Repr

/-- A graph being run by the graph walker (R160 to R163). -/
structure Graph where
  fn     : Nat
  q      : Nat
  ctx    : Nat
  nodes  : List (List W64)
  arrive : List (Nat × Nat)
  running : List (Nat × Option (ClaimId × Nat))
  failed : Option (Nat × Nat)
  deriving DecidableEq, Repr

/-- A FENCE packet polling its words (R142): its entries, the start of its latest round, and whether that round is still reading. -/
structure FencePk where
  fn     : Nat
  q      : Nat
  conds  : List (W64 × W64 × W64)
  at_    : Nat
  going  : Bool
  deriving DecidableEq, Repr

/-- A fault record (R378). -/
structure FaultRec where
  ctx   : Nat
  slot  : Nat
  die   : Nat
  x     : Nat
  y     : Nat
  cause : Nat
  inner : Nat
  tval  : W64
  tpcx  : W64
  fn    : Nat
  deriving DecidableEq, Repr

/-- Such an access off the device: no answer yet, or its bytes, or failed (R39, R40). -/
inductive IoSt where
  | out | got (bs : List Byte) (bad : Bool) | failed
  deriving DecidableEq, Repr
structure Io where
  n   : Nat
  who : IoWho
  idx : Nat
  st  : IoSt
  deriving DecidableEq, Repr

/-- A record's exit that its join counter has not yet counted (R158). -/
structure JoinDec where
  n      : Nat
  launch : Nat
  fn     : Nat
  ctx    : Nat
  addr   : W64
  slot   : Nat
  die    : Nat
  x      : Nat
  y      : Nat
  deriving DecidableEq, Repr

/-- Why a context is pre-empted (R131): PART_SET's HOLD, CTX_DESTROY, or a team of a launch of priority 3. -/
inductive PreWhy where
  | hold | destroy (fn : Nat) (cookie : W64) | prio (launch team : Nat)
  deriving DecidableEq, Repr
/-- A pre-emption: the warps and streams asked to halt, and whether the context is saved (R131 to R133). -/
structure Pre where
  part   : Nat
  ctx    : Nat
  why    : PreWhy
  agents : List AgentId
  saved  : Bool
  since  : Nat
  deriving DecidableEq, Repr

structure Sched where
  rings  : List Ring
  launches : List Launch
  teams  : List Team
  conts  : List Cont
  resvs  : List (Nat × Nat × Nat)
  graphs : List Graph
  fences : List FencePk
  faults : List FaultRec
  joins  : List JoinDec
  ios    : List Io
  pre    : List Pre
  nextId : Nat
  deriving DecidableEq, Repr

/-! ## Path-claim engines (22). -/

/-- States of Table 22-3. -/
inductive CState where
  | empty | walking | faulted | ready | flowing | parked | revoked
  deriving DecidableEq, Repr
/-- What kind of work a claim does. -/
inductive CWork where
  | plain | halo | copy | gather | coll
  deriving DecidableEq, Repr

/-- A leg of a flow: its place in the flow, its windows and addresses on each side (R399). -/
structure Leg where
  n    : Nat
  off  : Nat
  len  : Nat
  sw   : Nat
  src  : Nat
  dw   : Nat
  dst  : Nat
  acked : Bool
  /-- Pod time before which a leg of this device's own memories is not placed. -/
  due  : Nat
  deriving DecidableEq, Repr

/-- A claim in a slot of an engine (R389 to R409). desc holds S[OA] on; paths of a halo are k, rank, send offset and
receive address; idxs are a gather's element addresses and esz its element size; spec is SUB of a COLL; doneB counts bytes of
ended flows; inval is the reason of an invalidation that waits for the flow to end. -/
structure Claim where
  owner  : AgentId
  launch : Nat
  work   : CWork
  st     : CState
  desc   : List W64
  ctx    : Nat
  blk    : Nat
  cause  : Nat
  reason : Nat
  pend   : Bool
  queued : Bool
  cursor : Nat
  pins   : List Pin
  routed : Bool
  denied : Bool
  paths  : List (Nat × Nat × Nat × Nat)
  idxs   : List Nat
  esz    : Nat
  spec   : Nat
  rank   : Nat
  nrank  : Nat
  legs   : List Leg
  flowLen : Nat
  doneB  : Nat
  psn    : Bool
  compl  : Compl
  opId   : Nat
  park   : Bool
  inval  : Option Nat
  started : List Nat
  heldAt : Option Nat
  orphan : Bool
  /-- Bytes that have come of destination words not whole yet, and bytes read with source words whose legs are still to come (R351). -/
  stage  : List (Nat × Byte × Bool)
  ahead  : List (Nat × Byte × Bool)
  deriving DecidableEq, Repr

/-- A claim slot with its generation (R391). -/
structure Slot where
  gen   : BitVec 16
  claim : Option Claim
  deriving DecidableEq, Repr

structure Eng where
  slots : List (ClaimId × Slot)
  colls : List (Nat × Nat × ClaimId)
  haloIn : List (ClaimId × Nat × Nat)
  deriving DecidableEq, Repr

/-! ## Populations (26). -/

/-- An arrival of a member warp (R444). -/
structure Arrival where
  agent : AgentId
  draw  : Bool
  off   : W32
  weights : List (Nat × W32)
  pdst  : Nat
  parts : W32
  /-- The warp's V and P registers at its arrival (R448). -/
  v     : Map 32
  p     : Map 32
  deriving DecidableEq, Repr
/-- A commit whose copies are still to be made (R448, R449): the arrivals it took, the slots after it, and its clones, parent and place. -/
structure PopCopy where
  arrivals : List Arrival
  slots    : List (Nat × AgentId × Nat × Bool)
  clones   : List (Nat × Nat)
  deriving DecidableEq, Repr

/-- A population object (Table 26-1) with its registered slots: slotid, agent, lane, live. -/
structure PopObj where
  v      : Bool
  seed   : W64
  gen    : W32
  target : Nat
  cap    : Nat
  slots  : List (Nat × AgentId × Nat × Bool)
  arrivals : List Arrival
  copy   : Option PopCopy
  deriving DecidableEq, Repr

/-! ## Checkpoints (06 R134 to R138). -/

/-- The image of a tenant at a cut (R135, R136): its number and tick, the first undo-log interval after it, and the places its receive and
completion queues have reached. -/
structure Snap where
  ckno   : Nat
  tick   : Nat
  iv     : Nat
  agents : List (AgentId × Agent)
  blocks : List (Nat × Block)
  yard   : Memory
  pop    : List ((Nat × Nat) × PopObj)
  slots  : List (ClaimId × Slot)
  rings  : List Ring
  launches : List Launch
  teams  : List Team
  conts  : List Cont
  graphs : List Graph
  fences : List FencePk
  joins  : List JoinDec
  ios    : List Io
  rqs    : List (Nat × Nat)
  cqs    : List (Nat × Nat)
  deriving DecidableEq, Repr

/-- Checkpoint state of a time-shared partition (R134 to R138): the number, tick and tenant of the latest cut announced, and the devices
that are done with it. undo lists, oldest first, the HBM bytes first written in each interval: tenant, interval, address, old value; cutNo
is the interval now. lines are the 64-byte lines those logs hold: tenant, interval, kind (0 HBM, 1 yard, 2 shared memory, 3 spill stack), line. undoWait lists
the tenants whose bytes of intervals before a bound are still to be undone. exports are held effects with
their tick and tenant; images are the tenants' latest committed images, cand the image of a cut that has not committed. seen is the
slice-end mark acted on last. -/
structure Ck where
  part   : Nat
  ckno   : Nat
  lastCut : Nat
  ctick  : Option Nat
  cutTen : Nat
  cutNo  : Nat
  doneDev : List Nat
  askAt  : Option Nat
  undo   : List (Nat × Nat × Nat × Byte)
  undoWait : List (Nat × Nat)
  lines  : List (Nat × Nat × Nat × Nat)
  exports : List (Nat × Nat × Export)
  sliceEnd : Nat
  tenant : Nat
  /-- The tenant of the slice before, and the tick at which that slice ended. -/
  before : Option (Nat × Nat)
  /-- Ticks of the latest background cuts of tenants since they stopped (R97). -/
  backs  : List (Nat × Nat)
  cand   : Option Snap
  images : List (Nat × Snap)
  seen   : List (Nat × Nat)
  deriving DecidableEq, Repr

/-! ## Notice store (28). -/

structure NMember where
  board : W64
  dev   : Nat
  part  : Nat
  ctx   : Nat
  gteam : Nat
  block : Nat
  deriving DecidableEq, Repr

/-- A notice known to the device: objs are the objections counted, by rank and tick; out is OUT of Table 28-5; seen says that
its flit has become visible here. -/
structure Notice where
  rank   : Nat
  itick  : Nat
  win    : Nat
  key    : W32
  word   : Nat
  value  : W64
  objs   : List (Nat × Nat)
  out    : Nat
  seen   : Bool
  deriving DecidableEq, Repr

structure NGroup where
  fn     : Nat
  ctx    : Nat
  handle : Nat
  gid    : BitVec 16
  members : List NMember
  notices : List Notice
  flate  : BitVec 16
  disc   : BitVec 16
  appl   : W32
  deriving DecidableEq, Repr

structure Ntc where
  groups : List NGroup
  disc   : W32
  deriving DecidableEq, Repr

/-! ## The whole machine. -/

/-- What was last tried without effect: a turn of the network engine at a queue pair, a record's exit, the head packet of a work
queue, the nodes of a graph, the control command at the head of a function's queue. -/
inductive Stall where
  | net (qpn : Nat) | join (n : Nat) | ring (fn q : Nat) | graph (fn q n : Nat) | cmd (fn : Nat) | side (a : AgentId) | pop (part ctx n : Nat)
  deriving DecidableEq, Repr

structure State where
  mod    : Mod
  fab    : Fab
  xl     : Xl
  mem    : Mem
  host   : HostIf
  part   : Parts
  ck     : List Ck
  sched  : Sched
  agents : List (AgentId × Agent)
  blocks : List (Nat × Block)
  eng    : Eng
  pop    : List ((Nat × Nat) × PopObj)
  ntc    : Ntc
  net    : Net
  /-- The model's own: the agent whose instruction runs next. -/
  cur    : AgentId
  /-- The model's own: events due, oldest first. -/
  inbox  : List Instr
  /-- The model's own: arrived events whose write waits for room in an undo log (R135). -/
  late : List Instr
  /-- The model's own: agents whose instruction waits, not tried again until something else has happened. -/
  waiting : List AgentId
  /-- The model's own: what waits in the same way among the events the device raises by itself. -/
  stalled : List Stall
  /-- The model's own: counter of the free values (log 5). -/
  freeIx : Nat
  /-- The model's own: numbers operations in issue order. -/
  opSeq  : Nat
  deriving DecidableEq, Repr

/-- Why the machine stops. -/
inductive Fault where
  /-- Raised by the meaning of an operation when the current agent does not exist: there is no warp or stream to run it.
  Safe: the hardware issues no instruction there. -/
  | noAgent
  deriving DecidableEq, Repr

/-- Why an instruction is refused. -/
inductive Refusal where
  /-- Raised by an arm of exec that has no meaning yet. Safe. -/
  | notModelled (mnemonic : String)
  deriving DecidableEq, Repr

/-! ## Reset: the module before power good (log 1), every field zero or empty. -/

def Mod.reset : Mod :=
  { power := .off, poddev := 0, fwver := 0, fault := 0, scFailed := 0, leader := none, stackLost := 0, halving := false,
    flash := [], inForce := 0, sel := 0, rollback := 0, ceCount := 0 }
def Fab.reset : Fab :=
  { podNs := 0, cycles := 0, synced := true, lastTb := 0, master := some 0, lead := 0, masterHeard := 0, fabUp := 0, ethUp := 0,
    linkDownMap := [], replays := [], rotate := [], wordDisc := 0, mpDisc := 0, srcs := [], partReset := [], tgts := [], entries := [],
    nextTag := 0, deadTags := [], outbox := [], waitQ := [], mpQueue := [], mpOut := [], losses := [], resvs := [], resvQ := [],
    bulkOut := [], legOut := [], jRoute := [], jPool := [], jFill := [], jSlots := [], jOut := [], jMpOut := [] }
def Xl.reset : Xl :=
  { ctxs := [], cache := [], leafs := [], wents := [], walks := [], faults := [], s2 := [], s2Next := 0, grants := [], grantIn := [], dir := [], fwds := [],
    invals := [], invalIn := [], ats := [], migs := [], nextId := 0 }
def HostIf.reset : HostIf :=
  { funcs := [], used := [], events := [], heldS2 := [], msi := [], ctlQ := [], busy := [], macs := [], gids := [], reads := [], writes := [], badPosts := [], unread := [], atsDone := [], resets := [] }
def Parts.reset : Parts :=
  { parts := [], units := [], tokens := [], tokEff := [], tokPend := [], tokWait := [], tokCmd := [], holdCmd := [] }
def Sched.reset : Sched :=
  { rings := [], launches := [], teams := [], conts := [], resvs := [], graphs := [], fences := [], faults := [],
    joins := [], ios := [], pre := [], nextId := 0 }

/-- The machine before power good (log 1). -/
def State.reset : State :=
  { mod := Mod.reset, fab := Fab.reset, xl := Xl.reset, mem := ⟨[], [], []⟩, host := HostIf.reset, part := Parts.reset,
    ck := [], sched := Sched.reset, agents := [], blocks := [], eng := ⟨[], [], []⟩, pop := [], ntc := ⟨[], 0⟩,
    net := ⟨[], [], [], [], []⟩, cur := .warp ⟨0, 0, 0⟩ 0, inbox := [], late := [], waiting := [], stalled := [], freeIx := 0, opSeq := 0 }

end Sys2Proof.Machine
end

