-- ==== Sys2Proof/Machine/Table.lean ====
section
/-! DEFINITION. Sparse maps in canonical form: keys strictly rising, no entry equal to the zero an unlisted key reads as.
Memory, register files, tiles and spill stacks are held so, and equal contents are equal data. -/

namespace Sys2Proof.Machine

/-- Read a key. -/
def mget {w : Nat} (m : Map w) (k : Nat) : BitVec w :=
  match m with
  | [] => 0
  | (k', v) :: r => if k' = k then v else mget r k
/-- Write a key; writing zero removes the entry. -/
def mset {w : Nat} (m : Map w) (k : Nat) (v : BitVec w) : Map w :=
  match m with
  | [] => if v = 0 then [] else [(k, v)]
  | (k', v') :: r =>
    if k < k' then (if v = 0 then (k', v') :: r else (k, v) :: (k', v') :: r)
    else if k = k' then (if v = 0 then r else (k, v) :: r)
    else (k', v') :: mset r k v
/-- Every key of m is at least b, keys rise, and no value is zero. -/
def mwfFrom {w : Nat} (b : Nat) (m : Map w) : Bool :=
  match m with
  | [] => true
  | (k, v) :: r => b ≤ k && v ≠ 0 && mwfFrom (k + 1) r
/-- The canonical form. -/
def mwf {w : Nat} (m : Map w) : Bool := mwfFrom 0 m
/-- The canonical form of a byte memory. -/
def Memory.wf (m : Memory) : Bool := mwf m

/-- Write the listed entries in order. -/
def msetAll {w : Nat} (m : Map w) (es : List (Nat × BitVec w)) : Map w := es.foldl (fun m e => mset m e.1 e.2) m

/-- n bytes from a, in address order. -/
def readBytes (m : Memory) (a n : Nat) : List Byte := (List.range n).map (fun i => mget m (a + i))
/-- Write a byte string at a, lowest address first. -/
def writeBytes (m : Memory) (a : Nat) (bs : List Byte) : Memory :=
  match bs with
  | [] => m
  | b :: r => writeBytes (mset m a b) (a + 1) r
/-- The n bytes at a as a little-endian number. -/
def readNum (m : Memory) (a n : Nat) : Nat := leVal (readBytes m a n)

end Sys2Proof.Machine
end

