-- ==== Sys2Proof/Machine/Regs.lean ====
section
/-! DEFINITION. Agents and their registers: the one place that reads and writes registers, predicates, lane masks and the
OUTC fields (R169 to R175, R202 to R204). -/

namespace Sys2Proof.Machine

/-- Trap causes (Table 21-2). -/
inductive Cause where
  | illop | illclause | illdep | priv | align | bounds | xlate | perm | claimx | kstate | nest | popdiv | lateobj
  | fabric | poison | brk | watch | soft | double
  deriving DecidableEq, Repr
def Cause.code : Cause → Nat
  | .illop => 0x01 | .illclause => 0x02 | .illdep => 0x03 | .priv => 0x04 | .align => 0x05 | .bounds => 0x06
  | .xlate => 0x10 | .perm => 0x11 | .claimx => 0x12 | .kstate => 0x13 | .nest => 0x20 | .popdiv => 0x21
  | .lateobj => 0x22 | .fabric => 0x30 | .poison => 0x31 | .brk => 0x40 | .watch => 0x41 | .soft => 0x42
  | .double => 0x7F

/-! ## Committed checkpoints (R136, R137). -/

/-- Tick and number of a tenant's latest committed checkpoint. -/
def commTickOf (c : Ck) (ten : Nat) : Nat := ((lkp c.images ten).map Snap.tick).getD 0
def commNoOf (c : Ck) (ten : Nat) : Nat := ((lkp c.images ten).map Snap.ckno).getD 0

/-- A partition shared in time by several tenants (R126, R134). -/
def timeShared (s : State) (part : Nat) : Bool := s.part.parts.any (fun p => p.part = part && p.nten ≠ 0)
def ckOf (s : State) (part : Nat) : Option Ck := s.ck.find? (fun c => c.part = part)
/-- Lines the undo log of a partition holds on this device (R134, R135). -/
def undoRoom (s : State) (part : Nat) : Nat := Config.undoCap (((s.part.parts.find? (fun p => p.part = part)).map Part.logu).getD 0) + 1
/-- The undo log of a time-shared partition is full: a write that needs an entry waits (R135). -/
def undoFull (s : State) (part : Nat) : Bool := timeShared s part && (ckOf s part).any (fun c => undoRoom s part ≤ c.lines.length)

/-- What a tenant left when its slice ended is still to be undone (R138 step 6). -/
def undoOpen (s : State) (part fn : Nat) : Bool := (ckOf s part).any (fun c => c.undoWait.any (fun w => w.1 = fn))

/-! ## Agents in the state. -/

def isStream : AgentId → Bool
  | .stream _ _ => true
  | .warp _ _ => false
/-- Warp slot of an agent; 0 for a stream. A warp saved by a pre-emption keeps its number, and one that takes its slot meanwhile is
numbered a multiple of 48 above it. -/
def slotOf : AgentId → Nat
  | .warp _ n => n % 48
  | .stream _ _ => 0
/-- The agent of an identifier, if it is resident or halted. -/
def agent (s : State) (a : AgentId) : Option Agent := lkp s.agents a
/-- The state with the agent replaced. -/
def setAgent (s : State) (a : AgentId) (g : Agent) : State := { s with agents := ins s.agents a g }
/-- The state with the agent changed, if it exists. -/
def modAgent (s : State) (a : AgentId) (f : Agent → Agent) : State :=
  match agent s a with
  | some g => setAgent s a (f g)
  | none => s
/-- A fresh number for an operation, packet or record. -/
def fresh (s : State) : Nat × State := (s.opSeq, { s with opSeq := s.opSeq + 1 })

/-! ## Registers. -/

/-- The identity value WARP: zero in a spawned task (R170). -/
def warpIdent (g : Agent) : Nat := if g.task.isSome then 0 else g.warpNo
/-- V register n of lane l. -/
def vget (g : Agent) (n l : Nat) : W32 := mget g.v (n * 32 + l)
def vset (g : Agent) (n l : Nat) (x : W32) : Agent := { g with v := mset g.v (n * 32 + l) x }
/-- A 64-bit lane value in a register pair (R261). -/
def vget64 (g : Agent) (n l : Nat) : W64 := vget g (n + 1) l ++ vget g n l
def vset64 (g : Agent) (n l : Nat) (x : W64) : Agent :=
  vset (vset g n l (x.extractLsb' 0 32)) (n + 1) l (x.extractLsb' 32 32)
/-- S register n. -/
def sget (g : Agent) (n : Nat) : W64 := mget g.s n
def sset (g : Agent) (n : Nat) (x : W64) : Agent := { g with s := mset g.s n x }
/-- Predicate n as a lane mask; P7 reads true (R171). -/
def pmask (g : Agent) (n : Nat) : W32 := if n = 7 then BitVec.allOnes 32 else mget g.p n
def pget (g : Agent) (n l : Nat) : Bool := (pmask g n).getLsbD l
/-- Write predicate n in lane l; P7 is never written. -/
def pset (g : Agent) (n l : Nat) (b : Bool) : Agent :=
  if n = 7 then g else { g with p := mset g.p n (setBit (mget g.p n) l b) }
/-- Sticky flags set (R270). -/
def addFlags (g : Agent) (f : FlagBits) : Agent := { g with fmt := orFlags g.fmt f }

/-! ## Lanes (R171 to R175). -/

/-- Lanes whose nesting counter is zero. -/
def nestZero (g : Agent) : W32 := maskOf 32 ((List.range 32).filter (fun l => mget g.nest l = 0))
/-- Active lanes of a warp (R171). -/
def activeMask (g : Agent) : W32 := g.live &&& g.exm &&& nestZero g
/-- The guard as a lane mask (R171). -/
def guardMask (g : Agent) (c : Common) : W32 :=
  let m := pmask g c.guard.toNat
  if c.gneg then ~~~ m else m
/-- Participating lanes, ascending (R171). -/
def lanes (g : Agent) (c : Common) : List Nat := bitsOf (activeMask g &&& guardMask g c) 32
/-- Whether a uniform operation takes effect (R175); a stream's predicates hold one bit (R187). -/
def uniformOk (a : AgentId) (g : Agent) (c : Common) : Bool :=
  if c.guard = 7 && !c.gneg then true
  else if isStream a then (guardMask g c).getLsbD 0 && (c.guard ≠ 7 || !c.gneg)
  else lanes g c ≠ []

/-! ## Outstanding counters and tags (R202 to R204). -/

/-- Lowest bit of an OUTC class field: 1 copy, 2 matrix, 3 gather, 4 collective, 5 network. -/
def outcGet (g : Agent) (cls : Nat) : Nat := fld g.outc (10 * cls - 1) (10 * cls - 10)
def outcSet (g : Agent) (cls n : Nat) : Agent := { g with outc := setFld g.outc (10 * cls - 1) (10 * cls - 10) n }
def farwGet (g : Agent) : Nat := fld g.outc 59 50
def farwSet (g : Agent) (n : Nat) : Agent := { g with outc := setFld g.outc 59 50 n }
/-- An operation of a class issues (R203). -/
def outIssue (g : Agent) (cls id : Nat) : Agent :=
  let g := outcSet g cls (outcGet g cls + 1)
  { g with outOps := g.outOps ++ [⟨id, cls, false⟩] }
/-- Retire, oldest first, the completed operations of a class. -/
def retireOps (cls : Nat) (g : Agent) : List OutOp → Agent
  | [] => { g with outOps := [] }
  | o :: r =>
    if o.cls ≠ cls then
      let g' := retireOps cls g r
      { g' with outOps := o :: g'.outOps }
    else if o.done then retireOps cls (outcSet g cls (outcGet g cls - 1)) r
    else { g with outOps := o :: r }
/-- An operation completes and everything that may retire retires in issue order (R203). -/
def outDone (g : Agent) (cls id : Nat) : Agent :=
  let ops := g.outOps.map (fun o => if o.id = id then { o with done := true } else o)
  retireOps cls g ops

/-! ## Pending registers (R243 to R245). -/

/-- Write a pending result. -/
def applyRes (g : Agent) (r : PendRes) : Agent :=
  let g := { g with v := msetAll g.v r.v, s := msetAll g.s r.s }
  let g := addFlags g r.flags
  { g with poison := match g.poison with
      | some p => some p
      | none => r.poison.map Prod.snd }
/-- Write every result that has come and whose window is closed, oldest first. -/
def settle (g : Agent) : Agent :=
  let (fin, rest) := g.pend.partition (fun p => p.win = 0 && p.left = 0)
  fin.foldl (fun g p => applyRes g p.res) { g with pend := rest }
/-- Write every result that has come, windows closed or not (trap entry, R232). -/
def settleAll (g : Agent) : Agent := settle { g with pend := g.pend.map (fun p => { p with win := 0 }) }
/-- A register of the list is a destination of a pending operation that satisfies q. -/
def pendHit (g : Agent) (q : Pend → Bool) (rs : List RC) : Option RC :=
  rs.find? (fun r => g.pend.any (fun p => q p && p.dst.contains r))
/-- One window instruction has issued (R243). -/
def tickWindows (g : Agent) : Agent := { g with pend := g.pend.map (fun p => { p with win := p.win - 1 }) }

/-- A reply of a pending operation has come: its part of the result is gathered (R320, R322). -/
def arrive (g : Agent) (id : Nat) (f : PendRes → PendRes) : Agent :=
  { g with pend := g.pend.map (fun p => if p.id = id then { p with left := p.left - 1, res := f p.res } else p) }
/-- A long-latency operation has issued: its destinations are pending (R243). The window counts this instruction too,
and closes when the last one it covers has issued. -/
def addPend (g : Agent) (id la left : Nat) (dst : List RC) (r : PendRes) (mem : Bool := false) : Agent :=
  { g with pend := g.pend ++ [⟨id, mem, dst, la + 1, left, r⟩] }
/-- A load or atomic of the agent has not returned its value. -/
def memOut (g : Agent) : Bool := g.pend.any (fun p => p.mem && p.left ≠ 0)
def ownerAgent : Owner → Option AgentId
  | .store a => some a
  | .load a _ _ _ => some a
  | .atomic a _ _ _ _ => some a
  | .io _ a => a
  | _ => none
/-- A far write, atomic or CAS packet of an agent, which takes an entry of its core's outstanding-write table and counts in FARW (R324). -/
def isWriteEntry (e : Entry) : Bool := match e.owner with
  | .store _ => true
  | .atomic _ _ _ _ _ => true
  | .io _ (some _) => e.pkt.kind ≠ 0x10
  | _ => false
/-- Entries that wait to be sent, or are held as exports. -/
def unsentEntries (s : State) : List Entry :=
  s.fab.waitQ ++ s.ck.flatMap (fun c => c.exports.filterMap (fun x => match x.2.2 with
    | .pkt e => some e
    | _ => none))
/-- Entries in flight, waiting to be sent, or held as exports. -/
def allEntries (s : State) : List Entry := s.fab.entries ++ unsentEntries s
/-- A far write or atomic of the agent has not been sent. -/
def unsentWrite (s : State) (a : AgentId) (g : Agent) : Bool :=
  (unsentEntries s).any (fun e => isWriteEntry e && ownerAgent e.owner = some a && e.born = g.born)
/-- The waits of a release at a scope code (R327, Tables 17-1 and 18-1): every earlier load and atomic returned and every far write sent, and
FARW zero at domain and system scope (R345). -/
def relWait (s : State) (a : AgentId) (g : Agent) (scope : Nat) : Bool :=
  memOut g || unsentWrite s a g || (5 ≤ scope && farwGet g ≠ 0)
/-- Later accesses are held behind an acquire (R340). -/
def acqWait (g : Agent) : Bool := g.acqHold && memOut g

/-! ## The instruction at hand. -/

/-- The word that issues: word idx of the clause (0 where no clause is held). -/
def curWord (g : Agent) : W64 := match g.clause with
  | some c => c.words.getD g.idx 0
  | none => 0
/-- Far address of the word that issues (R226: the header, then the words). -/
def curAddr (g : Agent) : W64 := g.pc + BitVec.ofNat 64 (8 * (g.idx + 1))

end Sys2Proof.Machine
end

