-- ==== Sys2Proof/Machine/Blocks.lean ====
section
/-! DEFINITION. Blocks: shared memory, waypoints (19 R360 to R363), neighbours (09 R196, R197), and the delivery of named
completions (09 R204 to R207). -/

namespace Sys2Proof.Machine

def block (s : State) (b : Nat) : Option Block := lkp s.blocks b
def setBlock (s : State) (b : Nat) (k : Block) : State := { s with blocks := ins s.blocks b k }
def modBlock (s : State) (b : Nat) (f : Block → Block) : State :=
  match block s b with
  | some k => setBlock s b (f k)
  | none => s

def wpZero : Wp := ⟨0, 0, 0, [], []⟩
def sidZero : Siding := ⟨0, 0, 0, 0, [], []⟩
def wpOf (k : Block) (n : Nat) : Wp := (lkp k.wps n).getD wpZero
def setWp (k : Block) (n : Nat) (w : Wp) : Block := { k with wps := ins k.wps n w }
def sidOf (k : Block) (n : Nat) : Siding := (lkp k.sids n).getD sidZero
def setSid (k : Block) (n : Nat) (y : Siding) : Block := { k with sids := ins k.sids n y }

/-! ## Waypoints. -/

/-- A waypoint with something registered whose signallers have arrived and whose needs are met (R361). -/
def wpReady (w : Wp) : Bool :=
  (w.sigs ≠ 0 || (List.range 5).any (fun k => mget w.need k ≠ 0))
  && (w.arr &&& w.sigs) = w.sigs
  && (List.range 5).all (fun k => (mget w.need k).toNat ≤ (mget w.got k).toNat)
/-- Complete n phases at once: the needs are consumed n times. -/
def wpPhases (w : Wp) (n : Nat) : Wp :=
  { w with
    phase := w.phase + BitVec.ofNat 32 n
    arr := if n = 0 then w.arr else 0
    got := (List.range 5).foldl (fun g k => mset g k (BitVec.ofNat 32 ((mget w.got k).toNat - n * (mget w.need k).toNat))) w.got }
/-- How many phases one check completes (R361): one while any signaller is registered; with no signaller, as many as the
least-supplied need allows. -/
def wpCount (w : Wp) : Nat :=
  if !wpReady w then 0
  else if w.sigs ≠ 0 then 1
  else
    let qs := ((List.range 5).filter (fun k => mget w.need k ≠ 0)).map (fun k => (mget w.got k).toNat / (mget w.need k).toNat)
    qs.foldl min (qs.headD 0)
/-- The completion check (R361). -/
def wpCheck (w : Wp) : Wp := wpPhases w (wpCount w)
/-- done(w, p) (R361). -/
def wpDone (w : Wp) (p : W32) : Bool := let d := (w.phase - p).toNat; 1 ≤ d && d ≤ 2 ^ 31
/-- An amount from source k arrives (R362, R363). -/
def wpShare (w : Wp) (k amt : Nat) : Wp :=
  wpCheck { w with got := mset w.got k (BitVec.ofNat 32 (min ((mget w.got k).toNat + amt) 0xFFFFFFFF)) }
/-- Drop a signaller (R362). -/
def wpDrop (w : Wp) (b : Nat) : Wp := wpCheck { w with sigs := setBit w.sigs b false, arr := setBit w.arr b false }
/-- The SIGS bit of an agent: warp w or bit 16 for the team stream (Table 19-2). -/
def sigBit (a : AgentId) (g : Agent) : Nat := if isStream a then 16 else g.warpNo

/-! ## Neighbours. -/

/-- Direction codes of Table 19-3: 1 n, 2 s, 3 e, 4 w; their marks in Table 7-5 (bits 0 n, 1 s, 2 e, 3 w of nbr). -/
def nbrMarked (k : Block) (d : Nat) : Bool := 1 ≤ d && d ≤ 4 && k.nbr.getLsbD (d - 1)
/-- The core next to c in a direction; y grows southward (R12). -/
def nbrCore (c : CoreId) (d : Nat) : CoreId :=
  match d with
  | 1 => { c with y := c.y - 1 }
  | 2 => { c with y := c.y + 1 }
  | 3 => { c with x := c.x + 1 }
  | _ => { c with x := c.x - 1 }
/-- The opposite direction (R363). -/
def nbrOpp : Nat → Nat | 1 => 2 | 2 => 1 | 3 => 4 | _ => 3
/-- The block of the same launch on the adjacent core (R196); none once it has exited (R197). -/
def nbrBlock (s : State) (k : Block) (d : Nat) : Option Nat :=
  (s.blocks.find? (fun e => e.2.launch = k.launch && !e.2.task && e.2.core = nbrCore k.core d)).map Prod.fst

/-! ## Completions. -/

/-- A status word (Table 9-5). -/
def statusWord (bytes cls st : Nat) : W64 := BitVec.ofNat 64 (bytes % 2 ^ 32 * 65536 + cls * 256 + st)
/-- Change the images of the tenants that do not run: what a running tenant's checkpoint holds stands as it was taken (R207, R138). -/
def modSnaps (s : State) (f : Snap → Snap) : State :=
  { s with ck := s.ck.map (fun c => { c with
      cand := if c.cutTen = c.tenant then c.cand else c.cand.map f
      images := c.images.map (fun e => if e.1 = c.tenant then e else (e.1, f e.2)) }) }
/-- Change an agent; one that is saved is changed in its image (R207). -/
def modSaved (s : State) (a : AgentId) (f : Agent → Agent) : State :=
  if (agent s a).isSome then modAgent s a f
  else modSnaps s (fun i => { i with agents := i.agents.map (fun e => if e.1 = a then (e.1, f e.2) else e) })
/-- The same for a block. -/
def modBlockSaved (s : State) (b : Nat) (f : Block → Block) : State :=
  if (block s b).isSome then modBlock s b f
  else modSnaps s (fun i => { i with blocks := i.blocks.map (fun e => if e.1 = b then (e.1, f e.2) else e) })
/-- An agent that has an operation outstanding: numbers of operations are never used twice. -/
def hasOp (g : Agent) (id : Nat) : Bool := g.outOps.any (fun o => o.id = id)
/-- Change an agent's images, where it has the operation. -/
def modImages (s : State) (a : AgentId) (opId : Nat) (f : Agent → Agent) : State :=
  modSnaps s (fun i => { i with agents := i.agents.map (fun e => if e.1 = a && hasOp e.2 opId then (e.1, f e.2) else e) })
/-- Change the agent that has an operation outstanding, or, while it is saved, its image (R207); another agent in its slot is not changed. -/
def modOp (s : State) (a : AgentId) (opId : Nat) (f : Agent → Agent) : State :=
  if (agent s a).any (fun g => hasOp g opId) then modAgent s a f else modImages s a opId f
/-- A tag or a status register of the agent receives a completion (R204, R205). -/
def deliverTo (c : Compl) (opId bytes cls st : Nat) (g : Agent) : Agent :=
  match c with
  | .tag n => { g with tags := setBit g.tags n true }
  | .status r => arrive g opId (fun p => { p with s := p.s ++ [(r, statusWord bytes cls st)] })
  | _ => g
/-- Deliver a named completion to the agent's tag, register or waypoint (R204 to R207); a completion for an agent that
has ended is discarded, but for a waypoint share while its block exists. -/
def deliver (s : State) (a : AgentId) (blk : Nat) (c : Compl) (opId bytes cls st : Nat) : State :=
  match c with
  | .none => s
  | .wp n => modBlockSaved s blk (fun k => setWp k n (wpShare (wpOf k n) 0 bytes))
  | c => modOp s a opId (deliverTo c opId bytes cls st)
/-- The completion a format A word names (R240). -/
def complOf (f : FmtA) : Compl :=
  match f.ckind with
  | .none => .none
  | .tag => .tag f.carg.toNat
  | .wp => .wp f.carg.toNat
  | .status => .status f.carg.toNat
/-- A status register is pending from issue until delivery (R205). -/
def pendCompl (g : Agent) (c : Compl) (opId : Nat) : Agent :=
  match c with
  | .status r => addPend g opId 0 1 [⟨1, r⟩] ⟨[], [], 0, none⟩
  | _ => g
/-- An operation of an OUTC class completes: delivery, then retirement in order (R203, R205). -/
def complete (s : State) (a : AgentId) (blk : Nat) (c : Compl) (opId bytes cls st : Nat) : State :=
  modOp (deliver s a blk c opId bytes cls st) a opId (fun g => outDone g cls opId)

end Sys2Proof.Machine
end

