-- ==== Sys2Proof/Machine/Ops.lean ====
section
/-! DEFINITION. The shared operations of the execution model: the end of a clause and the loop test (R184), the end of a
warp (R183), taking a trap and returning (R378, R379), and the issue of one operation with every check of R232 before its
meaning and every consequence after it. -/

namespace Sys2Proof.Machine

/-! ## Position. -/

/-- The loop test at the end of a clause whose header is at h (R184): the next header and the counts. -/
def loopTest (g : Agent) (h : W64) (count : Nat) : W64 × Agent :=
  let next := h + BitVec.ofNat 64 (8 * (count + 2))
  if g.tprio then (next, g)
  else
    let lvl (g : Agent) (n : Nat) : Bool := mget g.lc n ≠ 0 && mget g.le n = h
    let dec (g : Agent) (n : Nat) : Agent := { g with lc := mset g.lc n (mget g.lc n - 1) }
    let g1 := if lvl g 1 then dec g 1 else g
    if lvl g 1 && mget g.lc 1 ≠ 1 then (mget g.ls 1, g1)
    else
      let g0 := if lvl g1 0 then dec g1 0 else g1
      if lvl g1 0 && mget g1.lc 0 ≠ 1 then (mget g.ls 0, g0) else (next, g0)

/-- COUNT of the clause held; 0 where none is. -/
def clauseCount (g : Agent) : Nat := match g.clause with
  | some c => c.hdr.count.toNat
  | none => 0
/-- Continue at a clause header. -/
def enter (g : Agent) (t : W64) : Agent :=
  { g with pc := t, clause := none, idx := 0, waited := false, wayCur := none, suppress := false,
           pend := g.pend.map (fun p => { p with win := 0 }),
           yielded := g.yielded || (match g.clause with
             | some c => c.hdr.yld
             | none => false) }
/-- The clause ends in the ordinary way (R184, R229). -/
def clauseEnd (g : Agent) : Agent :=
  let (t, g) := loopTest g g.pc (clauseCount g)
  enter g t
/-- The following clause, without the loop test. -/
def nextClause (g : Agent) : W64 := g.pc + BitVec.ofNat 64 (8 * (clauseCount g + 2))
/-- One word has issued: windows move, and after the last word the clause ends. -/
def advance (g : Agent) : Agent :=
  let g := { tickWindows g with idx := g.idx + 1, suppress := false, wayCur := none }
  if clauseCount g < g.idx then clauseEnd g else g

/-! ## The end of a warp, a block and a team (R183). -/

/-- Buffers and routes of a claim are released, here and at the junctions (R32; DEDUCED, log 20: no packet tells a junction). -/
def dropRoutes (s : State) (id : ClaimId) : State :=
  { s with fab := { s.fab with
      resvs := s.fab.resvs.filter (fun r => r.claim ≠ id), resvQ := s.fab.resvQ.filter (fun q => q.1 ≠ id)
      entries := s.fab.entries.filter (fun e => match e.owner with
        | .resv c _ => c ≠ id
        | _ => true)
      jSlots := s.fab.jSlots.filter (fun x => !(x.req.claim = id && x.req.src = s.mod.poddev)) } }
/-- One that asked for translations asks no more, and nothing of what it asked for is left to a later access (R65, R412). -/
def forgetAsker (s : State) (who : IoWho) : State :=
  let drop (as : Asks) : Asks := as.filter (fun x => x.1 ≠ who)
  { s with xl := { s.xl with
      walks := s.xl.walks.map (fun w => { w with asks := drop w.asks })
      grants := s.xl.grants.map (fun r => { r with asks := drop r.asks })
      ats := s.xl.ats.map (fun r => { r with asks := drop r.asks })
      faults := s.xl.faults.filter (fun f => f.who ≠ who) } }
/-- A slot becomes free: its generation moves and its reservations go (R391, R402). -/
def freeSlot (s : State) (id : ClaimId) : State :=
  let s := forgetAsker s (.claim id)
  { dropRoutes s id with
    eng := { s.eng with slots := s.eng.slots.map (fun (i, sl) => if i = id then (i, ⟨sl.gen + 1, none⟩) else (i, sl))
                        colls := s.eng.colls.filter (fun x => x.2.2 ≠ id)
                        haloIn := s.eng.haloIn.filter (fun x => x.1 ≠ id) } }
/-- A claim whose owner has ended (R390): a running flow keeps its slot until it ends, every other slot is released under
UNCLAIM's rule; a completion still due is discarded but for a waypoint share (R207). -/
def orphanOne (s : State) (id : ClaimId) (c : Claim) : State :=
  let compl := match c.compl with
    | .wp n => Compl.wp n
    | _ => .none
  if c.st = .flowing then
    { s with eng := { s.eng with slots := s.eng.slots.map (fun (i, sl) =>
        if i = id then (i, { sl with claim := some { c with orphan := true, compl } }) else (i, sl)) } }
  else freeSlot (if c.pend then deliver s c.owner c.blk compl c.opId c.cursor 1 2 else s) id
def orphanClaims (s : State) (a : AgentId) : State :=
  s.eng.slots.foldl (fun s (id, sl) => match sl.claim with
    | some c => if c.owner = a then orphanOne s id c else s
    | none => s) s
/-- Lanes leave their populations (R438). -/
def popLeave (s : State) (a : AgentId) (gone : Nat → Bool) : State :=
  { s with pop := s.pop.map (fun (k, o) =>
      let slots := o.slots.filter (fun e => !(e.2.1 = a && gone e.2.2.1))
      (k, { o with slots, arrivals := if slots.any (fun e => e.2.1 = a) then o.arrivals
                                      else o.arrivals.filter (fun r => r.agent ≠ a) })) }
/-- Some batch that has not completed names the warp's registers (R421). -/
def feeds (s : State) (a : AgentId) : Bool :=
  s.agents.any (fun e => e.2.mx.batches.any (fun b => b.2.feeders.contains a))
/-- Waypoint and siding duties of an agent end (R362). -/
def leaveBlock (a : AgentId) (g : Agent) (k : Block) : Block :=
  { k with wps := k.wps.map (fun (n, w) => (n, wpDrop w (sigBit a g)))
           sids := k.sids.map (fun (n, y) => (n, { y with waitPush := y.waitPush.filter (fun b => b ≠ a),
                                                          waitPop := y.waitPop.filter (fun b => b ≠ a) })) }
/-- Context key of a context of a partition. -/
def ckey (part ctx : Nat) : Nat := part * 65536 + ctx
/-- A record has exited: it counts toward its launch, and its join counter is due (R141, R158). -/
def recordExit (s : State) (t : Nat) (slot die x y : Nat) : State :=
  match s.sched.teams.find? (fun z => z.id = t) with
  | none => s
  | some tm => match s.sched.launches.find? (fun l => l.id = tm.launch) with
    | none => s
    | some l =>
      let (n, s) := fresh s
      { s with sched := { s.sched with
          launches := s.sched.launches.map (fun z => if z.id = l.id then { z with liveRecs := z.liveRecs - 1 } else z)
          joins := if tm.join = 0 then s.sched.joins
                   else s.sched.joins ++ [⟨n, l.id, l.fn, ckey l.part l.ctx, tm.join, slot, die, x, y⟩] } }
/-- A team with no block and no stream left has exited. -/
def teamCheck (s : State) (t : Nat) : State :=
  { s with sched := { s.sched with teams := s.sched.teams.filter (fun x => !(x.id = t && x.blocks = [] && x.stream = none)) } }
/-- A block whose warps have all ended exits: shared memory, sidings, waypoints and filters go with it (R183). -/
def blockCheck (s : State) (b t : Nat) (slot die x y : Nat) : State :=
  if s.agents.any (fun e => e.2.blk = b && !isStream e.1 && !e.2.ended) then s
  else
    let s := recordExit s t slot die x y
    let s := { s with blocks := del s.blocks b
                      sched := { s.sched with teams := s.sched.teams.map (fun x =>
                        if x.id = t then { x with blocks := x.blocks.filter (fun y => y ≠ b) } else x) } }
    teamCheck s t
/-- Ended warps that no batch names, and ended streams whose closed batches have completed, go (R421, R183). -/
def reapEnded (s : State) : State :=
  { s with agents := s.agents.filter (fun e => !(e.2.ended && (if isStream e.1 then e.2.mx.queue = [] else !feeds s e.1))) }
/-- Records leave their queues; one that is now the oldest of its queue counts its 20 µs from now (R156). -/
def keepConts (s : State) (q : Cont → Bool) : List Cont :=
  let first (cs : List Cont) (c : Cont) : Bool :=
    !(cs.takeWhile (fun x => x.id ≠ c.id)).any (fun x => x.part = c.part && x.die = c.die && x.prio = c.prio)
  let rest := s.sched.conts.filter q
  rest.map (fun c => if first rest c && !first s.sched.conts c then { c with born := s.fab.podNs } else c)

/-- A sender enters the milepost queue, an objection before every flit of another kind (R457); one that finds its 64 places taken stands
behind them and waits (R46). -/
def mpInto (q : List MpSend) (m : MpSend) : List MpSend :=
  if q.length < 64 && m.flit.kind = 2 then
    q.takeWhile (fun x => x.flit.kind = 2) ++ [m] ++ q.dropWhile (fun x => x.flit.kind = 2)
  else q ++ [m]
/-- The queue with some of its flits gone; the senders that waited enter the places in order. -/
def mpKeep (q : List MpSend) (keep : MpSend → Bool) : List MpSend := (q.drop 64).filter keep |>.foldl mpInto ((q.take 64).filter keep)
/-- The queue after its head. -/
def mpNext (q : List MpSend) : List MpSend := (q.drop 64).foldl mpInto ((q.take 64).drop 1)
/-- What an agent's instruction, abandoned unperformed, has begun is dropped: translations, accesses under way, safe-point tables read (R66, R388). -/
def abandon (s : State) (a : AgentId) : State :=
  let s := forgetAsker (forgetAsker s (.agent a)) (.side a)
  { s with sched := { s.sched with ios := s.sched.ios.filter (fun i => i.who ≠ .agent a && i.who ≠ .side a) } }
/-- The warp or stream ends (R183). -/
def endAgent (s : State) (a : AgentId) : State :=
  match agent s a with
  | none => s
  | some g =>
    let s := orphanClaims (popLeave s a (fun _ => true)) a
    let s := abandon { s with waiting := s.waiting.filter (fun b => b ≠ a) } a
    if isStream a then
      let mx := { g.mx with batches := g.mx.batches.filter (fun b => g.mx.queue.contains b.1) }
      let s := reapEnded (setAgent s a { g with ended := true, recs := [], mx := mx })
      let s := recordExit s g.team 0 g.die 0 0
      let s := { s with blocks := s.blocks.map (fun (n, k) => if k.team = g.team then (n, leaveBlock a g k) else (n, k))
                        sched := { s.sched with teams := s.sched.teams.map (fun x =>
                          if x.id = g.team then { x with stream := none } else x) } }
      teamCheck s g.team
    else
      let s := modBlock s g.blk (leaveBlock a g)
      let s := reapEnded (setAgent s a { g with live := 0, ended := true, recs := [] })
      blockCheck s g.blk g.team (slotOf a) g.die g.x g.y

/-! ## Traps (R378). -/

/-- End the warp by fault: fault record, and the launch completes as a rejected packet, first such warp first. -/
def endByFault (s : State) (a : AgentId) (g : Agent) (c inner : Nat) : State :=
  let r : FaultRec := { ctx := g.ctx, slot := slotOf a, die := g.die, x := g.x, y := g.y, cause := c, inner,
                        tval := g.tval, tpcx := g.tpcx, fn := g.fn }
  let s := { s with sched := { s.sched with
    faults := s.sched.faults ++ [r]
    launches := s.sched.launches.map (fun l =>
      if l.id = g.launch && l.failed = none then { l with failed := some (0x80000000 + slotOf a * 256 + c) } else l) } }
  endAgent (setAgent s a g) a
/-- The agent waits at no siding (R186, R232). -/
def leaveSidings (s : State) (a : AgentId) : State :=
  let out (y : Siding) : Siding := { y with waitPush := y.waitPush.filter (fun b => b ≠ a), waitPop := y.waitPop.filter (fun b => b ≠ a) }
  { s with blocks := s.blocks.map (fun k => (k.1, { k.2 with sids := k.2.sids.map (fun y => (y.1, out y.2)) })) }
/-- take(c, v, a) of R378 once every result in flight has come: write them, close every window, then a double trap, the
end of a warp without a handler, or entry at TVEC with trap priority; what the resumption of a handler raises is no double trap (R131). at_ is the trap's address, idx its word (none for a
trap at a clause header). -/
def enterTrap (s : State) (a : AgentId) (g : Agent) (c : Nat) (v : W64) (code : Nat) (at_ : W64) (idx : Option Nat) : State :=
  let s := leaveSidings (abandon s a) a
  let g := settleAll { g with trapPend := none }
  if g.tprio && !g.resumed then endByFault s a { g with tval := v, tpcx := at_ } 0x7F c
  else if g.tvec = 0 then endByFault s a { g with tval := v, tpcx := at_ } c 0
  else
    setAgent s a { enter g g.tvec with
      tcause := BitVec.ofNat 64 (code * 65536 + c), tval := v, tpcx := at_, posHdr := g.pc, posIdx := idx,
      posCnt := clauseCount g,
      written := false, depthAt := g.recs.length, tprio := true, need := 0, needT := if g.tprio then g.needT else g.need, resumed := false, yielded := false, arrived := false, chkptAt := none, joinAt := none,
      fabErr := if c = Cause.fabric.code then none else g.fabErr }
/-- Every result in flight has come. -/
def quiet (g : Agent) : Bool := g.pend.all (fun p => p.left = 0)
/-- Raise a trap at the word at hand: enter, or wait for the results in flight with the cause kept (R232). -/
def raise (s : State) (a : AgentId) (g : Agent) (c : Nat) (v : W64) (code : Nat) : State :=
  if quiet g then enterTrap s a g c v code (curAddr g) (some g.idx)
  else { setAgent s a { g with trapPend := some (c, v, code) } with waiting := a :: s.waiting }
/-- A trap at the clause header (R227). -/
def raiseHdr (s : State) (a : AgentId) (g : Agent) (c : Nat) (v : W64) : State :=
  if quiet g then enterTrap s a g c v 0 g.pc none
  else { setAgent s a { g with trapPend := some (c, v, 0x10000) } with waiting := a :: s.waiting }

/-! ## What one operation does. -/

/-- How the meaning of an operation leaves its agent. -/
inductive Res where
  /-- Done; the next word follows. -/
  | next (s : State)
  /-- Done; continue at a clause header without the loop test (R184). -/
  | jump (s : State) (t : W64)
  /-- Done; the clause ends with the loop test (an untaken branch, R291). -/
  | fall (s : State)
  /-- Done; the meaning has set the position itself. -/
  | placed (s : State)
  /-- A trap; the state holds only what the trap lets stand. -/
  | trap (s : State) (c : Cause) (v : W64)
  /-- A trap with a code (TRAP, R381). -/
  | soft (s : State) (v : W64) (code : Nat)
  /-- Unperformed: nothing has happened but what a wait may record. -/
  | wait (s : State)

/-- Something has happened: every waiting agent may try again. -/
def progress (s : State) : State := { s with waiting := [], stalled := [] }
/-- The agent waits; it is tried again after some other progress. -/
def park (s : State) (a : AgentId) : State :=
  { s with waiting := if s.waiting.contains a then s.waiting else s.waiting ++ [a] }

/-- A clause that has ended is dated (R165, key 5). -/
def stampEnd (now : Nat) (g : Agent) : Agent := if g.clause.isNone then { g with waitSince := now } else g
/-- The consequences of an operation's meaning. -/
def conclude (a : AgentId) (r : Res) : State :=
  match r with
  | .next s => progress (modAgent s a (fun g => stampEnd s.fab.cycles (advance g)))
  | .jump s t => progress (modAgent s a (fun g => stampEnd s.fab.cycles (enter g t)))
  | .fall s => progress (modAgent s a (fun g => stampEnd s.fab.cycles (clauseEnd g)))
  | .placed s => progress s
  | .trap s c v => match agent s a with
    | some g => progress (raise s a g c.code v 0)
    | none => s
  | .soft s v code => match agent s a with
    | some g => progress (raise s a g Cause.soft.code v code)
    | none => s
  | .wait s => park s a

/-- Features of Table 5-5 the agent's function has accepted. -/
def featuresOf (s : State) (g : Agent) : W64 := match lkp s.host.funcs g.fn with
  | some f => f.features
  | none => 0
/-- Every capability an operation needs has been accepted (R258). -/
def capsOk (s : State) (g : Agent) (op : Nat) (f : Fmt) : Bool :=
  let q4 := match f with
    | .c x => x.ty = .q4
    | _ => false
  (capsOf op q4).all (fun b => (featuresOf s g).getLsbD b)
/-- Operations that exist in a vector warp only, apart from the classes Table 8-7 keeps out of streams (R181, R287, R288,
R295, Table 19-1). -/
def warpOnly (op : Nat) (f : Fmt) : Bool :=
  match op, f with
  | 0x035, _ => true
  | 0x036, _ => true
  | 0x037, _ => true
  | 0x226, _ => true
  | 0x22A, _ => true
  | 0x22B, _ => true
  | 0x22C, _ => true
  | 0x22D, _ => true
  | 0x020, .x x => 0x8000 ≤ x.imm.toNat
  | 0x021, .x x => [0x0000, 0x0001, 0x0020, 0x0022].contains x.imm.toNat
  | 0x022, .x x => [0x0000, 0x0001, 0x0020, 0x0022].contains x.imm.toNat
  | 0x048, .t t => t.sub.toNat < 2
  | 0x222, .x x => wpDir x.imm.toNat ≠ 0
  | _, _ => false
/-- BLK fields of the waypoint and siding operations are zero in a warp (R358). -/
def blkField (op : Nat) (f : Fmt) : Nat :=
  match f with
  | .x x => if 0x221 ≤ op && op ≤ 0x229 && op ≠ 0x226 then wpBlk x.imm.toNat else 0
  | _ => 0
/-- Operations permitted at trap priority only (R288, Table 21-3). -/
def privOp (op : Nat) (f : Fmt) : Bool :=
  match op, f with
  | 0x2A1, _ => true
  | 0x2A6, _ => true
  | 0x2A7, _ => true
  | 0x022, .x x => 0x30 ≤ x.imm.toNat && x.imm.toNat ≤ 0x32
  | _, _ => false
/-- The class is legal for the kind of agent (Table 8-7). -/
def classOk (cls : Nat) (stream : Bool) : Bool :=
  if stream then cls = 0 || cls = 5 || cls = 6 || cls = 9 else cls ≤ 9 && cls ≠ 6

/-- The add of a SPAWN has left (R157): the instruction has begun to act. -/
def spawnBegun (s : State) (a : AgentId) (op : Nat) : Bool := op = 0x048 && s.sched.ios.any (fun i => i.who = .agent a)
/-- The checks of R232 in their order, after the poison record of R326: a trap, or nothing. -/
def gate (s : State) (a : AgentId) (g : Agent) (i : Instr) (op : Nat) (f : Fmt) : Option (Cause × W64) :=
  let w := curWord g
  let u := useOf op f
  if g.poison.isSome && !spawnBegun s a op then some (.poison, g.poison.getD 0)
  else if !capsOk s g op f then some (.illop, w)
  else if !formOk i then some (.illop, w)
  else if isStream a && (warpOnly op f || !classOk (classOf op) true) then some (.illop, w)
  else if !isStream a && (blkField op f ≠ 0 || !classOk (classOf op) false) then some (.illop, w)
  else if g.need = 1 && op ≠ 0x036 then some (.illop, w)
  else if g.need = 2 && op ≠ 0x037 then some (.illop, w)
  else if privOp op f && !g.tprio then some (.priv, w)
  else match boundsReg u g.alloc with
    | some n => some (.bounds, BitVec.ofNat 64 n)
    | none => match pendHit g (fun p => 0 < p.win) u.dst with
      | some r => some (.illdep, BitVec.ofNat 64 r.code)
      | none => none
/-- A source or destination is pending, its window closed and its result not come (R174, R244). -/
def mustWait (g : Agent) (u : Use) : Bool :=
  (pendHit g (fun p => p.win = 0 && p.left ≠ 0) (u.dst ++ u.src)).isSome
/-- The results this operation reads or writes are written first (R244). -/
def settleFor (g : Agent) (u : Use) : Agent :=
  if (pendHit g (fun p => p.win = 0) (u.dst ++ u.src)).isSome then settle g else g

/-! ## The register log (R135). -/

/-- Bytes of an entry: a vector register, a scalar register, or, numbered 0x10000, a warp's special registers. -/
def logBytes (n : Nat) : Nat := if n < 256 then 136 else if n < 512 then 16 else 64
/-- The entries an operation with these destinations adds to the log. -/
def newLogs (g : Agent) (u : Use) : List Nat :=
  ((0x10000 :: (u.dst.filter (fun r => r.file < 2)).map RC.code).filter (fun n => !g.logged.contains n)).eraseDups
/-- Of registers about to be written, those without an entry in the log. -/
def needLogs (g : Agent) (codes : List Nat) : List Nat := (codes.filter (fun n => !g.logged.contains n)).eraseDups
/-- Two agents share a core, or a control core. -/
def sameCore : AgentId → AgentId → Bool
  | .warp c _, .warp d _ => c = d
  | .stream d n, .stream e m => d = e && n % 32 = m % 32
  | _, _ => false
/-- Bytes in the 64 KiB register log of an agent's core. -/
def regLogUsed (s : State) (a : AgentId) : Nat := ((s.agents.filter (fun e => sameCore a e.1)).map (fun e => (e.2.logged.map logBytes).sum)).sum
/-- Registers of a time-shared tenant's warps that an engine writes have their log entries. -/
def logRegs (s : State) (g : Agent) (codes : List Nat) : Agent :=
  if timeShared s g.part then { g with logged := g.logged ++ needLogs g codes } else g
/-- The logs have room for the entries of registers an engine is to write: agents, and the registers of each. -/
def regRoom (s : State) (ws : List (AgentId × List Nat)) : Bool :=
  let bytes (w : AgentId × List Nat) : Nat := ((agent s w.1).map (fun g => ((needLogs g w.2).map logBytes).sum)).getD 0
  ws.all (fun w => match agent s w.1 with
    | some g => !timeShared s g.part || regLogUsed s w.1 + ((ws.filter (fun x => sameCore w.1 x.1)).map bytes).sum ≤ 65536
    | none => true)
/-- The operation stores to memory: a store or an atomic. -/
def storesMem (op : Nat) (f : Fmt) : Bool := match f with
  | .m _ => op ≠ 0x180 && op ≠ 0x1C0
  | _ => false
/-- In a time-shared partition, a log that the operation needs an entry of is full: it waits until the cut is done (R135). -/
def logWait (s : State) (a : AgentId) (g : Agent) (op : Nat) (f : Fmt) : Bool :=
  timeShared s g.part && (65536 < regLogUsed s a + ((newLogs g (useOf op f)).map logBytes).sum || (storesMem op f && undoFull s g.part))
/-- The agent as an operation's effect finds it: no jump is open, and the registers it writes have their log entries. -/
def acting (s : State) (g : Agent) (u : Use) : Agent :=
  { g with need := 0, logged := if timeShared s g.part then g.logged ++ newLogs g u else g.logged }

/-- Issue one operation: checks, scoreboard, meaning, consequences. -/
def issue (i : Instr) (body : State → AgentId → Agent → Res) (s : State) : Host.Outcome State Fault Refusal :=
  match agent s s.cur with
  | none => .fault .noAgent
  | some g =>
    match opcode i, fmtOf i with
    | some op, some f =>
      let a := s.cur
      match g.trapPend with
      | some (c, v, code) =>
        if code < 0x10000 then .next (raise s a g c v code) else .next (raiseHdr s a g c v)
      | none =>
        match gate s a g i op f with
        | some (.poison, v) =>
          .next (progress (raise s a { g with poison := none } Cause.poison.code v 0))
        | some (c, v) => .next (progress (raise s a g c.code v 0))
        | none =>
          let u := useOf op f
          if mustWait g u || logWait s a g op f then .next (park s a)
          else
            let g1 := settleFor g u
            if g1.poison.isSome && !spawnBegun s a op then .next (progress (raise (setAgent s a g1) a { g1 with poison := none } Cause.poison.code (g1.poison.getD 0) 0))
            else
              let g2 := acting s g1 u
              .next (conclude a (body (setAgent s a g2) a g2))
    | _, _ => .fault .noAgent

/-- A uniform operation takes effect only as R175 allows; otherwise the next word follows. -/
def uniform (c : Common) (body : State → AgentId → Agent → Res) (s : State) (a : AgentId) (g : Agent) : Res :=
  if uniformOk a g c then body s a g else .next s

/-- A word that decodes to nothing is at hand: a poison record comes first (R259, R326). -/
def raiseWord (s : State) (a : AgentId) (g : Agent) : State := match g.poison with
  | some v => raise s a { g with poison := none } Cause.poison.code v 0
  | none => raise s a g Cause.illop.code (curWord g) 0
/-- TRET (R379). -/
def trapReturn (s : State) (a : AgentId) (g : Agent) (nxt : Bool) : Res :=
  if g.recs.length ≠ g.depthAt then .trap s .illop (curWord g)
  else
    let g := { g with tprio := false, suppress := true }
    let at_ (g : Agent) (t : W64) (idx : Nat) : Agent := { enter g t with idx := idx, suppress := true, yielded := false }
    let again (g : Agent) : Agent := { g with need := g.needT, needT := 0 }
    if g.written then .placed (setAgent s a (at_ g g.tpcx 0))
    else match g.posIdx with
      | none => .placed (setAgent s a (at_ (again g) g.posHdr 0))
      | some n =>
        if !nxt then .placed (setAgent s a (at_ (again g) g.posHdr n))
        else if n < g.posCnt then .placed (setAgent s a (at_ g g.posHdr (n + 1)))
        else
          let (t, g) := loopTest g g.posHdr g.posCnt
          .placed (setAgent s a (at_ g t 0))

end Sys2Proof.Machine
end

