-- ==== Sys2Proof/Machine/Fetch.lean ====
section
/-! DEFINITION. Finding the operation of a word: the context's decode table (R232, R246), and the choice of the agent that
issues next (R165, R166). -/

namespace Sys2Proof.Machine

def ctxOf (s : State) (part ctx : Nat) : Option Ctx := s.xl.ctxs.find? (fun c => c.part = part && c.ctxid = ctx)
/-- The published opcode a word's opcode field names in a context (R246): none where the entry is not valid. -/
def mapOpcode (c : Option Ctx) (op : Nat) : Option Nat :=
  match c with
  | some { decode := some t, .. } =>
    let e := t.getD op 0
    if bit e 31 then some (fld e 9 0) else none
  | _ => if assigned op then some op else none
/-- The operation of a word in an agent's context. -/
def decodeIn (s : State) (g : Agent) (w : W64) : Option Instr :=
  (mapOpcode (ctxOf s g.part g.ctx) (w.extractLsb' 0 10).toNat).bind (fun op => decodeAs op w)

end Sys2Proof.Machine
end

