-- ==== Sys2Proof/Machine/System.lean ====
section
/-! DEFINITION. System operations (21 R380 to R386). -/

namespace Sys2Proof.Machine

/-- The current tick of pod time: 125 ns each (R43). -/
def podTick (s : State) : Nat := s.fab.podNs / 125

/-- TRAP without VEC (R381): cause SOFT. -/
def execTrap (f : FmtX) : State → Host.Outcome State Fault Refusal :=
  issue (.trap f) (uniform f.c fun s _ g => .soft s (sget g f.oa.toNat) (nfld f.imm.toNat 14 0))
/-- TRAP.vec (R381): TVEC. -/
def execTrapVec (f : FmtX) : State → Host.Outcome State Fault Refusal :=
  issue (.trapVec f) (uniform f.c fun s a g =>
    let v := sget g f.oa.toNat
    if v.toNat % 8 ≠ 0 || !farOk v.toNat then .trap s .align v else .next (setAgent s a { g with tvec := v }))
/-- TRET (R379). -/
def execTret (f : FmtX) : State → Host.Outcome State Fault Refusal :=
  issue (.tret f) fun s a g => if uniformOk a g f.c then trapReturn s a g (f.imm.toNat % 2 = 1) else .next s
/-- BRK (R382). -/
def execBrk (f : FmtX) : State → Host.Outcome State Fault Refusal :=
  issue (.brk f) fun s a g => if uniformOk a g f.c then .trap s .brk (f.imm.zeroExtend 64) else .next s

/-- The engines of agents that are stopped give up their power tokens (R432). -/
def dropTokens (s : State) (q : Agent → Bool) : State :=
  let free (t : Token) : Bool := s.agents.any (fun e =>
    isStream e.1 && q e.2 && e.2.mx.running && e.2.part = t.part && e.2.die = t.die && e.2.cluster = t.at_)
  { s with part := { s.part with tokens := s.part.tokens.map (fun t => if free t then { t with held := false } else t) } }
/-- Stop a launch on this device (R383, R131): its agents, blocks, teams and records go, without join or release; the
packet is to finish with the detail, first one kept. -/
def stopLaunch (s : State) (l : Nat) (detail : Nat) : State :=
  let gone := (s.agents.filter (fun e => e.2.launch = l)).map Prod.fst
  let s := dropTokens s (fun g => g.launch = l)
  let s := gone.foldl (fun s a => abandon (popLeave (orphanClaims s a) a (fun _ => true)) a) s
  { s with
    fab := { s.fab with mpQueue := mpKeep s.fab.mpQueue (fun m => !m.owner.any gone.contains) }
    agents := s.agents.filter (fun e => e.2.launch ≠ l)
    blocks := s.blocks.filter (fun e => e.2.launch ≠ l)
    waiting := s.waiting.filter (fun a => !gone.contains a)
    sched := { s.sched with
      teams := s.sched.teams.filter (fun t => t.launch ≠ l)
      conts := keepConts s (fun c => c.launch ≠ l)
      launches := s.sched.launches.map (fun x =>
        if x.id = l then { x with liveRecs := 0, halted := true, next := x.teams,
                                  failed := match x.failed with
                                    | some d => some d
                                    | none => some detail } else x) } }
/-- HALT (R383). -/
def execHalt (f : FmtX) : State → Host.Outcome State Fault Refusal :=
  issue (.halt f) (uniform f.c fun s _ g => .placed (stopLaunch s g.launch (fld (sget g f.oa.toNat) 30 0)))
/-- RDTIME (R384). -/
def execRdtime (f : FmtX) : State → Host.Outcome State Fault Refusal :=
  issue (.rdtime f) (uniform f.c fun s a g =>
    let v := match f.imm.toNat with
      | 0 => s.fab.podNs
      | 1 => podTick s
      | _ => s.fab.cycles + Config.coreSkew g.die g.x g.y
    .next (setAgent s a (sset g f.dst.toNat (BitVec.ofNat 64 v))))
/-- A cut is asked for (R136): the earliest request counts until a cut is announced, and after that the latest, which may need one more. -/
def asking (now : Nat) (c : Ck) : Ck := { c with askAt := some (if c.ctick.isSome then now else c.askAt.getD now) }
def askCut (s : State) (part : Nat) : State :=
  { s with ck := s.ck.map (fun c => if c.part = part then asking (podTick s) c else c) }
/-- CHKPT (R385): 0 in a dedicated partition; else it waits for a committed cut whose CTICK follows its issue. -/
def execChkpt (f : FmtX) : State → Host.Outcome State Fault Refusal :=
  issue (.chkpt f) (uniform f.c fun s a g =>
    if !timeShared s g.part then .next (setAgent s a (sset g f.dst.toNat 0))
    else match g.chkptAt, s.ck.find? (fun c => c.part = g.part) with
      | some t, some c =>
        if t < commTickOf c g.fn then
          .next (setAgent s a { sset g f.dst.toNat (BitVec.ofNat 64 (commNoOf c g.fn)) with chkptAt := none })
        else .wait s
      | none, _ => .wait (askCut (setAgent s a { g with chkptAt := some (podTick s) }) g.part)
      | some _, none => .wait s)
/-- WATCH (R386, Table 21-4). -/
def execWatch (f : FmtX) : State → Host.Outcome State Fault Refusal :=
  issue (.watch f) (uniform f.c fun s a g =>
    let i := f.imm.toNat
    let v := sget g f.oa.toNat
    if v.toNat % 2 ^ nfld i 7 4 ≠ 0 then .trap s .align v
    else .next (setAgent s a { g with watch := ins g.watch (nfld i 1 0) ⟨nfld i 10 8, nfld i 7 4, nfld i 3 2, v⟩ }))
/-- UNWATCH (R386). -/
def execUnwatch (f : FmtX) : State → Host.Outcome State Fault Refusal :=
  issue (.unwatch f) (uniform f.c fun s a g => .next (setAgent s a { g with watch := del g.watch (nfld f.imm.toNat 1 0) }))

end Sys2Proof.Machine
end

