-- ==== Sys2Proof/Machine/Vector.lean ====
section
/-! DEFINITION. Vector and quad operations (15). -/

namespace Sys2Proof.Machine

/-! ## Sources (R297, R310). -/

/-- The value of a field in lane l: 64 bits of a pair, or 32 bits; an S register supplies its own bits. -/
def vsrc (g : Agent) (n : BitVec 8) (u w64 : Bool) (l : Nat) : Nat :=
  if u then (if w64 then (sget g n.toNat).toNat else (sget g n.toNat).toNat % 2 ^ 32)
  else if w64 then (vget64 g n.toNat l).toNat else (vget g n.toNat l).toNat
/-- xsrc (R310): lane k's value whether or not it participates, zero once it has exited. -/
def xsrc (g : Agent) (n : BitVec 8) (u w64 : Bool) (k : Nat) : Nat :=
  if u then vsrc g n u w64 k else if g.live.getLsbD k then vsrc g n u w64 k else 0
/-- Write a 32- or 64-bit lane result. -/
def vput (h : Agent) (n : BitVec 8) (w64 : Bool) (l v : Nat) : Agent :=
  if w64 then vset64 h n.toNat l (BitVec.ofNat 64 v) else vset h n.toNat l (BitVec.ofNat 32 v)

/-- The 24-bit draw of stochastic rounding in lane l, element e (R266, R267). -/
def rsDraw (a : AgentId) (g : Agent) (l e : Nat) : Nat :=
  let strm := isStream a
  let seed := fld g.fmt 31 16 + (g.gteam % 2 ^ 16) * 2 ^ 16 + (g.rank % 256) * 2 ^ 32
    + (if strm then 0 else (g.blockNo % 4) * 2 ^ 40 + (warpIdent g % 16) * 2 ^ 42)
  let stream := fld g.fmt 15 8 + 256 * e
  let ctr := fmtRscnt g.fmt * 32 + (if strm then 0 else l)
  fld (gen (BitVec.ofNat 64 seed) (BitVec.ofNat 32 stream) (BitVec.ofNat 64 ctr)) 63 40
/-- RSCNT advances once when at least one lane participates (R267). -/
def rsBump (g : Agent) (rnd : Rnd) (ls : List Nat) : Agent :=
  if rnd = .rs && ls ≠ [] then { g with fmt := bumpRscnt g.fmt } else g

/-- A lane-wise operation: fn gives each participating lane's result and flags from the registers at issue. -/
def laneWise (f : FmtT) (w64 : Bool) (fn : AgentId → Agent → Nat → Nat × FlagBits) (s : State) (a : AgentId) (g : Agent) : Res :=
  let ls := lanes g f.c
  let rs := ls.map (fun l => (l, fn a g l))
  let h := rs.foldl (fun h r => addFlags (vput h f.dst w64 r.1 r.2.1) r.2.2) g
  .next (setAgent s a (rsBump h f.rnd ls))

/-! ## Lane-wise arithmetic (R298, R300, R301). -/

/-- One floating-point element of Table 15-1. -/
def fElem (op : Nat) (sp : FSpec) (rnd : Rnd) (x y z r : Nat) : Nat × FlagBits :=
  let a := fdec sp x
  let b := fdec sp y
  let c := fdec sp z
  let rnd1 (v : FVal × FlagBits) : Nat × FlagBits :=
    let (n, fl) := roundF sp rnd v.1 r
    (n, v.2 ||| fl)
  let exact (v : FVal) : Nat × FlagBits := ((roundF sp .rn v 0).1, 0)
  match op with
  | 0x080 => rnd1 (fadd rnd a b)
  | 0x081 => rnd1 (fadd rnd a (fneg b))
  | 0x082 => rnd1 (fmul a b)
  | 0x083 => rnd1 (ffma rnd a b c)
  | 0x085 => exact (fmin a b)
  | 0x086 => exact (fmax a b)
  | 0x087 => exact (fabs a)
  | 0x088 => exact (fneg a)
  | 0x089 => let (n, fl) := rnd1 (fadd rnd a b); ((exact (fmin (fdec sp n) c)).1, fl)
  | 0x08A => let (n, fl) := rnd1 (fadd rnd a b); ((exact (fmax (fdec sp n) c)).1, fl)
  | _ => exact (fmin (fmax a b) c)
/-- One integer result of Table 15-1. -/
def iElem (op : Nat) (t : Ty) (sat : Bool) (x y z : Nat) : Nat × FlagBits :=
  let a := ival t x
  let b := ival t y
  let c := ival t z
  let back (v : Int) : Nat := wrapN (Ty.bits t) v
  match op with
  | 0x080 => intRes t sat (a + b)
  | 0x081 => intRes t sat (a - b)
  | 0x082 => intRes t sat (a * b)
  | 0x084 => (back ((a * b) / (2 ^ 32 : Nat)), 0)
  | 0x085 => (back (min a b), 0)
  | 0x086 => (back (max a b), 0)
  | 0x087 => intRes t sat (a.natAbs : Int)
  | 0x088 => intRes t sat (-a)
  | 0x089 => let (n, fl) := intRes t sat (a + b); (back (min (ival t n) c), fl)
  | 0x08A => let (n, fl) := intRes t sat (a + b); (back (max (ival t n) c), fl)
  | _ => (back (min (max a b) c), 0)
/-- Element e of a packed register. -/
def elem16 (x e : Nat) : Nat := (x >>> (16 * e)) % 65536
/-- A packed or single floating-point operation over the elements of one register (R298). -/
def packed (t : Ty) (fn : Nat → Nat → Nat → Nat → Nat × FlagBits) (x y z : Nat) : Nat × FlagBits :=
  if Ty.bits t = 16 then
    let (n0, f0) := fn 0 (elem16 x 0) (elem16 y 0) (elem16 z 0)
    let (n1, f1) := fn 1 (elem16 x 1) (elem16 y 1) (elem16 z 1)
    (n0 + 65536 * n1, f0 ||| f1)
  else fn 0 x y z
def vArith (op : Nat) (f : FmtT) (a : AgentId) (g : Agent) (l : Nat) : Nat × FlagBits :=
  let w64 := Ty.bits f.ty = 64
  let x := vsrc g f.oa f.ua w64 l
  let y := vsrc g f.ob f.ub w64 l
  let z := vsrc g f.oc f.uc w64 l
  if Ty.isFloat f.ty then
    packed f.ty (fun e x y z => fElem op (specOf f.ty) f.rnd x y z (rsDraw a g l e)) x y z
  else iElem op f.ty f.sat x y z
def vArithOp (op : Nat) (f : FmtT) : State → AgentId → Agent → Res := laneWise f (Ty.bits f.ty = 64) (vArith op f)
def execVadd (f : FmtT) : State → Host.Outcome State Fault Refusal := issue (.vadd f) (vArithOp 0x080 f)
def execVsub (f : FmtT) : State → Host.Outcome State Fault Refusal := issue (.vsub f) (vArithOp 0x081 f)
def execVmul (f : FmtT) : State → Host.Outcome State Fault Refusal := issue (.vmul f) (vArithOp 0x082 f)
def execVfma (f : FmtT) : State → Host.Outcome State Fault Refusal := issue (.vfma f) (vArithOp 0x083 f)
def execVmulh (f : FmtT) : State → Host.Outcome State Fault Refusal := issue (.vmulh f) (vArithOp 0x084 f)
def execVmin (f : FmtT) : State → Host.Outcome State Fault Refusal := issue (.vmin f) (vArithOp 0x085 f)
def execVmax (f : FmtT) : State → Host.Outcome State Fault Refusal := issue (.vmax f) (vArithOp 0x086 f)
def execVabs (f : FmtT) : State → Host.Outcome State Fault Refusal := issue (.vabs f) (vArithOp 0x087 f)
def execVneg (f : FmtT) : State → Host.Outcome State Fault Refusal := issue (.vneg f) (vArithOp 0x088 f)
def execVaddmin (f : FmtT) : State → Host.Outcome State Fault Refusal := issue (.vaddmin f) (vArithOp 0x089 f)
def execVaddmax (f : FmtT) : State → Host.Outcome State Fault Refusal := issue (.vaddmax f) (vArithOp 0x08A f)
def execVclamp (f : FmtT) : State → Host.Outcome State Fault Refusal := issue (.vclamp f) (vArithOp 0x08B f)

/-! ## Bits, moves, comparisons and predicates (R302 to R304). -/

def vBits (op : Nat) (f : FmtT) (_ : AgentId) (g : Agent) (l : Nat) : Nat × FlagBits :=
  let w := Ty.bits f.ty
  let w64 := w = 64
  let x := vsrc g f.oa f.ua w64 l
  let y := vsrc g f.ob f.ub w64 l
  (match op with
   | 0x090 => x &&& y
   | 0x091 => x ||| y
   | 0x092 => x ^^^ y
   | 0x093 => 2 ^ w - 1 - x % 2 ^ w
   | 0x094 => (x <<< (y % w)) % 2 ^ w
   | 0x095 => x >>> (y % w)
   | 0x096 => wrapN w (sval w x / (2 ^ (y % w) : Nat))
   | 0x097 => lzCount 32 x
   | 0x098 => popCount (BitVec.ofNat 32 x)
   | 0x0A0 => x
   | _ => if pget g f.oc.toNat l then x else y, 0)
def vBitsOp (op : Nat) (f : FmtT) : State → AgentId → Agent → Res := laneWise f (Ty.bits f.ty = 64) (vBits op f)
def execVand (f : FmtT) : State → Host.Outcome State Fault Refusal := issue (.vand f) (vBitsOp 0x090 f)
def execVor (f : FmtT) : State → Host.Outcome State Fault Refusal := issue (.vor f) (vBitsOp 0x091 f)
def execVxor (f : FmtT) : State → Host.Outcome State Fault Refusal := issue (.vxor f) (vBitsOp 0x092 f)
def execVnot (f : FmtT) : State → Host.Outcome State Fault Refusal := issue (.vnot f) (vBitsOp 0x093 f)
def execVshl (f : FmtT) : State → Host.Outcome State Fault Refusal := issue (.vshl f) (vBitsOp 0x094 f)
def execVshr (f : FmtT) : State → Host.Outcome State Fault Refusal := issue (.vshr f) (vBitsOp 0x095 f)
def execVsar (f : FmtT) : State → Host.Outcome State Fault Refusal := issue (.vsar f) (vBitsOp 0x096 f)
def execVclz (f : FmtT) : State → Host.Outcome State Fault Refusal := issue (.vclz f) (vBitsOp 0x097 f)
def execVpopc (f : FmtT) : State → Host.Outcome State Fault Refusal := issue (.vpopc f) (vBitsOp 0x098 f)
def execVmov (f : FmtT) : State → Host.Outcome State Fault Refusal := issue (.vmov f) (vBitsOp 0x0A0 f)
def execVsel (f : FmtT) : State → Host.Outcome State Fault Refusal := issue (.vsel f) (vBitsOp 0x0A1 f)
/-- VMOVI (R302). -/
def execVmovi (f : FmtI) : State → Host.Outcome State Fault Refusal :=
  issue (.vmovi f) fun s a g =>
    .next (setAgent s a ((lanes g f.c).foldl (fun h l => vset h f.dst.toNat l f.imm) g))

/-- A comparison of Table 15-3. -/
def vcmpVal (t : Ty) (code x y : Nat) : Bool :=
  if Ty.isFloat t then
    let sp := specOf t
    let m := if Ty.bits t = 16 then 65536 else 2 ^ 32
    let a := fdec sp (x % m)
    let b := fdec sp (y % m)
    let un := a = .nan || b = .nan
    match code with
    | 0 => feq a b
    | 1 => un || !feq a b
    | 2 => fltOrd false a b
    | 3 => fltOrd false a b || feq a b
    | 4 => fltOrd false b a
    | 5 => fltOrd false b a || feq a b
    | 6 => un
    | _ => !un
  else
    let a := ival t x
    let b := ival t y
    match code with
    | 0 => a = b
    | 1 => a ≠ b
    | 2 => a < b
    | 3 => a ≤ b
    | 4 => b < a
    | _ => b ≤ a
/-- A predicate result in each participating lane. -/
def laneP (f : FmtT) (fn : Agent → Nat → Bool) (s : State) (a : AgentId) (g : Agent) : Res :=
  .next (setAgent s a ((lanes g f.c).foldl (fun h l => pset h f.dst.toNat l (fn g l)) g))
def execVcmp (f : FmtT) : State → Host.Outcome State Fault Refusal :=
  issue (.vcmp f) (laneP f fun g l =>
    let w64 := Ty.bits f.ty = 64
    vcmpVal f.ty f.oc.toNat (vsrc g f.oa f.ua w64 l) (vsrc g f.ob f.ub w64 l))
def execPand (f : FmtT) : State → Host.Outcome State Fault Refusal :=
  issue (.pand f) (laneP f fun g l => pget g f.oa.toNat l && pget g f.ob.toNat l)
def execPor (f : FmtT) : State → Host.Outcome State Fault Refusal :=
  issue (.por f) (laneP f fun g l => pget g f.oa.toNat l || pget g f.ob.toNat l)
def execPxor (f : FmtT) : State → Host.Outcome State Fault Refusal :=
  issue (.pxor f) (laneP f fun g l => pget g f.oa.toNat l != pget g f.ob.toNat l)
def execPnot (f : FmtT) : State → Host.Outcome State Fault Refusal :=
  issue (.pnot f) (laneP f fun g l => !pget g f.oa.toNat l)
def execVp2v (f : FmtT) : State → Host.Outcome State Fault Refusal :=
  issue (.vp2v f) (laneWise f false fun _ g l =>
    (if pget g f.oa.toNat l then (if f.sub.toNat % 2 = 1 then 0xFFFFFFFF else 1) else 0, 0))
def execVv2p (f : FmtT) : State → Host.Outcome State Fault Refusal :=
  issue (.vv2p f) (laneP f fun g l => vsrc g f.oa f.ua false l ≠ 0)

/-! ## Conversions (R305 to R308). -/

/-- x with 16-bit element e replaced. -/
def putElem16 (x e v : Nat) : Nat := if e = 0 then (x / 65536) * 65536 + v % 65536 else x % 65536 + (v % 65536) * 65536
/-- x with byte e replaced. -/
def putByte (x e v : Nat) : Nat := x % 2 ^ (8 * e) + (v % 256) * 2 ^ (8 * e) + (x >>> (8 * (e + 1))) * 2 ^ (8 * (e + 1))
/-- VCVT (R305). -/
def vcvtLane (f : FmtT) (a : AgentId) (g : Agent) (l : Nat) : Nat × FlagBits :=
  let ts := (Ty.ofCode f.ob.toNat).getD .f32
  let x := vsrc g f.oa f.ua false l
  let d := f.sub.toNat % 2
  let src := if Ty.bits ts = 16 then elem16 x (f.sub.toNat / 2) else x
  let v := if Ty.isFloat ts then fdec (specOf ts) src else ofInt (ival ts src)
  let (n, fl) := if Ty.isFloat f.ty then convF f.ty f.rnd (fmtF8sat g.fmt) v (rsDraw a g l d) else convI f.ty f.rnd v
  (if Ty.bits f.ty = 16 then putElem16 (vget g f.dst.toNat l).toNat d n else n, fl)
def execVcvt (f : FmtT) : State → Host.Outcome State Fault Refusal := issue (.vcvt f) (laneWise f false (vcvtLane f))
/-- VF8PK (R306). -/
def vf8pkLane (f : FmtT) (a : AgentId) (g : Agent) (l : Nat) : Nat × FlagBits :=
  let k := f.sub.toNat % 2
  let one (x e : Nat) : Nat × FlagBits := convF f.ty f.rnd (fmtF8sat g.fmt) (fdec spF32 x) (rsDraw a g l e)
  let (n0, f0) := one (vsrc g f.oa f.ua false l) (2 * k)
  let (n1, f1) := one (vsrc g f.ob f.ub false l) (2 * k + 1)
  (putByte (putByte (vget g f.dst.toNat l).toNat (2 * k) n0) (2 * k + 1) n1, f0 ||| f1)
def execVf8pk (f : FmtT) : State → Host.Outcome State Fault Refusal := issue (.vf8pk f) (laneWise f false (vf8pkLane f))
/-- VF8UPK (R306). -/
def execVf8upk (f : FmtT) : State → Host.Outcome State Fault Refusal :=
  issue (.vf8upk f) (laneWise f false fun _ g l =>
    let b := (vsrc g f.oa f.ua false l >>> (8 * f.sub.toNat)) % 256
    ((roundF spF32 .rn (fdec (specOf f.ty) b) 0).1, 0))

/-- First register of n consecutive ones at or above the allocation. -/
def rangeOver (g : Agent) (n k : Nat) : Option Nat := (List.range k).map (n + ·) |>.find? (fun r => g.alloc ≤ r)
/-- Equal reals: a value compared with the extra value (R307). -/
def sameReal (a b : FVal) : Bool := feq a b
/-- VQPACK in one lane: the codes, whether the block is poisoned, the flags (R307). -/
def vqpackLane (f : FmtT) (a : AgentId) (g : Agent) (l : Nat) : Nat × Bool × FlagBits :=
  let sb := (vget g f.ob.toNat l).toNat % 256
  let xs := (List.range 8).map (fun j => fdec spF32 (vget g (f.oa.toNat + j) l).toNat)
  if sb = 0xFF || xs.contains .nan then (0, true, 0)
  else
    let xv := (mget g.xv (fmtXA g.fmt)).toNat % 65536
    let (codes, fl) := (List.range 8).foldl (fun (acc : Nat × FlagBits) j =>
      let x := xs.getD j .nan
      if f.sub.toNat % 2 = 1 && sameReal x (q4val 8 sb xv) then (acc.1 + 8 * 16 ^ j, acc.2)
      else
        let (c, fl) := q4Enc (sb / 64) ((sb % 64 : Nat) - 32) f.rnd x (rsDraw a g l j)
        (acc.1 + c * 16 ^ j, acc.2 ||| fl)) (0, 0)
    (codes, false, fl)
def execVqpack (f : FmtT) : State → Host.Outcome State Fault Refusal :=
  issue (.vqpack f) fun s a g =>
    match rangeOver g f.oa.toNat 8 with
    | some n => .trap s .bounds (BitVec.ofNat 64 n)
    | none =>
      let ls := lanes g f.c
      let h := ls.foldl (fun h l =>
        let (c, bad, fl) := vqpackLane f a g l
        let h := vset h f.dst.toNat l (BitVec.ofNat 32 c)
        let h := if bad then vset h f.ob.toNat l (BitVec.ofNat 32 (putByte (vget h f.ob.toNat l).toNat 0 0xFF)) else h
        addFlags h fl) g
      .next (setAgent s a (rsBump h f.rnd ls))
/-- VQUNPK (R308). -/
def execVqunpk (f : FmtT) : State → Host.Outcome State Fault Refusal :=
  issue (.vqunpk f) fun s a g =>
    match rangeOver g f.dst.toNat 8 with
    | some n => .trap s .bounds (BitVec.ofNat 64 n)
    | none =>
      let xv := (mget g.xv (fmtXA g.fmt)).toNat % 65536
      .next (setAgent s a ((lanes g f.c).foldl (fun h l =>
        let codes := vsrc g f.oa f.ua false l
        let sb := vsrc g f.ob f.ub false l % 256
        (List.range 8).foldl (fun h j =>
          vset h (f.dst.toNat + j) l (BitVec.ofNat 32 (roundF spF32 .rn (q4val ((codes >>> (4 * j)) % 16) sb xv) 0).1)) h) g))

/-! ## Division, roots and approximations (R309). -/

/-- Whether m is a power of two. -/
def isPow2 (m : Nat) : Bool := m ≠ 0 && 2 ^ Nat.log2 m = m
/-- A signed f32 encoding. -/
def withSign (neg : Bool) (b : Nat) : Nat := if neg then b + 0x80000000 else b
/-- Whether the value is an integer. -/
def isIntVal (m : Nat) (e : Int) : Bool := 0 ≤ e || m % 2 ^ (-e).toNat = 0
/-- Twice the value is an odd integer. -/
def isHalfOdd (m : Nat) (e : Int) : Bool := m ≠ 0 && !isIntVal m e && isIntVal m (e + 1)
/-- The integer part of the magnitude. -/
def intMag (m : Nat) (e : Int) : Nat := if 0 ≤ e then m <<< e.toNat else m >>> (-e).toNat

/-! A result is what the implementation answers where that lies within the table's bound of the exact value, and the value rounded to nearest
otherwise, so every result the bound allows is possible and no other (log 7). The bounds of VRCP and VRSQ are tested without rounding; those of
the other functions against a value computed to 96 fractional bits. -/

/-- The implementation's result for the operand, if it passes the bound's test; else another. -/
def pickIf (op x : Nat) (ok : Nat → Bool) (other : Nat) : Nat :=
  let w := (Config.approx op (BitVec.ofNat 32 x)).toNat
  if ok w then w else other
/-- a · 2^i ≤ b · 2^j. -/
def leScaled (a : Nat) (i : Int) (b : Nat) (j : Int) : Bool :=
  if i ≤ j then a ≤ b <<< (j - i).toNat else a <<< (i - j).toNat ≤ b
/-- Exponent of the ulp of an f32 result of magnitude 2^k or more and less than 2^(k + 1) (R309). -/
def ulpExp (k : Int) : Int := max k (-126) - 23
/-- w is a positive result within 1 ulp of 1 / (m · 2^e), m no power of two; below the normal range it is subnormal or zero (Table 15-4). -/
def rcpOk (m : Nat) (e : Int) (w : Nat) : Bool :=
  let u := ulpExp (-((Nat.log2 m : Int) + 1) - e)
  match fdec spF32 w with
  | .fin false n f =>
    let z := min (min (f + e) 0) (e + u)
    let p := (n * m) <<< (f + e - z).toNat
    let q := 1 <<< (-z).toNat
    let d := m <<< (e + u - z).toNat
    p ≤ q + d && q ≤ p + d && (w < 0x00800000 || !magLt 1 126 m e)
  | _ => false
/-- w is a positive result within 2 ulp of 1 / √(m · 2^e). -/
def rsqOk (m : Nat) (e : Int) (w : Nat) : Bool :=
  let l : Int := (Nat.log2 m : Int) + e
  let u := ulpExp (if isPow2 m && l % 2 = 0 then -(l / 2) else -((l + 2) / 2)) + 1
  match fdec spF32 w with
  | .fin false n f =>
    let z := min f u
    let p := n <<< (f - z).toNat
    let d := 1 <<< (u - z).toNat
    leScaled ((p - d) * (p - d) * m) (2 * z + e) 1 0 && leScaled 1 0 ((p + d) * (p + d) * m) (2 * z + e)
  | _ => false
/-- The signed value in units of 2^-96, rounded down, but a positive one to 1 at least: what is not 0 does not become 0. -/
def fixUnits (neg : Bool) (m : Nat) (e : Int) : Int :=
  let k := if 0 ≤ e + 96 then (m <<< (e + 96).toNat : Nat) else max (m >>> (-(e + 96)).toNat) (if neg || m = 0 then 0 else 1)
  if neg then (if 0 ≤ e + 96 || m % 2 ^ (-(e + 96)).toNat = 0 then -(k : Int) else -(k : Int) - 1) else k
/-- 2^128 · 2^(k / 2^96) for a fraction k, from the square roots of 2; c is the root for bit i + 1 from the top. -/
def exp2Fix : Nat → Nat → Nat → Nat → Nat
  | 0, _, _, acc => acc
  | i + 1, c, k, acc =>
    exp2Fix i (isqrt 130 (c <<< 128) 0) k (if k.testBit i then (acc * c) >>> 128 else acc)
/-- 2^(k / 2^96). -/
def exp2Val (k : Int) : FVal :=
  .fin false (exp2Fix 96 (isqrt 130 (2 ^ 257) 0) (k % 2 ^ 96).toNat (2 ^ 128)) (k / 2 ^ 96 - 128)
/-- Bits of the logarithm of y / 2^128, 1 ≤ y / 2^128 < 2, by repeated squaring. -/
def log2Fix : Nat → Nat → Nat → Nat
  | 0, _, acc => acc
  | n + 1, y, acc =>
    let z := (y * y) >>> 128
    if 2 ^ 129 ≤ z then log2Fix n (z >>> 1) (2 * acc + 1) else log2Fix n z (2 * acc)
/-- log2 (m · 2^e) for m not zero. -/
def log2Val (m : Nat) (e : Int) : FVal :=
  let q := Nat.log2 m
  let z : Int := ((q : Int) + e) * 2 ^ 96 + log2Fix 96 (m <<< (128 - q)) 0
  .fin (z < 0) z.natAbs (-96)
/-- sin of t / 2^128, from its series: n terms left, term the term before, k its index. -/
def sinFix : Nat → Nat → Int → Nat → Int
  | 0, _, _, _ => 0
  | n + 1, t, term, k => term + sinFix n t (-(term * t * t / (2 ^ 256 * (k + 1) * (k + 2)))) (k + 2)
/-- sin (π r) of r = k / 2^96, negated if neg, where it is neither 0 nor of magnitude 1. -/
def sinVal (neg : Bool) (k : Nat) : FVal :=
  let r := k % 2 ^ 96
  let q := if 2 ^ 95 < r then 2 ^ 96 - r else r
  let t := (q * 1069028584064966747859680373161870783300) >>> 96
  .fin (neg != (k / 2 ^ 96 % 2 = 1)) (max 1 (min (2 ^ 128 - 1) (sinFix 20 t t 1).natAbs)) (-128)
/-- tanh of a value of magnitude m · 2^e. -/
def tanhVal (neg : Bool) (m : Nat) (e : Int) : FVal :=
  let k := (2 * (fixUnits false m e).toNat * 490923683258796565746369346286093237521) >>> 128
  match exp2Val (-(k : Int)) with
  | .fin _ n f =>
    let g := if -128 ≤ f then n <<< (f + 128).toNat else n >>> (-(f + 128)).toNat
    .fin neg (((2 ^ 128 - g) <<< 128) / (2 ^ 128 + g)) (-128)
  | v => v
/-- n units in the last place of an f32 value, as m · 2^e (R309). -/
def ulps (c : FVal) (n : Nat) : Nat × Int :=
  match c with
  | .fin _ m e => (n, ulpExp ((Nat.log2 m : Int) + e))
  | _ => (0, 0)
/-- Two finite values differ by at most b, and a zero has the sign of the value it stands for (R263). -/
def inBound (w c : FVal) (b : Nat × Int) : Bool :=
  match w, c with
  | .fin s m e, .fin t n f =>
    let q := min (min e f) b.2
    (m ≠ 0 || s = t) && (sInt s m e q - sInt t n f q).natAbs ≤ b.1 <<< (b.2 - q).toNat
  | _, _ => false
/-- The implementation's result for the operand, if it lies within the bound of c; else the nearest value. -/
def pickNear (op x : Nat) (c : FVal) (b : Nat × Int) : Nat :=
  pickIf op x (fun w => inBound (fdec spF32 w) c b) (roundF spF32 .rn c 0).1

/-- The FP32 approximation of Table 15-4: special and exact cases by the table, the rest a result the implementation
fixes per input (R3) inside the table's bound (log 7). The tangent of a magnitude of 1 or more lies below 1, where the ulp is 2^-24. -/
def approxF32 (op x : Nat) : Nat × FlagBits :=
  match fdec spF32 x with
  | .nan => (spF32.dnan, 0)
  | .inf n =>
    match op with
    | 0x0D1 => (withSign n 0, 0)
    | 0x0D2 => if n then (spF32.dnan, fNV) else (0, 0)
    | 0x0D4 => if n then (0, 0) else (0x7F800000, 0)
    | 0x0D5 => if n then (spF32.dnan, fNV) else (0x7F800000, 0)
    | 0x0D6 => (spF32.dnan, fNV)
    | 0x0D7 => (spF32.dnan, fNV)
    | _ => (withSign n 0x3F800000, 0)
  | .fin n m e =>
    match op with
    | 0x0D1 =>
      if m = 0 then (withSign n 0x7F800000, fDZ)
      else
        let q := (fdiv (.fin false 1 0) (.fin false m e)).1
        let low := magLt 1 126 m e
        let r := if isPow2 m then (roundF spF32 .rn q 0).1 else pickIf op x (rcpOk m e) (roundF spF32 (if low then .rz else .rn) q 0).1
        (withSign n r, flagIf low fUF)
    | 0x0D2 =>
      if m = 0 then (withSign n 0x7F800000, fDZ)
      else if n then (spF32.dnan, fNV)
      else
        let q := (fsqrt (fdiv (.fin false 1 0) (.fin false m e)).1).1
        (pickIf op x (rsqOk m e) (roundF spF32 .rn q 0).1, 0)
    | 0x0D4 =>
      if isIntVal m e then
        let k := intMag m e
        if n then (if k > 149 then (0, fUF) else ((roundF spF32 .rn (.fin false 1 (-(k : Int))) 0).1, 0))
        else if k ≥ 128 then (0x7F800000, fOF) else ((roundF spF32 .rn (.fin false 1 k) 0).1, 0)
      else if !n && intMag m e ≥ 128 then (0x7F800000, fOF)
      else if n && intMag m e ≥ 149 then (0, fUF)
      else
        let c := exp2Val (fixUnits n m e)
        (pickNear op x c (ulps c 2), 0)
    | 0x0D5 =>
      if m = 0 then (0xFF800000, fDZ)
      else if n then (spF32.dnan, fNV)
      else if isPow2 m then ((roundF spF32 .rn (ofInt ((Nat.log2 m : Int) + e)) 0).1, 0)
      else
        let c := log2Val m e
        (pickNear op x c (if magLt m e 1 (-1) || magLt 2 0 m e then ulps c 2 else (1, -22)), 0)
    | 0x0D6 =>
      if m = 0 || isIntVal m e then (withSign n 0, 0)
      else if isHalfOdd m e then (withSign (n != (intMag m e % 2 = 1)) 0x3F800000, 0)
      else (pickNear op x (sinVal n (fixUnits false m e).toNat) (1, -22), 0)
    | 0x0D7 =>
      if m = 0 || isIntVal m e then (withSign (intMag m e % 2 = 1) 0x3F800000, 0)
      else if isHalfOdd m e then (0, 0)
      else (pickNear op x (sinVal false ((fixUnits false m e).toNat + 2 ^ 95)) (1, -22), 0)
    | _ =>
      let c := tanhVal n m e
      let ok (w : Nat) : Bool := if magLt m e 1 0 then inBound (fdec spF32 w) c (1, -21) else w % 2 ^ 31 ≤ 0x3F800000 && inBound (fdec spF32 w) c (2, -24)
      (pickIf op x ok (roundF spF32 .rn c 0).1, 0)

/-- One element of a long-latency operation in FP32 (R309): VDIV and VSQRT correctly rounded, the approximations. -/
def longF32 (op : Nat) (rnd : Rnd) (x y : Nat) : Nat × FlagBits :=
  let exact (r : FVal × FlagBits) : Nat × FlagBits :=
    let (n, f2) := roundF spF32 rnd r.1 0
    (n, r.2 ||| f2)
  match op with
  | 0x0D0 => exact (fdiv (fdec spF32 x) (fdec spF32 y))
  | 0x0D3 => exact (fsqrt (fdec spF32 x))
  | _ => approxF32 op x
/-- One element of a long-latency operation (R309): an f16 form computes in FP32 and rounds the result to f16 under rn. -/
def longElem (op : Nat) (t : Ty) (rnd : Rnd) (x y : Nat) : Nat × FlagBits :=
  if t = .f16 then
    let wide (n : Nat) : Nat := (roundF spF32 .rn (fdec spF16 n) 0).1
    let (n, f1) := longF32 op rnd (wide x) (wide y)
    let (m, f2) := roundF spF16 .rn (fdec spF32 n) 0
    (m, f1 ||| f2)
  else longF32 op rnd x y
/-- A long-latency vector operation: every lane's result waits for the window, which opens though no lane takes part (R243, R299). -/
def vLong (op : Nat) (f : FmtT) (s : State) (a : AgentId) (g : Agent) : Res :=
  let rs := (lanes g f.c).map (fun l => (l, packed f.ty (fun _ x y _ => longElem op f.ty f.rnd x y)
    (vsrc g f.oa f.ua false l) (vsrc g f.ob f.ub false l) 0))
  let (id, s) := fresh s
  let res : PendRes := ⟨rs.map (fun r => (f.dst.toNat * 32 + r.1, BitVec.ofNat 32 r.2.1)), [],
                        rs.foldl (fun fl r => fl ||| r.2.2) 0, none⟩
  .next (setAgent s a (addPend g id f.c.la.toNat 0 [⟨0, f.dst.toNat⟩] res))
def execVdiv (f : FmtT) : State → Host.Outcome State Fault Refusal := issue (.vdiv f) (vLong 0x0D0 f)
def execVrcp (f : FmtT) : State → Host.Outcome State Fault Refusal := issue (.vrcp f) (vLong 0x0D1 f)
def execVrsq (f : FmtT) : State → Host.Outcome State Fault Refusal := issue (.vrsq f) (vLong 0x0D2 f)
def execVsqrt (f : FmtT) : State → Host.Outcome State Fault Refusal := issue (.vsqrt f) (vLong 0x0D3 f)
def execVexp2 (f : FmtT) : State → Host.Outcome State Fault Refusal := issue (.vexp2 f) (vLong 0x0D4 f)
def execVlog2 (f : FmtT) : State → Host.Outcome State Fault Refusal := issue (.vlog2 f) (vLong 0x0D5 f)
def execVsin (f : FmtT) : State → Host.Outcome State Fault Refusal := issue (.vsin f) (vLong 0x0D6 f)
def execVcos (f : FmtT) : State → Host.Outcome State Fault Refusal := issue (.vcos f) (vLong 0x0D7 f)
def execVtanh (f : FmtT) : State → Host.Outcome State Fault Refusal := issue (.vtanh f) (vLong 0x0D8 f)

/-! ## Across lanes (R310 to R314). -/

def execQxch (f : FmtT) : State → Host.Outcome State Fault Refusal :=
  issue (.qxch f) (laneWise f (Ty.bits f.ty = 64) fun _ g l =>
    (xsrc g f.oa f.ua (Ty.bits f.ty = 64) (l ^^^ f.sub.toNat), 0))
def execQbrd (f : FmtT) : State → Host.Outcome State Fault Refusal :=
  issue (.qbrd f) (laneWise f (Ty.bits f.ty = 64) fun _ g l =>
    (xsrc g f.oa f.ua (Ty.bits f.ty = 64) (4 * (l / 4) + f.sub.toNat), 0))
/-- The shift amount or lane of R312. -/
def shAmt (f : FmtT) (g : Agent) : Nat := if f.sub.toNat % 2 = 1 then f.ob.toNat else (sget g f.ob.toNat).toNat % 32
def execVshup (f : FmtT) : State → Host.Outcome State Fault Refusal :=
  issue (.vshup f) (laneWise f (Ty.bits f.ty = 64) fun _ g l =>
    let w := Ty.bits f.ty = 64
    let k := shAmt f g
    (if k ≤ l then xsrc g f.oa f.ua w (l - k) else vsrc g f.oc f.uc w l, 0))
def execVshdn (f : FmtT) : State → Host.Outcome State Fault Refusal :=
  issue (.vshdn f) (laneWise f (Ty.bits f.ty = 64) fun _ g l =>
    let w := Ty.bits f.ty = 64
    let k := shAmt f g
    (if l + k ≤ 31 then xsrc g f.oa f.ua w (l + k) else vsrc g f.oc f.uc w l, 0))
def execVshfl (f : FmtT) : State → Host.Outcome State Fault Refusal :=
  issue (.vshfl f) (laneWise f (Ty.bits f.ty = 64) fun _ g l =>
    let w := Ty.bits f.ty = 64
    let i := vsrc g f.ob f.ub false l
    (if i < 32 then xsrc g f.oa f.ua w i else vsrc g f.oc f.uc w l, 0))
def execVbcast (f : FmtT) : State → Host.Outcome State Fault Refusal :=
  issue (.vbcast f) (laneWise f (Ty.bits f.ty = 64) fun _ g _ =>
    (xsrc g f.oa f.ua (Ty.bits f.ty = 64) (shAmt f g), 0))

/-- The identity of an operation of R313. -/
def scanId (code : Nat) (t : Ty) : Nat :=
  let w := Ty.bits t
  match code with
  | 0 => 0
  | 1 => if t = .f32 then 0x7F800000 else wrapN w (tmax t)
  | 2 => if t = .f32 then 0xFF800000 else wrapN w (tmin t)
  | 3 => 2 ^ w - 1
  | _ => 0
/-- One step of the accumulation (R313). -/
def scanStep (code : Nat) (t : Ty) (rnd : Rnd) (sat : Bool) (acc x r : Nat) : Nat × FlagBits :=
  match code with
  | 0 => if t = .f32 then fElem 0x080 spF32 rnd acc x 0 r else iElem 0x080 t sat acc x 0
  | 1 => if t = .f32 then fElem 0x085 spF32 .rn acc x 0 0 else iElem 0x085 t false acc x 0
  | 2 => if t = .f32 then fElem 0x086 spF32 .rn acc x 0 0 else iElem 0x086 t false acc x 0
  | 3 => (acc &&& x, 0)
  | 4 => (acc ||| x, 0)
  | _ => (acc ^^^ x, 0)
/-- The accumulations before and after each participating lane, in order, the last one, and the flags (R313); a NaN is the default NaN (R263). -/
def scanRun (f : FmtT) (a : AgentId) (g : Agent) : List (Nat × Nat × Nat) × Nat × FlagBits :=
  let w64 := Ty.bits f.ty = 64
  (lanes g f.c).foldl (fun (st : List (Nat × Nat × Nat) × Nat × FlagBits) l =>
    let x := vsrc g f.oa f.ua w64 l
    let x := if f.ty = .f32 && f.ob.toNat < 3 && fdec spF32 x = .nan then 0x7FC00000 else x
    let (n, fl) := if st.1 = [] then (x, 0) else scanStep f.ob.toNat f.ty f.rnd f.sat st.2.1 x (rsDraw a g l 0)
    (st.1 ++ [(l, st.2.1, n)], n, st.2.2 ||| fl)) ([], scanId f.ob.toNat f.ty, 0)
def execVscan (f : FmtT) : State → Host.Outcome State Fault Refusal :=
  issue (.vscan f) fun s a g =>
    let (rs, _, fl) := scanRun f a g
    let h := rs.foldl (fun h r => vput h f.dst (Ty.bits f.ty = 64) r.1 (if f.sub.toNat % 2 = 1 then r.2.1 else r.2.2)) g
    .next (setAgent s a (rsBump (addFlags h fl) f.rnd (lanes g f.c)))
/-- VRED (R313): the destination extended as R282 gives, f32 with bits [63:32] zero. -/
def execVred (f : FmtT) : State → Host.Outcome State Fault Refusal :=
  issue (.vred f) fun s a g =>
    let (rs, n, fl) := scanRun f a g
    if rs = [] then .next s
    else
      let v : W64 := if f.ty = .s32 then sext64 32 n else BitVec.ofNat 64 n
      .next (setAgent s a (rsBump (addFlags (sset g f.dst.toNat v) fl) f.rnd (lanes g f.c)))
/-- VVOTE (R314): `.any` and `.all` write true where they hold and false otherwise. -/
def execVvote (f : FmtT) : State → Host.Outcome State Fault Refusal :=
  issue (.vvote f) fun s a g =>
    let ls := lanes g f.c
    let yes := ls.filter (fun l => pget g f.oa.toNat l)
    match f.sub.toNat with
    | 2 => if ls = [] then .next s else .next (setAgent s a (sset g f.dst.toNat ((maskOf 32 yes).zeroExtend 64)))
    | n =>
      let v := if n = 0 then yes ≠ [] else yes.length = ls.length
      .next (setAgent s a (ls.foldl (fun h l => pset h f.dst.toNat l v) g))

/-- PRAND (R315). -/
def execPrand (f : FmtT) : State → Host.Outcome State Fault Refusal :=
  issue (.prand f) (laneWise f (f.ty = .b64) fun _ g l =>
    let r := gen (sget g f.oa.toNat) ((sget g f.ob.toNat).extractLsb' 0 32) ((sget g f.oc.toNat <<< 5) ||| BitVec.ofNat 64 l)
    (match f.ty with
     | .b64 => r.toNat
     | .f32 => (roundF spF32 .rn (.fin false (fld r 63 40) (-24)) 0).1
     | _ => fld r 63 32, 0))

end Sys2Proof.Machine
end

