-- ==== Sys2Proof/Machine/Memory.lean ====
section
/-! DEFINITION. Memory at its homes: HBM, yards and shared memory, poison (R13, R326), undo logs of time-shared partitions
(R135), and the atomics of Table 16-2 as a home performs them (R201, R480). -/

namespace Sys2Proof.Machine

/-! ## HBM and its owners (R123, R478). -/

/-- First device-physical address that is no HBM (R478). -/
def hbmEnd : Nat := 0x9000000000
/-- Number of the HBM unit of an address: 11 to a stack; none in the 4 GiB kept by firmware. -/
def unitOf (pa : Nat) : Option Nat :=
  let st := pa / 0xC00000000
  let u := pa % 0xC00000000 / 0x100000000
  if pa < hbmEnd && u < 11 then some (11 * st + u) else none
/-- Units withdrawn from a partition's far space for undo logs and save areas: its LOGU highest (R134; DESIGN CHOICE, log 33). -/
def logUnits (s : State) (part : Nat) : List Nat :=
  let us := (s.part.units.filter (fun u => u.2 = part)).map Prod.fst
  let n := ((s.part.parts.find? (fun p => p.part = part)).map Part.logu).getD 0
  us.filter (fun u => (us.filter (fun x => u < x)).length < n)
/-- The partition in whose far space the HBM unit of an address lies: none for a unit withdrawn, or of a lost stack (R15, R134). -/
def hbmOwner (s : State) (pa : Nat) : Option Nat :=
  (unitOf pa).bind (fun u => (lkp s.part.units u).filter (fun p => !s.mod.stackLost.getLsbD (u / 11) && !(logUnits s p).contains u))

def modCk (s : State) (part : Nat) (f : Ck → Ck) : State :=
  { s with ck := s.ck.map (fun c => if c.part = part then f c else c) }
/-- The interval a tenant's write is logged in: the latest, or, while what the tenant left is still to be undone, the last of those that
go (R138 step 6). -/
def logIv (c : Ck) (ten : Nat) : Nat := ((c.undoWait.find? (fun w => w.1 = ten)).map (fun w => w.2 - 1)).getD c.cutNo
/-- A 64-byte line of a kind of memory takes its entry in the undo log (R135). -/
def logLine (ten kind line : Nat) (c : Ck) : Ck :=
  if c.lines.contains (ten, logIv c ten, kind, line) then c else { c with lines := c.lines ++ [(ten, logIv c ten, kind, line)] }
/-- Lines of yard or shared memory of a time-shared partition's running tenant take their entries. -/
def logLines (s : State) (part kind lo n : Nat) : State :=
  modCk s part (fun c => (List.range ((lo + n - 1) / 64 + 1 - lo / 64)).foldl (fun c i => logLine c.tenant kind (lo / 64 + i) c) c)
/-- Lines of a block's shared memory take their undo entries. -/
def logBlock (s : State) (b o n : Nat) : State := match block s b with
  | some k => logLines s k.part 2 (b * 2 ^ 20 + o) n
  | none => s
/-- Log the old value of an HBM byte the first time it is written since the latest cut, for the running tenant or for a given
one (R97, R135). -/
def logByte (ten : Option Nat) (s : State) (pa : Nat) : State :=
  match hbmOwner s pa with
  | none => s
  | some p =>
    modCk s p (fun c =>
      let t := ten.getD c.tenant
      let iv := logIv c t
      if c.undo.any (fun u => u.1 = t && u.2.1 = iv && u.2.2.1 = pa) then c
      else logLine t 0 (pa / 64) { c with undo := c.undo ++ [(t, iv, pa, mget s.mem.hbm pa)] })

/-- Write HBM bytes without logging: firmware, walkers, and what the network engine writes for a posted request (R135). -/
def hbmPut (s : State) (pa : Nat) (bs : List Byte) : State :=
  { s with mem := { s.mem with hbm := writeBytes s.mem.hbm pa bs } }
/-- Write HBM bytes, logged where a time-shared partition owns them. -/
def hbmWriteFor (ten : Option Nat) (s : State) (pa : Nat) (bs : List Byte) : State :=
  hbmPut ((List.range bs.length).foldl (fun s i => logByte ten s (pa + i)) s) pa bs
/-- The address lies in a stack whose service cores have both failed (R15). -/
def lostPa (lost : BitVec 12) (pa : Nat) : Bool := pa < hbmEnd && lost.getLsbD (pa / 0xC00000000)
def lostAt (s : State) (pa : Nat) : Bool := lostPa s.mod.stackLost pa
def hbmWrite (s : State) (pa : Nat) (bs : List Byte) : State := hbmWriteFor none s pa bs
def hbmNum (s : State) (pa n : Nat) : Nat := readNum s.mem.hbm pa n

/-- Yard key of byte w of a cluster's slice. -/
def yardKey (die cluster w : Nat) : Nat := die * 2 ^ 27 + cluster * 2 ^ 22 + w
/-- Owned clusters of a partition on a die, ascending (Table 6-1). -/
def clustersOf (s : State) (part die : Nat) : List Nat :=
  match s.part.parts.find? (fun p => p.part = part) with
  | some p => (List.range 32).filter (fun c => p.cgrp.getLsbD (4 * die + c / 8))
  | none => []
/-- The partition that owns the cluster a yard key lies in. -/
def yardOwner (s : State) (k : Nat) : Option Nat :=
  (s.part.parts.find? (fun p => p.cgrp.getLsbD (4 * (k / 2 ^ 27) + k % 2 ^ 27 / 2 ^ 22 / 8))).map Part.part
/-- Yard offset to its slice and place (R199). -/
def yardPlace (cs : List Nat) (die o : Nat) : Nat :=
  let n := cs.length
  yardKey die (cs.getD ((o / 4096) % n) 0) ((o / (4096 * n)) * 4096 + o % 4096)
def yardWrite (s : State) (k : Nat) (bs : List Byte) : State :=
  let s := match yardOwner s k with
    | some p => logLines s p 1 k bs.length
    | none => s
  { s with mem := { s.mem with yard := writeBytes s.mem.yard k bs } }

/-! ## Host memory (R347). -/

def rangesMeet (a n b m : Nat) : Bool := a < b + m && b < a + n
/-- The read belongs to an atomic. -/
def actAtomic : HostAct → Bool
  | .atomic _ _ _ _ _ => true
  | .ioAtom _ _ => true
  | .reply p => match p.body with
    | .atomic _ => true
    | .cas _ => true
    | _ => false
  | _ => false
/-- Two `.ord` atomics of one agent (R323). -/
def bothOrdered (x r : HostRead) : Bool := match x.act, r.act with
  | .atomic a _ _ true _, .atomic b _ _ true _ => a = b && x.born = r.born
  | _, _ => false
/-- An atomic's read leaves only after every earlier atomic on its bytes, and of an ordered one every earlier ordered one of its warp, has been
performed (R323, R331). -/
def hostIssued (s : State) (r : HostRead) : Bool :=
  !actAtomic r.act || !(s.host.reads.takeWhile (fun x => x.id ≠ r.id)).any (fun x =>
    (actAtomic x.act && rangesMeet x.addr x.len r.addr r.len) || bothOrdered x r)
/-- A store to host memory is posted; an atomic whose read is out on its bytes counts it as the earlier of the two, so that the atomic reads
and writes at one instant (R331). -/
def hostPost (s : State) (pasid addr : Nat) (bs : List Byte) : State :=
  let hit (r : HostRead) : HostRead :=
    if actAtomic r.act && hostIssued s r && rangesMeet r.addr r.len addr bs.length then { r with patch := r.patch ++ [(addr, bs)] } else r
  { s with host := { s.host with writes := s.host.writes ++ [(pasid, addr, bs)], reads := s.host.reads.map hit } }
/-- Posted writes carry poison to lines of host memory (R399, R326). -/
def hostBad (s : State) (pasid : Nat) (lines : List Nat) : State :=
  { s with host := { s.host with badPosts := s.host.badPosts ++ (lines.eraseDups).map (fun l => (pasid, l)) } }
/-- The value an atomic's read finds: its bytes with the stores posted meanwhile. -/
def hostSeen (r : HostRead) (data : List Byte) : List Byte :=
  r.patch.foldl (fun d p => (List.range d.length).map (fun i =>
    if p.1 ≤ r.addr + i && r.addr + i < p.1 + p.2.length then p.2.getD (r.addr + i - p.1) 0 else d.getD i 0)) data

/-! ## Poison (R13, R326). -/

/-- Some byte of the access lies in a poisoned line. Lines of a lost stack count as poisoned (R15; DESIGN CHOICE, log 65). -/
def poisoned (s : State) (yard : Bool) (a n : Nat) : Bool :=
  s.mem.poison.any (fun p => p.2 = yard && a / 64 ≤ p.1 && p.1 ≤ (a + n - 1) / 64) || (!yard && lostAt s a)
def setPoison (s : State) (yard : Bool) (line : Nat) (b : Bool) : State :=
  let ps := s.mem.poison.filter (fun p => p ≠ (line, yard))
  { s with mem := { s.mem with poison := if b then ps ++ [(line, yard)] else ps } }
/-- Lines that the accesses of one instruction write whole. -/
def wholeLines (ws : List (Nat × Nat)) : List Nat :=
  ((ws.map (fun w => w.1 / 64)).eraseDups).filter (fun l =>
    (List.range 64).all (fun i => ws.any (fun w => w.1 ≤ 64 * l + i && 64 * l + i < w.1 + w.2)))
/-- Lines written whole become clean. -/
def cleanLines (s : State) (yard : Bool) (ws : List (Nat × Nat)) : State :=
  (wholeLines ws).foldl (fun s l => setPoison s yard l false) s

/-! ## What a home does. -/

/-- The value of an access at its home: bytes, or zeros and a poison mark (R326). -/
def hbmRead (s : State) (pa n : Nat) : List Byte × Bool :=
  if poisoned s false pa n then (List.replicate n 0, true) else (readBytes s.mem.hbm pa n, false)
def yardRead (s : State) (k n : Nat) : List Byte × Bool :=
  if poisoned s true k n then (List.replicate n 0, true) else (readBytes s.mem.yard k n, false)

/-- One step of an atomic (Table 16-2): the new value and its flags. op: 0 add, 1 min, 2 max, 3 and, 4 or, 5 xor, 6 exch. -/
def atomStep (op : Nat) (t : Ty) (v x : Nat) : Nat × FlagBits :=
  let code := if op = 0 then 0x080 else if op = 1 then 0x085 else 0x086
  match op with
  | 3 => (v &&& x, 0)
  | 4 => (v ||| x, 0)
  | 5 => (v ^^^ x, 0)
  | 6 => (x, 0)
  | _ => if t = .f32 then fElem code spF32 .rn v x 0 0 else ((iElem code t false v x 0).1, 0)
/-- A group's fetched values in lane order, the last value and the flags (R201). -/
def atomRun (op : Nat) (t : Ty) : Nat → List Nat → List Nat × Nat × FlagBits
  | v, [] => ([], v, 0)
  | v, x :: r =>
    let (v', f) := atomStep op t v x
    let (fs, e, fl) := atomRun op t v' r
    (v :: fs, e, f ||| fl)
/-- The same for compare-and-swap. -/
def casRun : Nat → List (Nat × Nat) → List Nat × Nat
  | v, [] => ([], v)
  | v, (c, n) :: r =>
    let (fs, e) := casRun (if v = c then n else v) r
    (v :: fs, e)
/-- Type of a group's values. -/
def reqTy : AtomReq → Ty
  | .rmw _ t _ => t
  | .cas t _ => t
/-- Fetched values, last value, flags. -/
def reqRun (q : AtomReq) (v : Nat) : List Nat × Nat × FlagBits :=
  match q with
  | .rmw op t xs => atomRun op t v xs
  | .cas _ ps => let (fs, e) := casRun v ps; (fs, e, 0)

/-- Perform a group at HBM: the value before it, and whether it met poison, which leaves the home unchanged (R326). -/
def hbmAtomFor (ten : Option Nat) (s : State) (pa : Nat) (q : AtomReq) : State × Nat × Bool :=
  let n := Ty.bytes (reqTy q)
  if poisoned s false pa n then (s, 0, true)
  else
    let v := hbmNum s pa n
    (hbmWriteFor ten s pa (leBytes n (reqRun q v).2.1), v, false)
def hbmAtom (s : State) (pa : Nat) (q : AtomReq) : State × Nat × Bool := hbmAtomFor none s pa q
/-- The same at the yard. -/
def yardAtom (s : State) (k : Nat) (q : AtomReq) : State × Nat × Bool :=
  let n := Ty.bytes (reqTy q)
  if poisoned s true k n then (s, 0, true)
  else
    let v := readNum s.mem.yard k n
    (yardWrite s k (leBytes n (reqRun q v).2.1), v, false)

end Sys2Proof.Machine
end

