-- ==== Sys2Proof/Machine/Walk.lean ====
section
/-! DEFINITION. The home map and the two-stage walk of the far space (03 R57 to R62). -/

namespace Sys2Proof.Machine

/-! ## The home map (R57, R58). -/

/-- Where a granule is homed, or why it has no home. -/
inductive Home where
  | at_ (l : Loc) | xlate | perm
  deriving DecidableEq, Repr

def partOf (s : State) (p : Nat) : Option Part := s.part.parts.find? (fun x => x.part = p)
/-- The partition owns device p. -/
def ownsDev (s : State) (part p : Nat) : Bool := match partOf s part with
  | some x => x.devs.getLsbD p
  | none => false
/-- The partition owns junction j: a port toward it. -/
def ownsJct (s : State) (part j : Nat) : Bool := match partOf s part with
  | some x => x.fports.getLsbD j
  | none => false
/-- The leaf entry of a granule in the home map, where its leaf table exists (R57). -/
def leafWord (s : State) (c : Ctx) (g : Nat) : Option Nat :=
  let d := hbmNum s (c.homemap + 8 * (g / 8192)) 8
  if d % 2 = 0 then none else some (hbmNum s (nfld d 51 12 * 4096 + 4 * (g % 8192)) 4)
/-- What a leaf entry says (R58, Table 3-2). -/
def homeFrom (s : State) (c : Ctx) (w : Option Nat) : Home :=
  match w with
  | none => .xlate
  | some e =>
    let num := nfld e 7 0
    if nfld e 31 31 = 0 || nfld e 30 26 ≠ 0 || nfld e 23 8 ≠ 0 then .xlate
    else match nfld e 25 24 with
      | 0 => if 143 < num then .xlate else if ownsDev s c.part num then .at_ (.dev num) else .perm
      | 1 => if 17 < num then .xlate else if ownsJct s c.part num then .at_ (.jct num) else .perm
      | 2 => if 143 < num then .xlate else if ownsDev s c.part num then .at_ (.host num) else .perm
      | _ => .xlate
/-- Home of a far address in a context, by the table itself. -/
def homeOf (s : State) (c : Ctx) (va : Nat) : Home := homeFrom s c (leafWord s c (va / 2 ^ 30))
/-- The first n entries of a place are kept, in a list with the newest first: the oldest go (which go is open: log 66). -/
def keepFirst {α : Type} (mine : α → Bool) : Nat → List α → List α
  | _, [] => []
  | n, x :: r => if mine x then (match n with
    | 0 => keepFirst mine 0 r
    | k + 1 => x :: keepFirst mine k r) else x :: keepFirst mine n r
/-- Home of a far address through a die's cache of 256 leaf entries (R59). -/
def homeVia (s : State) (die : Nat) (c : Ctx) (va : Nat) : State × Home :=
  let g := va / 2 ^ 30
  match s.xl.leafs.find? (fun x => x.1 = die && x.2.1 = c.homemap && x.2.2.1 = g) with
  | some x => (s, homeFrom s c (some x.2.2.2))
  | none => match leafWord s c g with
    | none => (s, .xlate)
    | some e => ({ s with xl := { s.xl with leafs := keepFirst (fun x => x.1 = die) 256 ((die, c.homemap, g, e) :: s.xl.leafs) } }, homeFrom s c (some e))

/-! ## Radix tables (R60, R61). -/

/-- A leaf found: the address of its entry, the entry, its frame and size. -/
structure Leaf where
  ea : Nat
  e  : Nat
  fr : Nat
  sz : Nat
  deriving DecidableEq, Repr
inductive Ent where
  | next (fr : Nat) | leaf (fr sz : Nat) | bad
  deriving DecidableEq, Repr
def eV (e : Nat) : Bool := nfld e 0 0 = 1 && nfld e 63 52 = 0 && nfld e 11 9 = 0 && nfld e 1 1 = 0
def eLeaf (e : Nat) : Bool := nfld e 2 2 = 1
def eFrame (e : Nat) : Nat := nfld e 51 12 * 4096
/-- The 64 KiB page a C entry at ea belongs to, where its group meets every condition of R61. -/
def cGroup (m : Memory) (ea : Nat) : Option Nat :=
  let es := (List.range 16).map (fun i => readNum m (alignDown ea 128 + 8 * i) 8)
  let e0 := es.headD 0
  let f0 := eFrame e0
  if f0 % 65536 = 0 && (List.range 16).all (fun i =>
      let e := es.getD i 0
      eV e && eLeaf e && nfld e 8 8 = 1 && eFrame e = f0 + 4096 * i && nfld e 5 3 = nfld e0 5 3)
  then some f0 else none
def lvShift (lv : Nat) : Nat := 12 + 9 * lv
/-- What an entry at a level says (R61). -/
def classify (m : Memory) (lv ea e : Nat) : Ent :=
  if !eV e then .bad
  else if !eLeaf e then (if lv = 0 then .bad else .next (eFrame e))
  else if 3 ≤ lv then .bad
  else if eFrame e % 2 ^ lvShift lv ≠ 0 then .bad
  else if lv = 0 && nfld e 8 8 = 1 then
    match cGroup m ea with
    | some f => .leaf f 65536
    | none => .leaf (eFrame e) 4096
  else .leaf (eFrame e) (2 ^ lvShift lv)
def levels : List Nat := [4, 3, 2, 1, 0]
/-- Address of the entry for address a in the table page t at a level. -/
def entAt (t lv a : Nat) : Nat := t + 8 * (a / 2 ^ lvShift lv % 512)
/-- An intermediate entry of a walk cache: stage 2, level, address bits above the next level's, and the table page named (R63). -/
abbrev WCache := List (Bool × Nat × Nat × Nat)
def wcFind (wc : WCache) (two : Bool) (lv a : Nat) : Option Nat :=
  (wc.find? (fun x => x.1 = two && x.2.1 = lv && x.2.2.1 = a / 2 ^ lvShift lv)).map (fun x => x.2.2.2)
/-- Stage-2 walk of a guest-physical address from a table page, with the intermediate entries it read. A table in a lost stack holds no entry
(R15; DESIGN CHOICE, log 65). An entry that is no entry of R61 is a stage-2 miss like an absent one: R61 lets a walk fault, R64 lets no stage-2
miss trap the guest (DESIGN CHOICE, log 75). -/
def walk2 (lost : BitVec 12) (m : Memory) (wc : WCache) : List Nat → Nat → Nat → WCache → Option Leaf × WCache
  | [], _, _, new => (none, new)
  | lv :: r, t, a, new => match wcFind wc true lv a with
    | some fr => walk2 lost m wc r fr a new
    | none =>
      let ea := entAt t lv a
      let e := readNum m ea 8
      if lostPa lost ea then (none, new)
      else match classify m lv ea e with
      | .bad => (none, new)
      | .next fr => walk2 lost m wc r fr a (new ++ [(true, lv, a / 2 ^ lvShift lv, fr)])
      | .leaf fr sz => (some ⟨ea, e, fr, sz⟩, new)
/-- Outcome of stage 1: the leaf, or a stage-2 miss at a table page, a bad entry, or a table page in a lost stack; with the stage-2 leaves read and
the guest-physical address of the last table page. -/
inductive W1 where
  | ok (l : Leaf) (t : Nat) | miss (gpa : Nat) | bad | lost
  deriving DecidableEq, Repr
/-- Stage-1 walk: each table page that is read is reached through stage 2 (R60). A read of one needs no right in its stage-2 leaf: R62 asks for W
where the walker updates, and names none for reads (DESIGN CHOICE, log 67). -/
def walk1 (lost : BitVec 12) (m : Memory) (wc : WCache) (root2 : Nat) : List Nat → Nat → Nat → List Nat → WCache → W1 × List Nat × WCache
  | [], _, _, acc, new => (.bad, acc, new)
  | lv :: r, t, a, acc, new => match wcFind wc false lv a with
    | some fr => walk1 lost m wc root2 r fr a acc new
    | none => match walk2 lost m wc levels root2 t new with
      | (none, new) => (.miss t, acc, new)
      | (some L, new) =>
        let ea := entAt (L.fr + t % L.sz) lv a
        let e := readNum m ea 8
        if lostPa lost ea then (.lost, acc, new)
        else
          let acc := acc ++ [L.ea]
          match classify m lv ea e with
          | .bad => (.bad, acc, new)
          | .next fr => walk1 lost m wc root2 r fr a acc (new ++ [(false, lv, a / 2 ^ lvShift lv, fr)])
          | .leaf fr sz => (.ok ⟨ea, e, fr, sz⟩ t, acc, new)

/-- Set bits of an entry (A bit 6, D bit 7). -/
def orEnt (m : Memory) (ea bits : Nat) : Memory := writeBytes m ea (leBytes 8 (readNum m ea 8 ||| bits))
/-- Permission bits an access needs: RD 8, W 16, X 32 (Table 3-3). -/
def accNeed : Acc → Nat
  | .rd => 8 | .wr => 16 | .rw => 24 | .fetch => 32
def accWrites : Acc → Bool
  | .wr => true | .rw => true | _ => false
/-- How a whole walk ends: a translation (page, size, frame, guest-physical frame, permission bits, written), a stage-2
request, or a fault. -/
inductive WalkR where
  | ok (va sz pa gpa perm : Nat) (d : Bool)
  | s2 (gpa : Nat) (w : Bool)
  | xlate | perm
  deriving DecidableEq, Repr
/-- The two-stage walk with its updates of A and D (R60 to R62, R64), through a walk cache; with the intermediate entries it read. A stage-1 table
page that stage 2 places in a lost stack is PERM, as a frame of no partition is (R15; DESIGN CHOICE, log 65). -/
def walkAll (lost : BitVec 12) (m : Memory) (wc : WCache) (root1 root2 va : Nat) (acc : Acc) : Memory × WalkR × WCache :=
  let (w, reads, new) := walk1 lost m wc root2 levels root1 va [] []
  let m := reads.foldl (fun m ea => orEnt m ea 64) m
  let need := accNeed acc
  let add := if accWrites acc then 192 else 64
  match w with
  | .miss gpa => (m, .s2 gpa false, new)
  | .bad => (m, .xlate, new)
  | .lost => (m, .perm, new)
  | .ok l t =>
    let g := l.fr + va % l.sz
    if l.e &&& need ≠ need then (m, .perm, new)
    else match walk2 lost m wc levels root2 g new with
      | (none, new) => (m, .s2 g (accWrites acc), new)
      | (some l2, new) =>
        if l2.e &&& need ≠ need then (m, .s2 g (accWrites acc), new)
        else
          let tl := reads.getLastD 0
          let upd := (l.e ||| add) ≠ l.e
          if upd && nfld (readNum m tl 8) 4 4 = 0 then (m, .s2 t true, new)
          else
            let m := if upd then orEnt (orEnt m tl 192) l.ea add else m
            let m := orEnt m l2.ea add
            let sz := min l.sz l2.sz
            let off := va % sz
            let pa := l2.fr + g % l2.sz - off
            if hbmEnd ≤ pa then (m, .xlate, new)
            else (m, .ok (va - off) sz pa (g - off) (l.e &&& l2.e) (nfld ((l.e ||| add) &&& (l2.e ||| add)) 7 7 = 1), new)

/-- The guest-physical address stage 1 gives a far address. -/
def gpaOf (lost : BitVec 12) (m : Memory) (root1 root2 va : Nat) : Option Nat := match (walk1 lost m [] root2 levels root1 va [] []).1 with
  | .ok l _ => some (l.fr + va % l.sz)
  | _ => none

end Sys2Proof.Machine
end

