-- ==== Sys2Proof/Machine/Send.lean ====
section
/-! DEFINITION. The source side of the word plane: ports, streams, entries and their completion (02 R35 to R41, R51; 16
R324, R325). -/

namespace Sys2Proof.Machine

/-! ## Ports (R35, R51). -/

/-- TGT number of a location (Table 2-3). -/
def tgtOf : Loc → Nat
  | .dev p => p | .host p => p | .jct j => 144 + j
/-- Junction j shows device p down in the link map (R47). -/
def mapDown (s : State) (j p : Nat) : Bool := ((lkp s.fab.linkDownMap j).getD []).contains p
/-- Owned ports with a live path to a target: toward junction j only FPj serves (R25). -/
def livePorts (s : State) (part tgt : Nat) : List Nat :=
  (List.range 18).filter (fun j => ownsJct s part j && s.fab.fabUp.getLsbD j
    && (if 144 ≤ tgt then j = tgt - 144 else !mapDown s j tgt))
/-- Device ports of junction j that a partition owns. -/
def jPorts (s : State) (j part : Nat) : List Nat := ((s.fab.jRoute.find? (fun r => r.1 = j && r.2.1 = part)).map (fun r => r.2.2)).getD []
/-- A route of the partition leads from an input port to a target number (R52). -/
def jRouteOk (s : State) (j part port tgt : Nat) : Bool :=
  let ps := jPorts s j part
  ps.contains port && (if tgt < 144 then ps.contains tgt else tgt = 144 + j)
/-- The next owned port after the one last used (R35), of those not to be avoided while there is one. -/
def nextPort (s : State) (avoid : List Nat) (part tgt : Nat) : Option Nat :=
  let all := livePorts s part tgt
  let ps := if all.all avoid.contains then all else all.filter (fun j => !avoid.contains j)
  match lkp s.fab.rotate part with
  | none => ps.head?
  | some last => match ps.find? (fun j => last < j) with
    | some j => some j
    | none => ps.head?
/-- Low 16 bits of pod time in ticks (STAMP). -/
def stampNow (s : State) : BitVec 16 := BitVec.ofNat 16 (podTick s)
/-- Send a packet on the next owned port; with no live path nothing leaves. -/
def emitBut (s : State) (avoid : List Nat) (p : Packet) : State :=
  match nextPort s avoid p.part.toNat p.tgt.toNat with
  | none => s
  | some j => { s with fab := { s.fab with rotate := ins s.fab.rotate p.part.toNat j, outbox := s.fab.outbox ++ [(j, p)] } }
def emit (s : State) (p : Packet) : State := emitBut s [] p
/-- This device's number as SRC. -/
def selfDev (s : State) : BitVec 8 := BitVec.ofNat 8 s.mod.poddev
/-- A packet of this device before its sequence number or tag is set. -/
def mkPkt (s : State) (part : Nat) (gen : BitVec 16) (tgt kind : Nat) (body : PktBody) : Packet :=
  { low := 0, rsv := 0, psn := false, rtx := false, stamp := stampNow s, gen, part := BitVec.ofNat 16 part,
    tgt := BitVec.ofNat 8 tgt, src := selfDev s, seq := 0, kind := BitVec.ofNat 8 kind, body }

/-! ## Streams (R36, R41). -/

/-- a ≥ b modulo 2^24 (R41). -/
def seqGe (a b : BitVec 24) : Bool := (a - b).toNat < 2 ^ 23
def isSeq (e : Entry) (tgt part : Nat) : Bool := match e.ref with
  | .seq t p _ => t = tgt && p = part
  | .tag _ => false
def seqOf (e : Entry) : BitVec 24 := match e.ref with
  | .seq _ _ q => q
  | .tag t => t
def srcOf (s : State) (tgt part : Nat) : SrcStream :=
  (s.fab.srcs.find? (fun x => x.tgt = tgt && x.part = part)).getD
    ⟨tgt, part, false, 0, (lkp s.fab.partReset part).getD 0, none⟩
def setSrc (s : State) (x : SrcStream) : State :=
  { s with fab := { s.fab with srcs := x :: s.fab.srcs.filter (fun y => !(y.tgt = x.tgt && y.part = x.part)) } }
/-- Oldest unacknowledged number of a stream; the next number when nothing is outstanding. -/
def oldest (s : State) (tgt part : Nat) (next : BitVec 24) : BitVec 24 :=
  ((s.fab.entries.filter (fun e => isSeq e tgt part)).map seqOf).foldl (fun m q => if seqGe q m then m else q) next
/-- Put an entry in flight with its number, and send it. -/
def launchSeq (s : State) (e : Entry) (q low : BitVec 24) : State :=
  let p := { e.pkt with seq := q, low := low, stamp := stampNow s }
  let e := { e with ref := .seq p.tgt.toNat p.part.toNat q, pkt := p, first := s.fab.podNs, last := s.fab.podNs }
  emit { s with fab := { s.fab with entries := s.fab.entries ++ [e] } } p
/-- Send one waiting sequenced packet if its stream is running and its window has room. -/
def trySeq (s : State) (e : Entry) : Option State :=
  let t := e.pkt.tgt.toNat
  let p := e.pkt.part.toNat
  let x := srcOf s t p
  let low := oldest s t p x.next
  if x.run && (x.next - low).toNat < 1024 then
    some (launchSeq (setSrc s { x with next := x.next + 1 }) e x.next low)
  else none
/-- Send every waiting packet that can leave, oldest first. -/
def pumpList (s : State) : List Entry → State
  | [] => s
  | e :: r => match trySeq s e with
    | some s' => pumpList s' r
    | none => pumpList { s with fab := { s.fab with waitQ := s.fab.waitQ ++ [e] } } r
def pump (s : State) : State := pumpList { s with fab := { s.fab with waitQ := [] } } s.fab.waitQ
/-- A sequenced packet is ready to leave. -/
def sendSeq (s : State) (e : Entry) : State := pump { s with fab := { s.fab with waitQ := s.fab.waitQ ++ [{ e with first := s.fab.podNs }] } }
/-- A read leaves with a fresh read tag (R36, R71). -/
def sendReadBut (s : State) (avoid : List Nat) (e : Entry) : State :=
  let t := s.fab.nextTag
  let p := { e.pkt with seq := t, stamp := stampNow s }
  let e := { e with ref := .tag t, pkt := p, first := s.fab.podNs, last := s.fab.podNs }
  emitBut { s with fab := { s.fab with nextTag := t + 1, deadTags := s.fab.deadTags.filter (fun x => x.1 ≠ t), entries := s.fab.entries ++ [e] } } avoid p
def sendRead (s : State) (e : Entry) : State := sendReadBut s [] e
/-- Every stream of a partition enters reset form at its ends on this device (R41). -/
def resetStreams (s : State) (part : Nat) : State :=
  { s with fab := { s.fab with
      srcs := s.fab.srcs.filter (fun x => x.part ≠ part)
      partReset := ins s.fab.partReset part s.fab.podNs
      tgts := s.fab.tgts.filter (fun x => x.part ≠ part) } }

/-! ## Entries of a warp (R324, R332). -/

def coreOf : AgentId → Option CoreId
  | .warp c _ => some c
  | .stream _ _ => none
/-- Entries of a core's outstanding-write table, and its read tags, in use. -/
def coreWrites (s : State) (c : CoreId) : Nat :=
  ((allEntries s).filter (fun e => isWriteEntry e && (ownerAgent e.owner).bind coreOf = some c)).length
def coreTags (s : State) (c : CoreId) : Nat :=
  (s.fab.entries.filter (fun e => !isWriteEntry e && (ownerAgent e.owner).bind coreOf = some c)).length
/-- The table, the tags and FARW have room for w sequenced packets and r reads of an agent (R324). -/
def sendRoom (s : State) (a : AgentId) (g : Agent) (w r : Nat) : Bool :=
  (match coreOf a with
    | some c => (w = 0 || coreWrites s c + w ≤ 2048) && (r = 0 || coreTags s c + r ≤ 1024)
    | none => true) && farwGet g + w ≤ 1023
/-- The entry, or the read of host memory, is of this agent: not of one that had its slot before. -/
def entryOfAgent (a : AgentId) (g : Agent) (e : Entry) : Bool := ownerAgent e.owner = some a && e.born = g.born
def ioAgentOf (s : State) (n : Nat) : Option AgentId := (s.sched.ios.find? (fun i => i.n = n)).bind (fun i => match i.who with
  | .agent a => some a
  | _ => none)
def readOfAgent (s : State) (a : AgentId) (g : Agent) (r : HostRead) : Bool := r.born = g.born && (match r.act with
  | .load b _ _ _ _ => b = a
  | .atomic b _ _ _ _ => b = a
  | .io n => ioAgentOf s n = some a
  | .ioAtom n _ => ioAgentOf s n = some a
  | _ => false)
/-- The access overlaps an outstanding write, atomic or read of its own warp, at 8-byte granularity (R332, R343). -/
def overlaps (s : State) (a : AgentId) (g : Agent) (blocks : List Nat) : Bool :=
  (allEntries s).any (fun e => entryOfAgent a g e && e.vas.any (fun v => blocks.contains v))
  || s.host.reads.any (fun r => readOfAgent s a g r && r.vas.any (fun v => blocks.contains v))

/-! ## Completion of an entry (R36, R39, R40, R325). -/

/-- Record a fabric error of a warp, first one kept. -/
def setFabErr (s : State) (a : AgentId) (va : W64) : State :=
  modSaved s a (fun g => { g with fabErr := match g.fabErr with
    | some x => some x
    | none => some va })
/-- Change an agent, and its image in every checkpoint (R245: a result that arrives for a warp that is not running is kept for it). -/
def modAll (s : State) (a : AgentId) (f : Agent → Agent) : State :=
  let img (i : Snap) : Snap := { i with agents := i.agents.map (fun e => if e.1 = a then (e.1, f e.2) else e) }
  modAgent { s with ck := s.ck.map (fun c => { c with cand := c.cand.map img, images := c.images.map (fun e => (e.1, img e.2)) }) } a f
/-- FARW counts one less: of the agent the entry is for, not of one that has its slot since (R203). -/
def farwDec (s : State) (a : AgentId) (e : Entry) : State := modAgent s a (fun g => if g.born = e.born then farwSet g (farwGet g - 1) else g)
/-- An access of SPAWN has been acknowledged or has failed: it counts in FARW no more (R324). -/
def ioEnd (s : State) (e : Entry) : State := match e.owner with
  | .io _ (some a) => if isWriteEntry e then farwDec s a e else s
  | _ => s
/-- The error of an entry reaches the agent it is for. -/
def entryErr (s : State) (a : AgentId) (e : Entry) : State :=
  modAll s a (fun g => if g.born = e.born then { g with fabErr := match g.fabErr with
    | some x => some x
    | none => some e.va } else g)
/-- Lane writes of a value at the destination of a memory operation, register by register. -/
def laneRes (d n l v : Nat) : List (Nat × W32) :=
  (List.range n).map (fun k => ((d + k) * 32 + l, BitVec.ofNat 32 (v >>> (32 * k))))
/-- First register and number of registers of a pending operation's V destinations. -/
def pendDst (g : Agent) (id : Nat) : Nat × Nat :=
  match g.pend.find? (fun p => p.id = id) with
  | some p => (((p.dst.filter (fun r => r.file = 0)).map RC.num).headD 0, (p.dst.filter (fun r => r.file = 0)).length)
  | none => (0, 0)
/-- A reply of a memory operation reaches its agent: values by lane, flags, and the poisoned address it met. -/
def memReply (s : State) (a : AgentId) (id : Nat) (vals : List (Nat × Nat)) (fl : FlagBits) (poison : Option (Nat × W64)) : State :=
  modAll s a (fun g =>
    let (d, n) := pendDst g id
    arrive g id (fun r => { r with
      v := r.v ++ vals.flatMap (fun x => laneRes d n x.1 x.2)
      flags := r.flags ||| fl
      poison := match r.poison, poison with
        | some p, some q => some (if p.1 ≤ q.1 then p else q)
        | some p, none => some p
        | none, q => q }))
/-- The entry ends with error status: abandoned or answered with a route error. -/
def failEntry (s : State) (e : Entry) : State :=
  match e.owner with
  | .store a => entryErr (farwDec s a e) a e
  | .load a id _ ls => entryErr (memReply s a id (ls.map (fun l => (l.1, 0))) 0 none) a e
  | .atomic a id ls _ _ => entryErr (memReply (farwDec s a e) a id (ls.map (fun l => (l, 0))) 0 none) a e
  | .io _ _ => ioEnd s e
  | _ => s
/-- The entry leaves the tables. -/
def dropEntry (s : State) (r : EntryRef) : State :=
  { s with fab := { s.fab with entries := s.fab.entries.filter (fun e => e.ref ≠ r) } }

end Sys2Proof.Machine
end

