-- ==== Sys2Proof/Machine/Host.lean ====
section
/-! DEFINITION. Functions, generations, event records and used elements (05 R102 to R116; 06 R128, R129, R137). -/

namespace Sys2Proof.Machine

def func (s : State) (fn : Nat) : Option Func := lkp s.host.funcs fn
def setFunc (s : State) (fn : Nat) (f : Func) : State := { s with host := { s.host with funcs := ins s.host.funcs fn f } }
def modFunc (s : State) (fn : Nat) (f : Func → Func) : State :=
  match func s fn with
  | some x => setFunc s fn (f x)
  | none => s
/-- Signal an MSI-X vector: 0 for configuration changes, 1 + q for queue q. With MSI-X not enabled no interrupt is raised, and the ISR notes the
cause (R103; its bits are virtio's, log 24). -/
def signal (s : State) (fn v : Nat) : State :=
  match func s fn with
  | none => s
  | some f =>
    if f.msix then { s with host := { s.host with msi := s.host.msi ++ [(fn, v)] } }
    else setFunc s fn { f with isr := f.isr ||| (if v = 0 then 2 else 1) }
/-- The device configuration of a function has changed (R104). -/
def cfgChange (s : State) (fn : Nat) : State := signal (modFunc s fn (fun f => { f with cfgGen := f.cfgGen + 1 })) fn 0
/-- VF numbers of a partition, ascending (Table 6-1 VFS). -/
def partVfs (p : Part) : List Nat := ((List.range 32).filter (fun v => p.vfs.getLsbD v)).map (fun v => v + 1)
def vfsOf (s : State) (part : Nat) : List Nat := ((partOf s part).map partVfs).getD []
/-- The VF whose tenant runs: the running tenant of a time-shared partition, else its one VF (R126, R134). -/
def runVf (s : State) (part : Nat) : Option Nat :=
  if timeShared s part then (ckOf s part).map (fun c => c.tenant) else (vfsOf s part).head?
/-- The function has accepted a feature bit (R108). -/
def hasFeature (s : State) (fn bit_ : Nat) : Bool := match func s fn with
  | some f => f.features.getLsbD bit_
  | none => false

/-! ## Virtqueues (R105, R106, R116). -/

/-- Maximum size of a queue (Table 5-3): 0 for one the function has not. -/
def queueMax (fn : Nat) (f : Func) (q : Nat) : Nat :=
  if q = 0 then 256 else if q = 1 then 1024 else if fn ≠ 0 && q - 2 < f.nwq.toNat then 4096 else 0
/-- A queue as reset leaves it: not enabled, of its maximum size. -/
def Vq.fresh (q n : Nat) : Vq := { num := q, size := n, on := false, desc := 0, driver := 0, device := 0, avail := 0, used := 0, outs := [] }
def vqOf (fn : Nat) (f : Func) (q : Nat) : Vq := (f.vqs.find? (fun v => v.num = q)).getD (Vq.fresh q (queueMax fn f q))
def setVq (f : Func) (v : Vq) : Func := { f with vqs := f.vqs.filter (fun x => x.num ≠ v.num) ++ [v] }
/-- The queue is enabled and one of the function's. -/
def queueOn (fn : Nat) (f : Func) (q : Nat) : Bool := (vqOf fn f q).on && queueMax fn f q ≠ 0
/-- A chain of n descriptors is read. -/
def readChain (v : Vq) (n : Nat) : Vq := { v with avail := (v.avail + n) % (2 * v.size), outs := v.outs ++ [n] }
/-- What the driver's event suppression structure holds is not the device's: a free value w (R106). Its flags ask for every interrupt, for
none, or for one when the element at an offset and wrap is used; the n descriptors from at on are used now (the layout is virtio's, log 24). -/
def wantsSignal (w : W64) (size at_ n : Nat) : Bool := match nfld w.toNat 17 16 with
  | 1 => false
  | 2 => (nfld w.toNat 14 0 + (if bit w 15 then 0 else size) + 2 * size - at_) % (2 * size) < n
  | _ => true
/-- The next used element of a queue is written, and the queue's vector signalled: for every element, or with EVENT_IDX as the driver's event
suppression structure asks (R106). -/
def useNext (s : State) (fn q : Nat) : State :=
  match func s fn with
  | none => s
  | some f =>
    let v := vqOf fn f q
    let n := v.outs.headD 1
    let s1 := setFunc s fn (setVq f { v with used := (v.used + n) % (2 * v.size), outs := v.outs.drop 1 })
    if !f.features.getLsbD 29 then signal s1 fn (q + 1)
    else
      let s2 := { s1 with freeIx := s1.freeIx + 1 }
      if wantsSignal (Config.free s1.freeIx) v.size v.used n then signal s2 fn (q + 1) else s2

/-! ## Generations (R128, R129). -/

inductive GenCmp where
  | current | older | newer
  deriving DecidableEq, Repr
/-- A carried generation against the current one (R129). -/
def genCmp (g c : Nat) : GenCmp :=
  if g = c then .current else if g = 0 then .older else if (c + 65535 - g) % 65535 ≤ 32767 then .older else .newer
/-- Generation of a function. -/
def fnGen (s : State) (fn : Nat) : BitVec 16 := ((func s fn).map Func.gen).getD 0
/-- The next generation: 0xFFFF is followed by 0x0001. -/
def genNext (g : BitVec 16) : BitVec 16 := if g = 0xFFFF then 1 else g + 1
/-- The tenants whose packets may arrive: the running one, and the one before it for the 46 µs in which a packet of its slice may still come
(R38, R138; DEDUCED, log 72: a packet names its partition only). -/
def tenantsNow (s : State) (part : Nat) : List Nat :=
  (runVf s part).toList ++ (match if timeShared s part then (ckOf s part).bind Ck.before else none with
    | some (v, t) => if s.fab.podNs ≤ 125 * t + 46000 then [v] else []
    | none => [])
/-- A packet's generation against the tenants of its partition (R53): current when it is one's own, else as compared with the running
tenant's. -/
def genOfPart (s : State) (part : Nat) (g : Nat) : GenCmp :=
  if (tenantsNow s part).any (fun v => (func s v).any (fun f => f.gen.toNat = g)) then .current
  else match (runVf s part).bind (func s) with
    | some f => genCmp g f.gen.toNat
    | none => .newer
/-- The tenant of a partition that carries a generation, while its packets may arrive. -/
def genTenant (s : State) (part g : Nat) : Option Nat := (tenantsNow s part).find? (fun v => (func s v).any (fun f => f.gen.toNat = g))
/-- The same for a milepost flit: of a partition that is not here no generation is known, and the group tables decide (R53, R457). -/
def genOfSender (s : State) (part g : Nat) : GenCmp := if (partOf s part).isNone then .current else genOfPart s part g
def sat32 (x : W32) : W32 := if x = BitVec.allOnes 32 then x else x + 1
/-- A request whose header carries an older generation is counted in STALE of its function (R109, R129, Table 6-2). -/
def staleReq (s : State) (fn : Nat) (g : BitVec 16) : State :=
  modFunc s fn (fun f => if genCmp g.toNat f.gen.toNat = .older then { f with stale := sat32 f.stale } else f)
/-- A stale carrier is counted in STALE of the tenant's function (R129). -/
def countStale (s : State) (part : Nat) : State :=
  match runVf s part with
  | some v => modFunc s v (fun f => { f with stale := sat32 f.stale })
  | none => s

/-! ## Exports (R137). -/

/-- Hold an effect until a later cut commits, and ask for a cut (R136, R137). -/
def holdFor (s : State) (part tenant : Nat) (e : Export) : State :=
  modCk s part (fun c => { (if c.tenant = tenant then asking (podTick s) c else c) with exports := c.exports ++ [(podTick s, tenant, e)] })

/-- The same for the running tenant. -/
def holdExport (s : State) (part : Nat) (e : Export) : State := holdFor s part (((ckOf s part).map Ck.tenant).getD 0) e

/-! ## Event records (R113, R114). -/

/-- The function takes records into posted buffers (R114). -/
def canWrite (f : Func) : Bool := f.reading && f.buffers ≠ 0
/-- A payload of 64-bit words, the first lowest (log 46). -/
def payWords (ws : List Nat) : BitVec 256 := BitVec.ofNat 256 (leVal (ws.flatMap (leBytes 8)))
/-- Write a record into a posted buffer. -/
def writeEvent (s : State) (fn : Nat) (f : Func) (r : EvRec) : State :=
  let r := { r with seq := f.seq.toNat }
  let s := setFunc s fn { f with seq := f.seq + 1, buffers := f.buffers - 1 }
  useNext { s with host := { s.host with events := s.host.events ++ [r] } } fn 1
/-- Hold a record: 256 a function, the oldest discarded beyond that (R114). -/
def holdEvent (f : Func) (r : EvRec) : Func :=
  let held := f.held ++ [r]
  if 256 < held.length then { f with held := held.drop 1, evlost := sat32 f.evlost, lost := f.lost + 1 } else { f with held }
/-- A record reaches its function: it is written, or held (R114). -/
def takeEvent (s : State) (r : EvRec) : State :=
  match func s r.fn with
  | none => s
  | some f => if canWrite f && f.held = [] then writeEvent s r.fn f r else setFunc s r.fn (holdEvent f r)
/-- Post an event record to a function; in a time-shared partition it is an export of the VF's tenant (R137). -/
def postEvent (s : State) (fn kind ctx : Nat) (payload : BitVec 256) : State :=
  match func s fn with
  | none => s
  | some f =>
    let r : EvRec := ⟨fn, kind, 0, f.gen.toNat, ctx, s.fab.podNs, payload⟩
    if fn ≠ 0 && timeShared s f.part.toNat then holdFor s f.part.toNat fn (.event r) else takeEvent s r
/-- The count of lost records of a tenant's VF is written as an export, the count it has when it is released (R137). -/
def holdLost (s : State) (fn : Nat) (f : Func) : State :=
  let has := s.ck.any (fun c => c.exports.any (fun x => match x.2.2 with
    | .event r => r.fn = fn && r.kind = 0x0B
    | _ => false))
  if has then s else holdFor s f.part.toNat fn (.event ⟨fn, 0x0B, 0, f.gen.toNat, 0xFFFF, s.fab.podNs, 0⟩)
/-- Write held records while buffers last: a count of lost records first (R114). -/
def flushEvents (s : State) (fn : Nat) : Nat → State
  | 0 => s
  | n + 1 =>
    match func s fn with
    | none => s
    | some f =>
      if !canWrite f then s
      else if f.lost ≠ 0 && fn ≠ 0 && timeShared s f.part.toNat then holdLost s fn f
      else if f.lost ≠ 0 then
        flushEvents (writeEvent s fn { f with lost := 0 } ⟨fn, 0x0B, 0, f.gen.toNat, 0xFFFF, s.fab.podNs, payWords [f.lost]⟩) fn n
      else if fn = 0 && s.host.heldS2 ≠ [] then
        match s.host.heldS2 with
        | r :: rest => flushEvents (writeEvent { s with host := { s.host with heldS2 := rest } } 0 f r) fn n
        | [] => s
      else match f.held with
        | r :: rest => flushEvents (writeEvent s fn { f with held := rest } r) fn n
        | [] => s
/-- A held count of lost records is released: it is written where a buffer is posted still, and the held records behind it. -/
def lostRelease (s : State) (r : EvRec) : State :=
  match func s r.fn with
  | none => s
  | some f =>
    if !canWrite f || f.lost = 0 then s
    else flushEvents (writeEvent s r.fn { f with lost := 0 } { r with payload := payWords [f.lost] }) r.fn (f.held.length + 1)
/-- Post a record to every function of a list. -/
def postAll (s : State) (fns : List Nat) (kind ctx : Nat) (payload : BitVec 256) : State :=
  fns.foldl (fun s fn => postEvent s fn kind ctx payload) s
/-- Every function of the device, PF first. -/
def allFns (s : State) : List Nat := s.host.funcs.map Prod.fst
/-- The VFs whose partition owns a port of the device (R50). -/
def portFns (s : State) (j : Nat) : List Nat := (s.part.parts.filter (fun p => p.fports.getLsbD j)).flatMap partVfs
/-- A stage-2 request record to the PF (R64, R114): written, held in the table of 1,024, or still waiting. -/
def postS2 (s : State) (r : EvRec) : State × Bool :=
  match func s 0 with
  | none => (s, false)
  | some f =>
    if canWrite f && f.held = [] && s.host.heldS2 = [] then (writeEvent s 0 f r, true)
    else if s.host.heldS2.length < 1024 then ({ s with host := { s.host with heldS2 := s.host.heldS2 ++ [r] } }, true)
    else (s, false)

/-! ## Used elements (R106, R110). -/

/-- A used element is written, and its queue's vector signalled. -/
def putUsed (s : State) (u : UsedEl) : State := useNext { s with host := { s.host with used := s.host.used ++ [u] } } u.fn u.q
/-- Write a used element, held as an export in a time-shared partition; nothing is written once the function has stopped
reading its queues (R119). -/
def postUsed (s : State) (u : UsedEl) : State :=
  match func s u.fn with
  | none => s
  | some f =>
    if !f.reading then s
    else if u.fn ≠ 0 && timeShared s f.part.toNat then holdFor s f.part.toNat u.fn (.used u)
    else putUsed s u

/-! ## Control commands (R117). -/

/-- A command's used element is written, unless its function was reset meanwhile (R119). -/
def cmdEnd (s : State) (fn : Nat) (cookie : W64) (status detail : Nat) (data : List Byte) : State :=
  if s.host.busy.contains (fn, cookie) then
    postUsed { s with host := { s.host with busy := s.host.busy.filter (fun b => b ≠ (fn, cookie)) } }
      ⟨fn, 0, cookie, status, 0, detail, data, 16 + data.length⟩
  else s

end Sys2Proof.Machine
end

