-- ==== Sys2Proof/Machine/Translate.lean ====
section
/-! DEFINITION. Obtaining a translation: caches, walks, stage-2 requests, host pages and grant requests (03 R63 to R78). -/

namespace Sys2Proof.Machine

/-- What a lane finds: a translation, a wait, or the code of a trap cause (R65, R66). -/
inductive Tr where
  | ok (x : Xlat) | wait | fault (code : Nat)
  deriving DecidableEq, Repr

/-- Die number that stands for the translation agent of the I/O die, which serves other devices. -/
def agentDie : Nat := 4
def ctxKey (c : Ctx) : Nat := ckey c.part c.ctxid
/-- The permission of a translation allows an access (R61); X is never granted remotely (R67). -/
def allowed (x : Xlat) : Acc → Bool
  | .rd => x.rd | .wr => x.w | .rw => x.rd && x.w | .fetch => x.x && !x.grant
def cacheHit (s : State) (key die va : Nat) : Option Xlat :=
  s.xl.cache.find? (fun x => x.ctx = key && x.die = die && x.va ≤ va && va < x.va + x.size)
/-- Places of a cache: a core's micro cache has 64 entries, a die's 16,384 (R63; the I/O die's agent is given as many, log 66). -/
def cacheCap (at_ : Nat) : Nat := if at_ < 8 then 16384 else 64
/-- The die a cache serves. -/
def placeDie (at_ : Nat) : Nat := if at_ < 8 then at_ else (at_ - 8) / 128
/-- The cache an agent's accesses look in first: its core's micro cache; a control core has none. -/
def cacheOf : AgentId → Nat
  | .warp c _ => 8 + 128 * c.die + 16 * c.y + c.x
  | .stream die _ => die
/-- A translation enters a cache; one that enters a die's cache leaves no older one of its range in the die's micro caches. -/
def cacheAdd (s : State) (x : Xlat) : State :=
  let old (y : Xlat) : Bool := y.ctx = x.ctx && rangesMeet x.va x.size y.va y.size
    && (if y.die = x.die then y.va = x.va else x.die < 8 && 8 ≤ y.die && placeDie y.die = x.die)
  { s with xl := { s.xl with cache := keepFirst (fun y => y.die = x.die) (cacheCap x.die) (x :: s.xl.cache.filter (fun y => !old y)) } }
/-- The translation of an address in a cache, or in its die's, from where a micro cache takes it. -/
def lookup (s : State) (key at_ va : Nat) : State × Option Xlat :=
  match cacheHit s key at_ va with
  | some x => (s, some x)
  | none => if at_ < 8 then (s, none) else match cacheHit s key (placeDie at_) va with
    | some x => (cacheAdd s { x with die := at_ }, some x)
    | none => (s, none)
/-- Intermediate entries of a context in a die's walk cache; 4,096 are kept (R63). -/
def walkCache (s : State) (key die : Nat) : WCache :=
  (s.xl.wents.filter (fun w => w.die = die && w.ctx = key)).map (fun w => (w.two, w.lv, w.pre, w.fr))
def keepWalk (s : State) (key die : Nat) (new : WCache) : State :=
  { s with xl := { s.xl with wents := keepFirst (fun w => w.die = die) 4096 (new.map (fun e => ⟨die, key, e.1, e.2.1, e.2.2.1, e.2.2.2⟩) ++ s.xl.wents) } }
/-- Generation of the function of a context. -/
def ctxGen (s : State) (c : Ctx) : BitVec 16 := match func s c.fn with
  | some f => f.gen
  | none => 0

/-! ## Host page entries (R77, R78). -/

/-- The granule is host-homed, whoever owns its device (R57, R58). -/
def hostHomed (s : State) (c : Ctx) (g : Nat) : Bool := match leafWord s c g with
  | some e => nfld e 31 31 = 1 && nfld e 30 26 = 0 && nfld e 25 24 = 2 && nfld e 23 8 = 0 && nfld e 7 0 < 144
  | none => false
/-- Host-homed granules of a context below granule g. -/
def hostBelow (s : State) (c : Ctx) (g : Nat) : Nat :=
  ((List.range (g / 8192 + 1)).map (fun d =>
    if hbmNum s (c.homemap + 8 * d) 8 % 2 = 0 then 0
    else ((List.range 8192).filter (fun i => d * 8192 + i < g && hostHomed s c (d * 8192 + i))).length)).foldl (· + ·) 0
/-- Address of the host page entry of a far address. -/
def hostEntryAt (s : State) (c : Ctx) (va : Nat) : Nat :=
  c.hostpt + 8 * (hostBelow s c (va / 2 ^ 30) * 2 ^ 18 + va % 2 ^ 30 / 4096)
/-- The entries of a host page table from its granule from on to its granule to_ are as reset leaves them: ARM set, all else clear (Table 3-6;
DEDUCED, log 68: firmware writes them as the table gains them). -/
def hostReset (s : State) (c : Ctx) (from_ to_ : Nat) : State :=
  (List.range ((to_ - from_) * 2 ^ 18)).foldl (fun s i => hbmPut s (c.hostpt + 8 * (from_ * 2 ^ 18 + i)) (leBytes 8 1)) s
/-- Host-homed granules of a context, ascending. -/
def hostList (s : State) (c : Ctx) : List Nat :=
  (List.range 16384).flatMap (fun d =>
    if hbmNum s (c.homemap + 8 * d) 8 % 2 = 0 then []
    else ((List.range 8192).filter (fun i => hostHomed s c (d * 8192 + i))).map (fun i => d * 8192 + i))
/-- The host-homed granules of a context have changed, from those in s0: in the host page table, where the context has one, the entries of a
granule that was there move to its new place, and those of a granule that has come are as reset leaves them (R77, Table 3-6; DEDUCED, log 68). -/
def hostMove (old new : List Nat) (s0 s : State) (c : Ctx) : State :=
  if c.hostpt = 0 then s
  else ((List.range new.length).zip new).foldl (fun s (i, g) => match old.findIdx? (fun x => x = g) with
    | some j => if i = j then s else (List.range (2 ^ 18)).foldl (fun s k =>
        hbmPut s (c.hostpt + 8 * (i * 2 ^ 18 + k)) (leBytes 8 (hbmNum s0 (c.hostpt + 8 * (j * 2 ^ 18 + k)) 8))) s
    | none => hostReset s c i (i + 1)) s
def hostKeep (s0 s : State) (c : Ctx) : State := hostMove (hostList s0 c) (hostList s c) s0 s c
/-- A range lies in another. -/
def rangeIn (q r : Range) : Bool := r.base ≤ q.base && q.base + q.size ≤ r.base + r.size
/-- One access to a host page is counted; when COUNT comes to equal THRESH with ARM set an access record is posted (R78). A COUNT that is above
THRESH already when ARM is set posts none (DESIGN CHOICE, log 69). -/
def hostCount (s : State) (c : Ctx) (va : Nat) : State :=
  if !hasFeature s c.fn 7 then s
  else
    let a := hostEntryAt s c va
    let e := hbmNum s a 8
    let n := min (nfld e 63 48 + 1) 0xFFFF
    let fire := n = c.thresh && nfld e 0 0 = 1
    let e' := n * 2 ^ 48 + (e % 2 ^ 48 - if fire then 1 else 0)
    let s := hbmPut s a (leBytes 8 e')
    if fire then postEvent s c.fn 0x07 c.ctxid (payWords [alignDown va 4096, n]) else s

/-! ## Starting a translation. -/

def xlNext (s : State) : Nat × State := (s.xl.nextId, { s with xl := { s.xl with nextId := s.xl.nextId + 1 } })
/-- A walk, grant request or ATS request of the page is under way (R63). -/
def walkFor (key die va : Nat) (w : Walk) : Bool := w.ctx = key && w.die = die && w.va / 4096 = va / 4096
def grantFor (key die va : Nat) (r : GrantReq) : Bool := r.ctx = key && r.die = die && r.va / 4096 = va / 4096
def atsFor (key va : Nat) (r : Ats) : Bool := r.ctx = key && r.va / 4096 = va / 4096
def pendingXl (s : State) (key die va : Nat) : Bool :=
  s.xl.walks.any (walkFor key die va) || s.xl.grants.any (grantFor key die va) || s.xl.ats.any (atsFor key va)
/-- Those that ask, with some more. -/
def moreAsks (as more : Asks) : Asks := as ++ more.filter (fun x => !as.contains x)
/-- A request for a page that is under way serves those that ask now too (R63). -/
def joinAsk (s : State) (key die va : Nat) (more : Asks) : State :=
  { s with xl := { s.xl with
      walks := s.xl.walks.map (fun w => if walkFor key die va w then { w with asks := moreAsks w.asks more } else w)
      grants := s.xl.grants.map (fun r => if grantFor key die va r then { r with asks := moreAsks r.asks more } else r)
      ats := s.xl.ats.map (fun r => if atsFor key va r then { r with asks := moreAsks r.asks more } else r) } }
def addWalk (s : State) (key die va : Nat) (acc : Acc) (asks : Asks) : State :=
  let (n, s) := xlNext s
  { s with xl := { s.xl with walks := s.xl.walks ++ [⟨n, key, alignDown va 4096, acc, die, none, asks⟩] } }
def setGrant (s : State) (r : GrantReq) : State :=
  { s with xl := { s.xl with grants := s.xl.grants.map (fun x => if x.n = r.n then r else x) } }
/-- The port by which a grant request has just left. -/
def grantPort (s : State) (r : GrantReq) : State := setGrant s { r with port := lkp s.fab.rotate (r.ctx / 65536) }
/-- Send a grant request to a location (R66), by a port that has drawn no route error for it while there is one. -/
def sendGrant (s : State) (c : Ctx) (r : GrantReq) : State :=
  let p := mkPkt s c.part (ctxGen s c) (tgtOf r.home) 0x10 (.grantReq c.ctxid r.va r.acc)
  let e : Entry := { ref := .tag 0, pkt := p, first := 0, last := 0, va := BitVec.ofNat 64 r.va, vas := [], ctx := ctxKey c,
                     owner := .grant r.n, launch := 0, born := 0, fn := c.fn }
  grantPort (sendReadBut s r.bad e) r
def askGrant (s : State) (c : Ctx) (die va : Nat) (acc : Acc) (l : Loc) (asks : Asks) : State :=
  let (n, s) := xlNext s
  let r : GrantReq := ⟨n, ctxKey c, alignDown va 4096, acc, die, l, 0, false, none, [], asks⟩
  sendGrant { s with xl := { s.xl with grants := s.xl.grants ++ [r] } } c r
/-- No guest-physical address: of a page that no stage 1 of this device gives (R67, R75). -/
def noGpa : Nat := 2 ^ 64
/-- A host page at its device: the migrated copy, a write-blocked wait, or an ATS request (R75, R78, R79). A migrated page has RD and W, whatever
ATS allowed on the host copy (DESIGN CHOICE, log 70: R79 gives it no permissions). -/
def startHost (s : State) (c : Ctx) (die va : Nat) (acc : Acc) (asks : Asks) : State × Tr :=
  let e := hbmNum s (hostEntryAt s c va) 8
  if nfld e 1 1 = 1 then
    let x : Xlat := ⟨ctxKey c, alignDown va 4096, 4096, .dev s.mod.poddev, nfld e 47 12 * 4096, noGpa, true, true, false, true, false, die⟩
    if lostAt s x.pa then (s, .fault 0x11) else (cacheAdd s x, .ok x)
  else if nfld e 2 2 = 1 && accWrites acc then (s, .wait)
  else
    let (n, s) := xlNext s
    ({ s with xl := { s.xl with ats := s.xl.ats ++ [⟨n, c.fn, ctxGen s c, c.part, ctxKey c, c.pasid, alignDown va 4096, acc, false, asks⟩] } }, .wait)
/-- Begin a translation that no cache holds, at the home the map gives (R57 to R59). Code comes from this device's own pages alone (R227, Table
3-4). A page of this device that has moved is walked for its own lanes like any other: the forward answers grant requests (DESIGN CHOICE, log 71). -/
def startTrans (s : State) (who : IoWho) (c : Ctx) (die va : Nat) (acc : Acc) : State × Tr :=
  if pendingXl s (ctxKey c) die va then (joinAsk s (ctxKey c) die va [(who, acc)], .wait)
  else match homeVia s die c va with
    | (s, .xlate) => (s, .fault 0x10)
    | (s, .perm) => (s, .fault 0x11)
    | (s, .at_ l) =>
      if l = .dev s.mod.poddev then (addWalk s (ctxKey c) die va acc [(who, acc)], .wait)
      else if acc = .fetch then (s, .fault 0x11)
      else if l = .host s.mod.poddev then startHost s c die va acc [(who, acc)]
      else if !hasFeature s c.fn 3 then (s, .fault 0x11)
      else (askGrant s c die va acc l [(who, acc)], .wait)
/-- A failed translation of the page for this kind of access, which this asker has waited for and not yet taken (R65). -/
def faultAt (s : State) (who : IoWho) (key va : Nat) (acc : Acc) : Option XFault :=
  s.xl.faults.find? (fun f => f.who = who && f.ctx = key && f.va = va / 4096 && f.acc = acc)
/-- A cached translation serves the access: it allows it, and D is set for a write (R61, R62). One that does not is asked for anew, since what
bars the access may be the second stage (R64). -/
def serves (x : Xlat) (acc : Acc) : Bool := allowed x acc && (!accWrites acc || x.d)
/-- The translation of one far address for an access (R55, R58, R61 to R66); at_ is the cache it looks in first. -/
def translate (s : State) (who : IoWho) (c : Ctx) (at_ va : Nat) (acc : Acc) : State × Tr :=
  if !farOk va then (s, .fault 0x10)
  else match faultAt s who (ctxKey c) va acc with
    | some f => (s, .fault f.code)
    | none => match lookup s (ctxKey c) at_ va with
      | (s, some x) => if serves x acc then (s, .ok x) else startTrans s who c (placeDie at_) va acc
      | (s, none) => startTrans s who c (placeDie at_) va acc
/-- An asker has taken its failures of a page. -/
def takeFault (s : State) (who : IoWho) (key va : Nat) : State :=
  { s with xl := { s.xl with faults := s.xl.faults.filter (fun f => !(f.who = who && f.ctx = key && f.va = va / 4096)) } }
/-- What a failed translation leaves: one failure for each that asked for this kind of access (R65). -/
def failuresOf (key va : Nat) (code : Nat) (asks : Asks) (acc : Acc → Bool) : List XFault :=
  (asks.filter (fun x => acc x.2)).map (fun x => ⟨key, va / 4096, x.2, code, x.1⟩)
def addFaults (s : State) (fs : List XFault) : State := { s with xl := { s.xl with faults := s.xl.faults ++ fs } }
/-- A walk fails, for those that asked for its kind of access: others ask anew. -/
def failWalk (s : State) (w : Walk) (code : Nat) : State := addFaults s (failuresOf w.ctx w.va code w.asks (· = w.acc))

/-! ## Completion of a walk (R62 to R64). -/

def ctxByKey (s : State) (key : Nat) : Option Ctx := ctxOf s (key / 65536) (key % 65536)
def dropWalk (s : State) (n : Nat) : State := { s with xl := { s.xl with walks := s.xl.walks.filter (fun w => w.n ≠ n) } }
/-- The record of a stage-2 request (R64): the guest-physical address, CTXID with the VF's generation and the access kind, and the request's number
(log 46). -/
def s2Rec (s : State) (r : S2Req) : EvRec :=
  ⟨0, 0x05, 0, (fnGen s 0).toNat, r.ctx % 65536, s.fab.podNs, payWords [r.gpa, r.ctx % 65536 + r.gen.toNat * 2 ^ 16 + r.kind * 2 ^ 32, r.idx]⟩
/-- Hold a walk for the hypervisor and post its record (R64). -/
def askS2 (s : State) (c : Ctx) (w : Walk) (gpa : Nat) (wr : Bool) : State :=
  let idx := s.xl.s2Next
  let r : S2Req := ⟨idx, c.fn, ctxGen s c, ctxKey c, gpa, if wr then 1 else if w.acc = .fetch then 2 else 0, false⟩
  let (s, sent) := postS2 s (s2Rec s r)
  { s with xl := { s.xl with
      s2Next := idx + 1
      s2 := s.xl.s2 ++ [{ r with sent := sent }]
      walks := s.xl.walks.map (fun x => if x.n = w.n then { x with s2 := some idx } else x) } }
/-- A walk has one of its die's 256 walkers: no more came before it (R63). -/
def onWalker (s : State) (w : Walk) : Bool := ((s.xl.walks.filter (fun x => x.die = w.die && x.s2 = none)).take 256).contains w
/-- The walk ends: caches filled, or a fault left for the access that asked, or a stage-2 request. -/
def finishWalk (s : State) (w : Walk) : State :=
  match ctxByKey s w.ctx with
  | none => dropWalk s w.n
  | some c =>
    let (m, r, new) := walkAll s.mod.stackLost s.mem.hbm (walkCache s w.ctx w.die) c.stage1 c.stage2 w.va w.acc
    let s := keepWalk { s with mem := { s.mem with hbm := m } } w.ctx w.die new
    match r with
    | .ok va sz pa gpa pm d =>
      if lostAt s pa then dropWalk (failWalk s w 0x11) w.n
      else dropWalk (cacheAdd s ⟨w.ctx, va, sz, .dev s.mod.poddev, pa, gpa, nfld pm 3 3 = 1, nfld pm 4 4 = 1, nfld pm 5 5 = 1, d, false, w.die⟩) w.n
    | .s2 gpa wr => askS2 s c w gpa wr
    | .xlate => dropWalk (failWalk s w 0x10) w.n
    | .perm => dropWalk (failWalk s w 0x11) w.n

/-! ## Answering grant requests at a home (R66 to R69, R72, R73). -/

/-- Answer a packet: the reply goes back to its source. -/
def reply (s : State) (p : Packet) (kind : Nat) (body : PktBody) : State :=
  emit s { mkPkt s p.part.toNat p.gen p.src.toNat kind body with seq := p.seq }
/-- Record a holder in the grant directory: eight exactly, then the whole partition (R69). -/
def addHolder (s : State) (key va size gpa dev : Nat) : State :=
  let upd (d : GrantDir) : GrantDir :=
    if d.wide || d.holders.contains dev then d
    else if 8 ≤ d.holders.length then { d with wide := true }
    else { d with holders := d.holders ++ [dev] }
  let s' := if s.xl.dir.any (fun d => d.ctx = key && d.va = va) then s
    else { s with xl := { s.xl with dir := s.xl.dir ++ [⟨key, va, size, gpa, false, []⟩] } }
  { s' with xl := { s'.xl with dir := s'.xl.dir.map (fun d => if d.ctx = key && d.va = va then upd d else d) } }
/-- An invalidation of the page is in progress at this home (R72). -/
def invalCovers (s : State) (gpa : Bool) (key va : Nat) : Bool :=
  s.xl.invals.any (fun i => i.q.gpa = gpa && i.q.ctx = key && i.q.base ≤ va && va < i.q.base + i.q.size)
/-- Begin a translation for another device: by ATS for a page of this host home, else by the home's own walk (R67). -/
def homeStart (s : State) (c : Ctx) (va : Nat) (acc : Acc) (asks : Asks) : State × Tr :=
  if pendingXl s (ctxKey c) agentDie va then (joinAsk s (ctxKey c) agentDie va asks, .wait)
  else match homeVia s agentDie c va with
    | (s, .at_ l) => if l = .host s.mod.poddev then startHost s c agentDie va acc asks else (addWalk s (ctxKey c) agentDie va acc asks, .wait)
    | (s, _) => (addWalk s (ctxKey c) agentDie va acc asks, .wait)
def homeTrans (s : State) (c : Ctx) (va : Nat) (acc : Acc) : State × Tr :=
  match faultAt s .peer (ctxKey c) va acc with
  | some f => (s, .fault f.code)
  | none => match cacheHit s (ctxKey c) agentDie va with
    | some x => if serves x acc then (s, .ok x) else homeStart s c va acc [(.peer, acc)]
    | none => homeStart s c va acc [(.peer, acc)]
/-- The page has moved: the place of it (R73, R74). A range taken back by guest-physical address is looked for by the address stage 1 gives. -/
def movedTo (s : State) (c : Ctx) (va : Nat) : Option (Loc × Nat) :=
  let gpa := gpaOf s.mod.stackLost s.mem.hbm c.stage1 c.stage2 va
  let off (f : Fwd) : Option Nat :=
    let a := if f.q.gpa then gpa else some va
    a.bind (fun a => if f.q.ctx = ctxKey c && f.q.base ≤ a && a < f.q.base + f.q.size then some (alignDown (a - f.q.base) 4096) else none)
  (s.xl.fwds.findSome? (fun f => (off f).map (fun o => (f.loc, f.pa + o)))).filter (fun x => x.1 ≠ .dev s.mod.poddev)
/-- Try to answer a held grant request: none while it must wait. W is granted only where D is set, so that the first write asks again (R62). -/
def answerGrant (s : State) (p : Packet) : Option State × State :=
  match p.body with
  | .grantReq ctx va acc =>
    let key := ckey p.part.toNat ctx
    if invalCovers s false key va then (none, s)
    else match ctxByKey s key with
      | none => (some (reply s p 0x19 (.grantAns (.fault false))), s)
      | some c =>
        match movedTo s c va with
        | some f => (some (reply s p 0x19 (.grantAns (.forward f.1 f.2))), s)
        | none =>
          let (s, t) := homeTrans s c va acc
          match t with
          | .wait => (none, s)
          | .fault code => (some (reply (takeFault s .peer key va) p 0x19 (.grantAns (.fault (code = 0x11)))), s)
          | .ok x =>
            if invalCovers s true key (x.gpa + (va - x.va)) then (none, s)
            else
            let s := addHolder s key x.va x.size x.gpa p.src.toNat
            (some (reply s p 0x19 (.grantAns (.grant x.va x.size x.loc x.pa x.rd (x.w && x.d)))), s)
  | _ => (some s, s)
/-- Try every held grant request again. -/
def serveList (s : State) : List Packet → State
  | [] => s
  | p :: r => match answerGrant s p with
    | (some s', _) => serveList s' r
    | (none, s') => serveList { s' with xl := { s'.xl with grantIn := s'.xl.grantIn ++ [p] } } r
def serveGrants (s : State) : State := serveList { s with xl := { s.xl with grantIn := [] } } s.xl.grantIn

/-- WALK_COMPLETE (R63). -/
def walkCompleteOp (s : State) (n : Nat) : State :=
  match s.xl.walks.find? (fun w => w.n = n && w.s2 = none) with
  | none => s
  | some w => if onWalker s w then progress (serveGrants (finishWalk s w)) else s
def execWalkComplete (n : Nat) (s : State) : Host.Outcome State Fault Refusal := .next (walkCompleteOp s n)

/-! ## Synchronous reads of the hardware's own tables (R253). -/

/-- Frame address of a far address for an access made at once, where the page lies in this device's HBM; none where the access
faults or the page is homed elsewhere (R253; log 10). -/
def farPlace (s : State) (c : Ctx) (va : Nat) (acc : Acc) : State × Option Nat :=
  match homeOf s c va with
  | .at_ l =>
    if l ≠ .dev s.mod.poddev then (s, none)
    else match walkAll s.mod.stackLost s.mem.hbm [] c.stage1 c.stage2 va acc with
      | (m, .ok v sz pa _ _ _, _) =>
        ({ s with mem := { s.mem with hbm := m } }, if va < v + sz && !lostAt s pa then some (pa + (va - v)) else none)
      | (m, _, _) => ({ s with mem := { s.mem with hbm := m } }, none)
  | _ => (s, none)
/-- The same for a read. -/
def farPeek (s : State) (c : Ctx) (va : Nat) : State × Option Nat := farPlace s c va .rd
/-- An 8-byte word read so. -/
def farWord (s : State) (c : Ctx) (va : Nat) : State × Option Nat :=
  match farPeek s c va with
  | (s, some pa) => (s, if poisoned s false pa 8 then none else some (hbmNum s pa 8))
  | (s, none) => (s, none)

end Sys2Proof.Machine
end

