-- ==== Sys2Proof/Machine/MemOps.lean ====
section
/-! DEFINITION. The twenty memory operations (16 R316 to R327; 09 R190 to R201; 17 R332; 21 R386). -/

namespace Sys2Proof.Machine

/-! ## Addresses and checks (R318, R191, R196). -/

/-- Where a lane's access is performed. -/
inductive Place where
  | stack (o : Nat) | block (b o : Nat) | yard (k : Nat) | hbm (pa : Nat) | host (pa : Nat) | remote (l : Loc) (pa : Nat)
  deriving DecidableEq, Repr
/-- A participating lane's access. -/
structure LaneAcc where
  l  : Nat
  a  : Nat
  pl : Place
  deriving DecidableEq, Repr
inductive Chk where
  | ok (p : Place) | wait | fault (c v : Nat)
  deriving DecidableEq, Repr

/-- addr(l) of R318. -/
def laneAddr (g : Agent) (f : FmtM) (atomic : Bool) (l : Nat) : Nat :=
  let b := if f.ubase then (sget g f.base.toNat).toNat
           else if f.space = .far then (vget64 g f.base.toNat l).toNat
           else (vget g f.base.toNat l).toNat
  let d : Int := if atomic then 0 else sval 16 f.off.toNat
  if f.space = .far then wrapN 64 (b + d) else wrapN 32 ((b % 2 ^ 32 : Nat) + d)
/-- Direction of a neighbour space (Table 19-3 codes). -/
def nbrDir : Space → Nat
  | .nbrN => 1 | .nbrS => 2 | .nbrE => 3 | .nbrW => 4 | _ => 0
/-- The permission an operation needs (R318). -/
def accOf : MKind → Acc
  | .load => .rd | .store => .wr | _ => .rw
/-- Place of an address through a translation. -/
def placeOf (s : State) (x : Xlat) (a : Nat) : Place :=
  let pa := x.pa + (a - x.va)
  if x.loc = .dev s.mod.poddev then .hbm pa else if x.loc = .host s.mod.poddev then .host pa else .remote x.loc pa
/-- The checks of one lane of agent a after alignment. -/
def checkLane (s : State) (who : AgentId) (g : Agent) (f : FmtM) (k : MKind) (n a : Nat) : State × Chk :=
  match f.space with
  | .stack => (s, if a + n ≤ 0xF000 then .ok (.stack a) else .fault Cause.bounds.code a)
  | .shared => match block s g.blk with
    | some b => (s, if a + n ≤ b.shmem * 1024 then .ok (.block g.blk a) else .fault Cause.bounds.code a)
    | none => (s, .fault Cause.bounds.code a)
  | .yard =>
    let cs := clustersOf s g.part g.die
    (s, if a + n ≤ 4194304 * cs.length then .ok (.yard (yardPlace cs g.die a)) else .fault Cause.bounds.code a)
  | .far => match ctxOf s g.part g.ctx with
    | none => (s, .fault Cause.xlate.code a)
    | some c => match translate s (.agent who) c (cacheOf who) a (accOf k) with
      | (s, .ok x) => (s, .ok (placeOf s x a))
      | (s, .wait) => (s, .wait)
      | (s, .fault code) => (s, .fault code a)
  | sp =>
    let d := nbrDir sp
    match block s g.blk with
    | none => (s, .fault Cause.perm.code a)
    | some b =>
      if !nbrMarked b d then (s, .fault Cause.perm.code a)
      else match nbrBlock s b d with
        | none => (s, .fault Cause.perm.code a)
        | some m => match block s m with
          | none => (s, .fault Cause.perm.code a)
          | some nb =>
            if nb.shmem * 1024 < a + n then (s, .fault Cause.bounds.code a)
            else if nb.halted then (s, .wait) else (s, .ok (.block m a))
/-- Every lane's check in ascending order: accesses passed, whether one waits, the lowest fault (R318). -/
def checkLanes (s : State) (who : AgentId) (g : Agent) (f : FmtM) (k : MKind) (n : Nat) : List Nat → State × List LaneAcc × Bool × Option (Nat × Nat)
  | [] => (s, [], false, none)
  | l :: r =>
    let a := laneAddr g f (k ≠ .load && k ≠ .store) l
    let (s, c) := if a % n ≠ 0 then (s, Chk.fault Cause.align.code a) else checkLane s who g f k n a
    let (s, ls, w, ft) := checkLanes s who g f k n r
    match c with
    | .ok p => (s, ⟨l, a, p⟩ :: ls, w, ft)
    | .wait => (s, ls, true, ft)
    | .fault c v => (s, ls, w, some (c, v))
/-- The lowest lane whose access meets a watch slot (R386). -/
def watchHit (g : Agent) (f : FmtM) (k : MKind) (n : Nat) (ls : List LaneAcc) : Option Nat :=
  if g.suppress then none
  else (ls.find? (fun x => g.watch.any (fun e =>
    let w := e.2
    w.space = Space.code f.space && x.a < w.base.toNat + 2 ^ w.slog && w.base.toNat < x.a + n
    && (if k = .load then w.kind % 2 = 1 else if k = .store then 2 ≤ w.kind else true)))).map LaneAcc.a

/-! ## Values. -/

/-- Access size in bytes. -/
def accBytes (f : FmtM) : Nat := Ty.bytes f.ty
/-- Sign extension of a load: 8 or 16 bits, or none (R320). -/
def loadSx (t : Ty) : Nat := match t with
  | .s8 => 8 | .s16 => 16 | _ => 0
def extend (sx v : Nat) : Nat := if sx = 0 then v else wrapN 32 (sval sx v)
/-- The value of register n of a lane in the width of the type. -/
def regVal (g : Agent) (t : Ty) (n l : Nat) : Nat :=
  ((List.range (Ty.regs t)).map (fun k => (vget g (n + k) l).toNat * 2 ^ (32 * k))).foldl (· + ·) 0 % 2 ^ Ty.bits t
/-- Bytes at a place of this device, and poison. -/
def placeRead (s : State) (g : Agent) (p : Place) (n : Nat) : List Byte × Bool :=
  match p with
  | .stack o =>
    if poisoned s false (64 * Config.stackLine g.born (o / 64)) 1 then (List.replicate n 0, true) else (readBytes g.stack o n, false)
  | .block b o => match block s b with
    | some k => if k.poison.contains (o / 64) then (List.replicate n 0, true) else (readBytes k.mem o n, false)
    | none => (List.replicate n 0, false)
  | .yard k => yardRead s k n
  | .hbm pa => hbmRead s pa n
  | _ => (List.replicate n 0, false)
/-- Lines of a warp's stack take their undo entries (R193, R135). -/
def logStack (s : State) (a : AgentId) (o n : Nat) : State := match agent s a with
  | some g => logLines s g.part 3 (g.born * 65536 + o) n
  | none => s
/-- Store bytes at a place of this device. -/
def placeWrite (s : State) (a : AgentId) (p : Place) (bs : List Byte) : State :=
  match p with
  | .stack o => modAgent (logStack s a o bs.length) a (fun g => { g with stack := writeBytes g.stack o bs })
  | .block b o => modBlock (logBlock s b o bs.length) b (fun k => { k with mem := writeBytes k.mem o bs })
  | .yard k => yardWrite s k bs
  | .hbm pa => hbmWrite s pa bs
  | _ => s
/-- Lines a store instruction wrote whole become clean (R326). -/
def cleanPlaces (s : State) (born n : Nat) (ls : List LaneAcc) : State :=
  let hb := ls.filterMap (fun x => match x.pl with
    | .hbm pa => some (pa, n)
    | _ => none)
  let yd := ls.filterMap (fun x => match x.pl with
    | .yard k => some (k, n)
    | _ => none)
  let sk := ls.filterMap (fun x => match x.pl with
    | .stack o => some (o, n)
    | _ => none)
  let s := (wholeLines sk).foldl (fun s l => setPoison s false (Config.stackLine born l) false) s
  let s := cleanLines (cleanLines s false hb) true yd
  ls.foldl (fun s x => match x.pl with
    | .block b _ =>
      let ws := ls.filterMap (fun y => match y.pl with
        | .block b' o => if b' = b then some (o, n) else none
        | _ => none)
      modBlock s b (fun k => { k with poison := k.poison.filter (fun l => !(wholeLines ws).contains l) })
    | _ => s) s

/-! ## Remote groups (R34, R324, R480). -/

/-- Host page addresses travel marked in packets (log 11). -/
def hostTag : Nat := 2 ^ 60
/-- Target and physical address of a place off this device's memory. -/
def remoteAt (s : State) : Place → Option (Loc × Nat)
  | .remote (.host p) pa => some (.host p, hostTag + pa)
  | .remote l pa => some (l, pa)
  | .host pa => some (.host s.mod.poddev, hostTag + pa)
  | _ => none
def isLocalPlace (s : State) (p : Place) : Bool := (remoteAt s p).isNone
/-- Groups of lanes by key, ascending by their lowest lane. -/
def groupBy {κ : Type} [DecidableEq κ] (key : LaneAcc → κ) : List LaneAcc → List (List LaneAcc)
  | [] => []
  | x :: r =>
    let gs := groupBy key r
    if gs.any (fun g => g.any (fun y => key y = key x)) then
      let (same, rest) := gs.partition (fun g => g.any (fun y => key y = key x))
      (x :: same.flatten) :: rest
    else [x] :: gs
/-- 8-byte blocks of far space that a group touches (R332). -/
def blocksOf (n : Nat) (ls : List LaneAcc) : List Nat := (ls.flatMap (fun x => [x.a / 8, (x.a + n - 1) / 8])).eraseDups
/-- Far writes to junction or host memory are exports of a time-shared partition (Table 6-6). -/
def isExport (s : State) (part : Nat) (l : Loc) : Bool :=
  timeShared s part && (match l with
    | .dev _ => false
    | _ => true)
/-- Pages of host-homed granules of this device that a far instruction touches, migrated or not. -/
def hostPages (s : State) (g : Agent) (ls : List LaneAcc) : List Nat :=
  match ctxOf s g.part g.ctx with
  | none => []
  | some c => ((ls.filter (fun x => (match x.pl with
      | .hbm _ => true
      | .host _ => true
      | _ => false) && homeOf s c x.a = .at_ (.host s.mod.poddev))).map (fun x => alignDown x.a 4096)).eraseDups
/-- The access counters of the host pages an instruction touches (R78). -/
def countHost (s : State) (g : Agent) (f : FmtM) (ls : List LaneAcc) : State :=
  if f.space ≠ .far then s else match ctxOf s g.part g.ctx with
  | some c => (hostPages s g ls).foldl (fun s v => hostCount s c v) s
  | none => s
/-- An entry before it is sent. -/
def mkEntry (s : State) (g : Agent) (l : Loc) (kind : Nat) (body : PktBody) (n : Nat) (ls : List LaneAcc) (o : Owner) : Entry :=
  { ref := .tag 0, pkt := mkPkt s g.part g.gen (tgtOf l) kind body, first := 0, last := 0,
    va := BitVec.ofNat 64 ((ls.map LaneAcc.a).headD 0), vas := blocksOf n ls, ctx := ckey g.part g.ctx, owner := o, launch := g.launch
    born := g.born, fn := g.fn }
/-- A far write or atomic leaves: held as an export, or sent (R137). -/
def leave (s : State) (g : Agent) (l : Loc) (e : Entry) : State :=
  if isExport s g.part l then holdExport s g.part (.pkt e) else sendSeq s e
/-- A read of host memory issued by this device (R347); own is birth and launch of the agent it is for. -/
def hostRead (s : State) (key pasid addr len : Nat) (vas : List Nat) (act : HostAct) (own : Nat × Nat) : State :=
  let (id, s) := fresh s
  { s with host := { s.host with reads := s.host.reads ++ [⟨id, key, pasid, addr, len, act, vas, [], own.1, own.2⟩] } }
def pasidOf (s : State) (g : Agent) : Nat := ((ctxOf s g.part g.ctx).map Ctx.pasid).getD 0

/-! ## Loads (R320). -/

/-- Send one group of a load: a host read of this device, or a read packet. -/
def loadGroup (g : Agent) (a : AgentId) (id n sx : Nat) (s : State) (ls : List LaneAcc) : State :=
  match ls.head?.bind (fun x => remoteAt s x.pl) with
  | none => s
  | some (l, _) =>
    let accs := ls.map (fun x => ((remoteAt s x.pl).map Prod.snd).getD 0)
    let lanes := (List.range ls.length).zip (ls.map LaneAcc.l) |>.map (fun p => (p.2, p.1))
    if l = .host s.mod.poddev then
      (ls.zip accs).foldl (fun s p => hostRead s (ckey g.part g.ctx) (pasidOf s g) (p.2 - hostTag) n (blocksOf n [p.1])
        (.load a id sx p.1.l (BitVec.ofNat 64 p.1.a)) (g.born, g.launch)) s
    else sendRead s (mkEntry s g l 0x10 (.read (accs.map (fun p => (p, n)))) n ls (.load a id sx lanes))
/-- Replies a load waits for: one a packet, one a lane of host memory. -/
def loadReplies (s : State) (gs : List (List LaneAcc)) : Nat :=
  (gs.map (fun ls => if ls.any (fun x => (remoteAt s x.pl).any (fun r => r.1 = .host s.mod.poddev)) then ls.length else 1)).foldl (· + ·) 0
/-- The groups of a load or store that leave the device: lanes of one location and 64-byte line (R34). -/
def farGroups (s : State) (ls : List LaneAcc) : List (List LaneAcc) :=
  groupBy (fun x => (remoteAt s x.pl).map (fun r => (r.1, r.2 / 64))) (ls.filter (fun x => !isLocalPlace s x.pl))
/-- What the lanes served by this device read: lane values and the lowest poisoned lane. -/
def localLoads (s : State) (g : Agent) (f : FmtM) (ls : List LaneAcc) : PendRes :=
  let n := accBytes f
  let rs := (ls.filter (fun x => isLocalPlace s x.pl)).map (fun x => (x, placeRead s g x.pl n))
  { v := rs.flatMap (fun r => laneRes f.data.toNat (Ty.regs f.ty) r.1.l (extend (loadSx f.ty) (leVal r.2.1)))
    s := [], flags := 0
    poison := (rs.find? (fun r => r.2.2)).map (fun r => (r.1.l, BitVec.ofNat 64 r.1.a)) }
def performLoad (f : FmtM) (op : Nat) (s : State) (a : AgentId) (g : Agent) (ls : List LaneAcc) : State :=
  let n := accBytes f
  let gs := farGroups s ls
  let (id, s) := fresh s
  let s := countHost s g f ls
  let g := addPend g id f.c.la.toNat (loadReplies s gs) (useM op f).dst (localLoads s g f ls) true
  let s := setAgent s a { g with acqHold := (f.ord = .acq) && memOut g }
  gs.foldl (loadGroup g a id n (loadSx f.ty)) s

/-! ## Stores (R321). -/

def storeGroup (f : FmtM) (a : AgentId) (g : Agent) (s : State) (ls : List LaneAcc) : State :=
  let n := accBytes f
  match ls.head?.bind (fun x => remoteAt s x.pl) with
  | none => s
  | some (l, _) =>
    let accs := ls.map (fun x => (((remoteAt s x.pl).map Prod.snd).getD 0, leBytes n (regVal g f.ty f.data.toNat x.l)))
    if l = .host s.mod.poddev && !isExport s g.part l then
      accs.foldl (fun s p => hostPost s (pasidOf s g) (p.1 - hostTag) p.2) s
    else
      let s := modAgent s a (fun g => farwSet g (farwGet g + 1))
      leave s g l (mkEntry s g l 0x11 (.write accs) n ls (.store a))
def performStore (f : FmtM) (s : State) (a : AgentId) (g : Agent) (ls : List LaneAcc) : State :=
  let n := accBytes f
  let gs := farGroups s ls
  let s := countHost s g f ls
  let here := ls.filter (fun x => isLocalPlace s x.pl)
  let s := here.foldl (fun s x => placeWrite s a x.pl (leBytes n (regVal g f.ty f.data.toNat x.l))) s
  let s := modAgent (cleanPlaces s g.born n here) a (fun g => { g with acqHold := false })
  gs.foldl (storeGroup f a g) s

/-! ## Atomics (R201, R322, R323). -/

/-- Number of the operation in Table 16-5. -/
def atomNum : MKind → Nat
  | .add => 0 | .min => 1 | .max => 2 | .and => 3 | .or => 4 | .xor => 5 | .exch => 6 | _ => 7
/-- What a group carries: its lanes' operands, ascending. -/
def groupReq (f : FmtM) (k : MKind) (g : Agent) (ls : List LaneAcc) : AtomReq :=
  let xs (n : Nat) : List Nat := ls.map (fun x => regVal g f.ty n x.l)
  if k = .cas then .cas f.ty ((xs (FmtM.opnd f)).zip (xs (FmtM.attr f))) else .rmw (atomNum k) f.ty (xs (FmtM.opnd f))
/-- The one operand of a group whose operands combine (R480). -/
def combine (op : Nat) (t : Ty) (xs : List Nat) : Nat :=
  (xs.drop 1).foldl (fun x y => (atomStep op t x y).1) (xs.headD 0)
/-- The payload of Table 16-5: ADDR, OP, TYPE, NOP, ATTR, four zero bytes, and the operands. -/
def atomBytes (addr op : Nat) (t : Ty) (nop : Nat) (ordered : Bool) (xs : List Nat) : List Byte :=
  leBytes 8 addr ++ [BitVec.ofNat 8 op, BitVec.ofNat 8 (Ty.code t), BitVec.ofNat 8 nop, if ordered then 1 else 0, 0, 0, 0, 0]
    ++ xs.flatMap (leBytes (Ty.bytes t))
/-- Operands of n bytes, one after another. -/
def cutOpnds (n : Nat) : Nat → List Byte → List Nat
  | 0, _ => []
  | k + 1, bs => if bs = [] then [] else leVal (bs.take n) :: cutOpnds n k (bs.drop n)
/-- Consecutive operands as the pairs of a compare-and-swap. -/
def pairUp : List Nat → List (Nat × Nat)
  | x :: y :: r => (x, y) :: pairUp r
  | _ => []
/-- The request a payload of Table 16-5 carries: address, ordered bit, operation; none where it is not formed as the table gives. -/
def parseAtom (cas : Bool) (bs : List Byte) : Option (Nat × Bool × AtomReq) :=
  let b (i : Nat) : Nat := (bs.getD i 0).toNat
  let addr := leVal (bs.take 8)
  match Ty.ofCode (b 9) with
  | none => none
  | some t =>
    let n := Ty.bytes t
    let ok : Bool := [Ty.s32, .z32, .s64, .z64, .f32, .b32, .b64].contains t && 1 ≤ b 10 && b 10 ≤ 32 && b 11 ≤ 1
      && b 12 = 0 && b 13 = 0 && b 14 = 0 && b 15 = 0 && bs.length = 16 + n * b 10 * (if cas then 2 else 1) && addr % n = 0
      && (if cas then b 8 = 7 && b 11 = 0 else b 8 < 7)
    let xs := cutOpnds n (bs.length + 1) (bs.drop 16)
    if !ok then none else some (addr, b 11 = 1, if cas then .cas t (pairUp xs) else .rmw (b 8) t xs)
/-- The packet body of a group (Table 16-5): every operand for f32 adds and compare-and-swap, else one. -/
def reqBody (addr : Nat) (ordered : Bool) (q : AtomReq) : PktBody :=
  match q with
  | .rmw op t xs =>
    let xs := if op = 0 && t = .f32 then xs else [combine op t xs]
    .atomic (atomBytes addr op t xs.length ordered xs)
  | .cas t ps => .cas (atomBytes addr 7 t ps.length false (ps.flatMap (fun p => [p.1, p.2])))
/-- Perform a group at a place of this device: the value before, and poison. -/
def placeAtom (s : State) (a : AgentId) (g : Agent) (p : Place) (q : AtomReq) : State × Nat × Bool :=
  match p with
  | .hbm pa => hbmAtom s pa q
  | .yard k => yardAtom s k q
  | _ =>
    let n := Ty.bytes (reqTy q)
    let (bs, bad) := placeRead s ((agent s a).getD g) p n
    if bad then (s, 0, true) else (placeWrite s a p (leBytes n (reqRun q (leVal bs)).2.1), leVal bs, false)
/-- Run one group: here, or by a packet; results gathered for the lanes of this device. -/
def atomGroup (f : FmtM) (k : MKind) (a : AgentId) (g : Agent) (id : Nat) (acc : State × PendRes) (ls : List LaneAcc) : State × PendRes :=
  let (s, r) := acc
  let q := groupReq f k g ls
  let ordered := k ≠ .cas && FmtM.attr f % 2 = 1
  let lanes := ls.map LaneAcc.l
  match ls.head? with
  | none => acc
  | some x => match remoteAt s x.pl with
    | none =>
      let (s, v, bad) := placeAtom s a g x.pl q
      let (fs, _, fl) := if bad then (lanes.map (fun _ => 0), 0, 0) else reqRun q v
      (s, { r with
        v := r.v ++ (lanes.zip fs).flatMap (fun p => laneRes f.data.toNat (Ty.regs f.ty) p.1 p.2)
        flags := r.flags ||| fl
        poison := if !bad then r.poison else match r.poison with
          | some p => if p.1 ≤ x.l then some p else some (x.l, BitVec.ofNat 64 x.a)
          | none => some (x.l, BitVec.ofNat 64 x.a) })
    | some (l, pa) =>
      if l = .host s.mod.poddev && !isExport s g.part l then
        (hostRead s (ckey g.part g.ctx) (pasidOf s g) (pa - hostTag) (accBytes f) (blocksOf (accBytes f) ls) (.atomic a id lanes ordered q)
          (g.born, g.launch), r)
      else
        let s := modAgent s a (fun g => farwSet g (farwGet g + 1))
        let e := mkEntry s g l (if k = .cas then 0x13 else 0x12) (reqBody pa ordered q) (accBytes f) ls (.atomic a id lanes ordered q)
        (leave s g l e, r)
def atomGroups (ls : List LaneAcc) : List (List LaneAcc) := groupBy (fun x => x.a) ls
def performAtom (f : FmtM) (op : Nat) (k : MKind) (s : State) (a : AgentId) (g : Agent) (ls : List LaneAcc) : State :=
  let gs := atomGroups ls
  let left := (gs.filter (fun ls => ls.any (fun x => !isLocalPlace s x.pl))).length
  let (id, s) := fresh s
  let s := countHost s g f ls
  let g1 := addPend g id f.c.la.toNat left (useM op f).dst ⟨[], [], 0, none⟩ true
  let s := setAgent s a { g1 with acqHold := (f.ord = .acq || f.ord = .acqrel) && memOut g1 }
  let (s, r) := gs.foldl (atomGroup f k a g id) (s, ⟨[], [], 0, none⟩)
  modAgent s a (fun g => { g with pend := g.pend.map (fun p => if p.id = id then { p with res := r } else p) })

/-! ## Waits before any access leaves. -/

/-- Home of a physical address at a target, host pages marked (R200): the target, the stack of a device's HBM, and the slice (R478). -/
def farHome (tgt addr : Nat) : Nat × Nat × Nat :=
  if hostTag ≤ addr then (tgt + 512, 0, Config.slice (addr % hostTag / 4096))
  else (tgt, if tgt < 144 then addr / 0xC00000000 else 0, Config.slice (addr / 4096))
/-- Home of an access for `.ord` (R200, R323). -/
def homeId (s : State) (p : Place) : Nat × Nat × Nat :=
  match p with
  | .hbm pa => farHome s.mod.poddev pa
  | .remote (.host d) pa => farHome d (hostTag + pa)
  | .remote l pa => farHome (tgtOf l) pa
  | .host pa => farHome s.mod.poddev (hostTag + pa)
  | .yard k => (1024, k / 2 ^ 22, 0)
  | .block b _ => (1025 + b, 0, 0)
  | .stack _ => (1024, 2 ^ 30, 0)
/-- Homes of the warp's `.ord` requests with no reply yet. -/
def ordOut (s : State) (a : AgentId) (g : Agent) : List (Nat × Nat × Nat) :=
  (allEntries s).filterMap (fun e => match e.owner, e.pkt.body with
    | .atomic b _ _ true _, .atomic bs => if b = a && e.born = g.born then some (farHome e.pkt.tgt.toNat (leVal (bs.take 8))) else none
    | _, _ => none)
  ++ s.host.reads.filterMap (fun r => match r.act with
    | .atomic b _ _ true _ => if b = a && r.born = g.born then some (farHome s.mod.poddev (hostTag + r.addr)) else none
    | _ => none)
/-- An access of a place goes by a packet, or is held as an export: all but those of this device's own memory, and of its own host (R324). -/
def byPacket (s : State) (part : Nat) (k : MKind) (x : LaneAcc) : Bool := match remoteAt s x.pl with
  | none => false
  | some (l, _) => l ≠ .host s.mod.poddev || (k ≠ .load && isExport s part l)
/-- Packets a memory operation sends: sequenced entries, and read tags. -/
def packetsOf (s : State) (part : Nat) (k : MKind) (ls : List LaneAcc) : Nat × Nat :=
  let sent (gs : List (List LaneAcc)) : Nat := (gs.filter (fun x => x.any (byPacket s part k))).length
  match k with
  | .load => (0, sent (farGroups s ls))
  | .store => (sent (farGroups s ls), 0)
  | _ => (sent (atomGroups ls), 0)
/-- Everything a checked memory operation may still wait for (R323, R324, R327, R332, R340). -/
def memWaits (s : State) (a : AgentId) (g : Agent) (f : FmtM) (k : MKind) (ls : List LaneAcc) : Bool :=
  let rel := f.ord = .rel || f.ord = .acqrel
  let (w, r) := packetsOf s g.part k ls
  (rel && relWait s a g (Scope.code f.scope)) || acqWait g || !sendRoom s a g w r
  || (f.space = .far && overlaps s a g (blocksOf (accBytes f) ls))
  || (k ≠ .load && k ≠ .store && k ≠ .cas && FmtM.attr f % 2 = 1
      && (ordOut s a g).any (fun h => ls.any (fun x => homeId s x.pl ≠ h)))
/-- A memory operation (R318, R325, R327, R386). -/
def memBody (op : Nat) (f : FmtM) (s : State) (a : AgentId) (g : Agent) : Res :=
  let k := mkind op
  let rel := f.ord = .rel || f.ord = .acqrel
  match (if rel then g.fabErr else none) with
  | some e => .trap s .fabric e
  | none =>
    let (s, ls, w, ft) := checkLanes s a g f k (accBytes f) (lanes g f.c)
    if w then .wait s
    else match ft with
      | some (c, v) =>
        .trap (forgetAsker s (.agent a)) (if c = Cause.align.code then .align else if c = Cause.bounds.code then .bounds
                 else if c = Cause.perm.code then .perm else if c = Cause.fabric.code then .fabric else .xlate) (BitVec.ofNat 64 v)
      | none => match watchHit g f k (accBytes f) ls with
        | some v => .trap s .watch (BitVec.ofNat 64 v)
        | none =>
          if memWaits s a g f k ls then .wait s
          else .next (match k with
            | .load => performLoad f op s a g ls
            | .store => performStore f s a g ls
            | _ => performAtom f op k s a g ls)

def execLd (f : FmtM) : State → Host.Outcome State Fault Refusal := issue (.ld f) (memBody 0x180 f)
def execSt (f : FmtM) : State → Host.Outcome State Fault Refusal := issue (.st f) (memBody 0x181 f)
def execAtomAdd (f : FmtM) : State → Host.Outcome State Fault Refusal := issue (.atomAdd f) (memBody 0x182 f)
def execAtomMin (f : FmtM) : State → Host.Outcome State Fault Refusal := issue (.atomMin f) (memBody 0x183 f)
def execAtomMax (f : FmtM) : State → Host.Outcome State Fault Refusal := issue (.atomMax f) (memBody 0x184 f)
def execAtomAnd (f : FmtM) : State → Host.Outcome State Fault Refusal := issue (.atomAnd f) (memBody 0x185 f)
def execAtomOr (f : FmtM) : State → Host.Outcome State Fault Refusal := issue (.atomOr f) (memBody 0x186 f)
def execAtomXor (f : FmtM) : State → Host.Outcome State Fault Refusal := issue (.atomXor f) (memBody 0x187 f)
def execAtomExch (f : FmtM) : State → Host.Outcome State Fault Refusal := issue (.atomExch f) (memBody 0x188 f)
def execCas (f : FmtM) : State → Host.Outcome State Fault Refusal := issue (.cas f) (memBody 0x189 f)
def execFld (f : FmtM) : State → Host.Outcome State Fault Refusal := issue (.fld f) (memBody 0x1C0 f)
def execFst (f : FmtM) : State → Host.Outcome State Fault Refusal := issue (.fst f) (memBody 0x1C1 f)
def execFatomAdd (f : FmtM) : State → Host.Outcome State Fault Refusal := issue (.fatomAdd f) (memBody 0x1C2 f)
def execFatomMin (f : FmtM) : State → Host.Outcome State Fault Refusal := issue (.fatomMin f) (memBody 0x1C3 f)
def execFatomMax (f : FmtM) : State → Host.Outcome State Fault Refusal := issue (.fatomMax f) (memBody 0x1C4 f)
def execFatomAnd (f : FmtM) : State → Host.Outcome State Fault Refusal := issue (.fatomAnd f) (memBody 0x1C5 f)
def execFatomOr (f : FmtM) : State → Host.Outcome State Fault Refusal := issue (.fatomOr f) (memBody 0x1C6 f)
def execFatomXor (f : FmtM) : State → Host.Outcome State Fault Refusal := issue (.fatomXor f) (memBody 0x1C7 f)
def execFatomExch (f : FmtM) : State → Host.Outcome State Fault Refusal := issue (.fatomExch f) (memBody 0x1C8 f)
def execFcas (f : FmtM) : State → Host.Outcome State Fault Refusal := issue (.fcas f) (memBody 0x1C9 f)

end Sys2Proof.Machine
end

