-- ==== Sys2Proof/Machine/Io.lean ====
section
/-! DEFINITION. Far accesses that belong to no lane: of work queues, join counters, an agent's SPAWN, JOIN and XPOLL, and the
network engine (05 R112; 07 R142, R149, R154 to R158; 04 R88, R94). An access is asked for by its owner and a number; its answer is
kept until the owner drops it, so that an owner that waits may begin again. -/

namespace Sys2Proof.Machine

/-- What such an access does. -/
inductive IoOp where
  | read (n : Nat) | write (bs : List Byte) | atom (q : AtomReq)
  deriving DecidableEq, Repr
/-- What its owner finds: the bytes (of an atomic: the value before), with poison; a wait; a fault; or a packet that failed. -/
inductive IoRes where
  | val (bs : List Byte) (bad : Bool) | wait | fault (code : Nat) | failed
  deriving DecidableEq, Repr

def ioFind (s : State) (who : IoWho) (idx : Nat) : Option Io := s.sched.ios.find? (fun i => i.who = who && i.idx = idx)
def ioById (s : State) (n : Nat) : Option Io := s.sched.ios.find? (fun i => i.n = n)
/-- The owner has done with its accesses. -/
def ioDrop (s : State) (who : IoWho) : State := { s with sched := { s.sched with ios := s.sched.ios.filter (fun i => i.who ≠ who) } }
def ioNew (s : State) (who : IoWho) (idx : Nat) (st : IoSt) : Nat × State :=
  let (n, s) := fresh s
  (n, { s with sched := { s.sched with ios := s.sched.ios ++ [⟨n, who, idx, st⟩] } })
/-- An event without effect is not tried again before something else has happened. -/
def stall (s : State) (x : Stall) : State := { s with stalled := s.stalled ++ [x] }
/-- The answer of an access has come. -/
def ioSet (s : State) (n : Nat) (st : IoSt) : State :=
  let put (is : List Io) : List Io := is.map (fun i => if i.n = n then { i with st } else i)
  let img (i : Snap) : Snap := { i with ios := put i.ios }
  { s with sched := { s.sched with ios := put s.sched.ios }
           ck := s.ck.map (fun c => { c with cand := c.cand.map img, images := c.images.map (fun e => (e.1, img e.2)) }) }
/-- Perform an access in this device's HBM. -/
def ioLocal (s : State) (pa : Nat) (op : IoOp) : State × List Byte × Bool :=
  match op with
  | .read n => let (bs, bad) := hbmRead s pa n; (s, bs, bad)
  | .write bs => (hbmWrite s pa bs, [], false)
  | .atom q => let (s, v, bad) := hbmAtom s pa q; (s, leBytes (Ty.bytes (reqTy q)) v, bad)
def ioKind : IoOp → Nat
  | .read _ => 0x10 | .write _ => 0x11 | .atom (.rmw _ _ _) => 0x12 | .atom (.cas _ _) => 0x13
def ioBody (pa : Nat) : IoOp → PktBody
  | .read n => .read [(pa, n)]
  | .write bs => .write [(pa, bs)]
  | .atom q => reqBody pa false q
def isRead : IoOp → Bool
  | .read _ => true | _ => false
/-- The agent an access is for. -/
def ioWhoAgent : IoWho → Option AgentId
  | .agent a => some a
  | _ => none
/-- Birth and launch of the agent an access is for. -/
def ioOwn (s : State) (who : IoWho) : Nat × Nat := match (ioWhoAgent who).bind (agent s) with
  | some g => (g.born, g.launch)
  | none => (0, 0)
/-- An access off the device's memory leaves (R34, R137, R347). An agent's own counts as its instruction's (R324). -/
def ioLeave (s : State) (who : IoWho) (c : Ctx) (vas : List Nat) (l : Loc) (pa n : Nat) (op : IoOp) : State :=
  let export_ := !isRead op && isExport s c.part l
  let own := ioOwn s who
  if l = .host s.mod.poddev && !export_ then
    match op with
    | .read k => hostRead s (ctxKey c) c.pasid pa k vas (.io n) own
    | .write bs => ioSet (hostPost s c.pasid pa bs) n (.got [] false)
    | .atom q => hostRead s (ctxKey c) c.pasid pa (Ty.bytes (reqTy q)) vas (.ioAtom n q) own
  else
    let a := match l with
      | .host _ => hostTag + pa
      | _ => pa
    let e : Entry := { ref := .tag 0, pkt := mkPkt s c.part (ctxGen s c) (tgtOf l) (ioKind op) (ioBody a op), first := 0, last := 0,
                       va := 0, vas, ctx := ctxKey c, owner := .io n (ioWhoAgent who), launch := own.2, born := own.1, fn := c.fn }
    let s := match ioWhoAgent who with
      | some a => if isRead op then s else modAgent s a (fun g => farwSet g (farwGet g + 1))
      | none => s
    if export_ then holdFor s c.part c.fn (.pkt e) else if isRead op then sendRead s e else sendSeq s e
/-- The 8-byte blocks of far space that n bytes at va touch. -/
def vaBlocks (va n : Nat) : List Nat := (List.range ((va + n - 1) / 8 + 1 - va / 8)).map (fun i => va / 8 + i)
def ioSize : IoOp → Nat
  | .read n => n
  | .write bs => bs.length
  | .atom q => Ty.bytes (reqTy q)
/-- Access a place found by a translation or pinned before; vas are the blocks of far space it touches, where its agent's later accesses wait
for it (R332). A write of this device's memory waits while the undo log is full (R135). -/
def ioPlace (who : IoWho) (idx : Nat) (c : Ctx) (vas : List Nat) (l : Loc) (pa : Nat) (op : IoOp) (s : State) : State × IoRes :=
  if l = .dev s.mod.poddev && !isRead op && undoFull s c.part then (s, .wait)
  else if l = .dev s.mod.poddev then
    let (s, bs, bad) := ioLocal s pa op
    ((ioNew s who idx (.got bs bad)).2, .val bs bad)
  else
    let (n, s) := ioNew s who idx .out
    let s := ioLeave s who c vas l pa n op
    match ioById s n with
    | some { st := .got bs bad, .. } => (s, .val bs bad)
    | _ => (s, .wait)
def ioAt (who : IoWho) (idx : Nat) (c : Ctx) (l : Loc) (pa : Nat) (op : IoOp) (s : State) : State × IoRes := ioPlace who idx c [] l pa op s
/-- An access asked for before. -/
def ioAgain (s : State) (who : IoWho) (idx : Nat) : Option IoRes :=
  (ioFind s who idx).map (fun i => match i.st with
    | .out => .wait
    | .got bs bad => .val bs bad
    | .failed => .failed)
/-- A far access of an owner, translated in its context (R55, R65). -/
def farIo (who : IoWho) (idx : Nat) (c : Ctx) (va : Nat) (acc : Acc) (op : IoOp) (s : State) : State × IoRes :=
  match ioAgain s who idx with
  | some r => (s, r)
  | none => match translate s who c agentDie va acc with
    | (s, .wait) => (s, .wait)
    | (s, .fault code) => (takeFault s who (ctxKey c) va, .fault code)
    | (s, .ok x) => ioAt who idx c x.loc (x.pa + (va - x.va)) op s
/-- The packet of an agent's access has its table entry or read tag, and FARW room (R324); a write in this device's memory has room in the undo
log (R135). -/
def ioRoom (s : State) (a : AgentId) (part : Nat) (l : Loc) (op : IoOp) : Bool :=
  let sent := l ≠ .dev s.mod.poddev && (l ≠ .host s.mod.poddev || (!isRead op && isExport s part l))
  if l = .dev s.mod.poddev then isRead op || !undoFull s part
  else !sent || (agent s a).all (fun g => if isRead op then sendRoom s a g 0 1 else sendRoom s a g 1 0)
/-- A far access of an agent's instruction; counted says that it is the instruction's first on a host page of this device (R78). -/
def agentIo (a : AgentId) (idx : Nat) (c : Ctx) (va : Nat) (acc : Acc) (op : IoOp) (counted : Bool) (s : State) : State × IoRes :=
  match ioAgain s (.agent a) idx with
  | some r => (s, r)
  | none => match translate s (.agent a) c (cacheOf a) va acc with
    | (s, .wait) => (s, .wait)
    | (s, .fault code) => (takeFault s (.agent a) (ctxKey c) va, .fault code)
    | (s, .ok x) =>
      if !ioRoom s a c.part x.loc op then (s, .wait) else
      let s := if counted && homeOf s c va = .at_ (.host s.mod.poddev) then hostCount s c va else s
      ioPlace (.agent a) idx c (vaBlocks va (ioSize op)) x.loc (x.pa + (va - x.va)) op s
/-- Far 8-byte words of an owner from va: all of them, or why not yet. -/
def farIoWords (who : IoWho) (c : Ctx) : Nat → Nat → Nat → State → State × Except IoRes (List W64)
  | 0, _, _, s => (s, .ok [])
  | n + 1, idx, va, s =>
    match farIo who idx c va .rd (.read 8) s with
    | (s, .val bs _) => match farIoWords who c n (idx + 1) (va + 8) s with
      | (s, .ok r) => (s, .ok (BitVec.ofNat 64 (leVal bs) :: r))
      | (s, .error e) => (s, .error e)
    | (s, r) => (s, .error r)

end Sys2Proof.Machine
end

