-- ==== Sys2Proof/Machine/Safe.lean ====
section
/-! DEFINITION. The code descriptor and the safe-point table, as the hardware reads them for a halt and for RESAMPLE (11 R251 to R253),
and EXIT. -/

namespace Sys2Proof.Machine

/-- What a safe-point entry marks live (Table 11-9). -/
structure LiveSet where
  vlive : BitVec 256
  slive : W64
  plive : Nat
  deriving DecidableEq, Repr

/-- Words of the hardware's own tables: read, not readable, or still to come. -/
inductive SideW where
  | vals (ws : List Nat) | bad | wait
  deriving DecidableEq, Repr
/-- One 8-byte word, read as any far data is (R253). -/
def sideWord (who : IoWho) (cx : Ctx) (idx va : Nat) (s : State) : State × SideW :=
  match farIo who idx cx va .rd (.read 8) s with
  | (s, .val bs bad) => (s, if bad then .bad else .vals [leVal bs])
  | (s, .wait) => (s, .wait)
  | (s, _) => (s, .bad)
/-- n such words from va, a stride apart, numbered from idx. -/
def sideWords (who : IoWho) (cx : Ctx) (stride : Nat) : Nat → Nat → Nat → State → State × SideW
  | 0, _, _, s => (s, .vals [])
  | n + 1, idx, va, s => match sideWord who cx idx va s with
    | (s, .vals w) => match sideWords who cx stride n (idx + 1) (va + stride) s with
      | (s, .vals ws) => (s, .vals (w ++ ws))
      | r => r
    | r => r
/-- Offsets ascend strictly. -/
def ascending : List Nat → Bool
  | a :: b :: r => a % 2 ^ 32 < b % 2 ^ 32 && ascending (b :: r)
  | _ => true
/-- Descriptor of the clause at a far address (R251). -/
def descOf (h : Nat) : Nat := alignDown h 0x1000000
/-- What the safe-point table says of an instruction word. -/
inductive SideR where
  | found (l : LiveSet) | none | wait
  deriving DecidableEq, Repr
/-- The entry of a kind for the instruction word at an address, in a clause whose header is at h; none where the table is unusable or has none
(R253). Words are numbered: 3 of the descriptor, then the entries' first words, then those of the entry. -/
def sideEntry (who : IoWho) (cx : Ctx) (kind h at_ : Nat) (s : State) : State × SideR :=
  match sideWords who cx 8 3 0 (descOf h) s with
  | (s, .vals [w0, safep, w2]) =>
    let n := w2 % 2 ^ 32
    if w0 % 2 ^ 32 ≠ 0x4F584443 || at_ < descOf h + 64 then (s, .none)
    else match sideWords who cx 48 n 3 safep s with
      | (s, .vals hs) =>
        if !ascending hs then (s, .none)
        else match hs.findIdx? (fun w => nfld w 31 0 = at_ - (descOf h + 64) && nfld w 33 32 = kind) with
          | none => (s, .none)
          | some i => match sideWords who cx 8 6 (3 + n + 6 * i) (safep + 48 * i) s with
            | (s, .vals [w, sl, v0, v1, v2, v3]) =>
              (s, .found ⟨BitVec.ofNat 256 (v0 + v1 * 2 ^ 64 + v2 * 2 ^ 128 + v3 * 2 ^ 192), BitVec.ofNat 64 sl, nfld w 63 56⟩)
            | (s, .wait) => (s, .wait)
            | (s, _) => (s, .none)
      | (s, .wait) => (s, .wait)
      | (s, .bad) => (s, .none)
  | (s, .wait) => (s, .wait)
  | (s, _) => (s, .none)
/-- The table's entry for the word an agent stands at. -/
def sideHere (s : State) (a : AgentId) (g : Agent) (kind : Nat) : State × SideR :=
  match ctxOf s g.part g.ctx with
  | none => (s, .none)
  | some cx => sideEntry (.side a) cx kind g.pc.toNat (curAddr g).toNat s

/-- The clause after an agent's begins past the end of its code section, by CODESIZE of the descriptor (Table 11-10): none while the descriptor is
still to come, and not where it cannot be read. -/
def pastCode (s : State) (a : AgentId) (g : Agent) : State × Option Bool :=
  match ctxOf s g.part g.ctx with
  | none => (s, some false)
  | some cx =>
    let d := descOf g.pc.toNat
    match sideWords (.side a) cx 8 1 0 d s with
    | (s, .vals [w]) => (ioDrop s (.side a), some (w % 2 ^ 32 = 0x4F584443 && d + 64 + w / 2 ^ 32 ≤ (nextClause g).toNat))
    | (s, .wait) => (s, none)
    | (s, _) => (ioDrop s (.side a), some false)
/-- The warp has no lane left that could act, and ends, unless a fabric error is taken first (R183, R325). -/
def exitWarp (s : State) (a : AgentId) (g : Agent) : Res := match g.fabErr with
  | some e => .trap s .fabric e
  | none => .placed (endAgent (setAgent s a { g with live := 0, recs := [] }) a)
/-- EXIT (R183, R294, R325): the participating lanes retire; a fabric error is taken where the warp would end; a warp with live lanes left
continues at the next clause. Where all of those lie outside EXM and the code section has no next clause the warp ends, as in R476 (DEDUCED,
log 15). -/
def exitBody (f : FmtX) (s : State) (a : AgentId) (g : Agent) : Res :=
  if isStream a then (if uniformOk a g f.c then .placed (endAgent s a) else .jump s (nextClause g))
  else
    let out := lanes g f.c
    let live := g.live &&& ~~~ (maskOf 32 out)
    let go (s : State) : Res := .jump (setAgent (popLeave s a (fun l => out.contains l)) a { g with live }) (nextClause g)
    if live = 0 then exitWarp s a g
    else if live &&& g.exm ≠ 0 then go s
    else match pastCode s a g with
      | (s, none) => .wait s
      | (s, some true) => exitWarp s a g
      | (s, some false) => go s
def execExit (f : FmtX) : State → Host.Outcome State Fault Refusal := issue (.exit f) (exitBody f)

end Sys2Proof.Machine
end

