-- ==== Sys2Proof/Machine/Claims.lean ====
section
/-! DEFINITION. Path claims: slots, pins, routes and the claim phase; flows, copies, halos, gathers and collectives (22; 02 R29
to R32). -/

namespace Sys2Proof.Machine

/-! ## Slots and handles (R389 to R392). -/

def slotAt (s : State) (id : ClaimId) : Slot := (lkp s.eng.slots id).getD ⟨0, none⟩
def claimAt (s : State) (id : ClaimId) : Option Claim := (slotAt s id).claim
def putClaim (s : State) (id : ClaimId) (c : Claim) : State :=
  { s with eng := { s.eng with slots := ins s.eng.slots id ⟨(slotAt s id).gen, some c⟩ } }
def modClaim (s : State) (id : ClaimId) (f : Claim → Claim) : State :=
  match claimAt s id with
  | some c => putClaim s id (f c)
  | none => s
/-- The claim a handle names, when the handle is valid (R391). -/
def handleOf (s : State) (a : AgentId) (g : Agent) (kh : Nat) : Option (ClaimId × Claim) :=
  let k := mget g.k kh
  let id : ClaimId := ⟨g.die, g.cluster, fld k 5 0⟩
  match claimAt s id with
  | some c => if bit k 7 && c.owner = a && (slotAt s id).gen.toNat = fld k 31 16 then some (id, c) else none
  | none => none
def setHandle (s : State) (a : AgentId) (kh : Nat) (v : W64) : State := modAgent s a (fun g => { g with k := mset g.k kh v })
/-- The lowest free slot of a pool: held 0 to 47, transient 48 to 63. -/
def freeSlotOf (s : State) (g : Agent) (held : Bool) : Option ClaimId :=
  ((List.range 64).map (fun n => (⟨g.die, g.cluster, n⟩ : ClaimId))).find? (fun id =>
    (if held then id.slot < 48 else 48 ≤ id.slot) && claimAt s id = none)
/-- Pins other claims of the slot's pool hold (Table 22-1). -/
def poolPins (s : State) (id : ClaimId) : Nat :=
  (s.eng.slots.map (fun e => if e.1 ≠ id && e.1.die = id.die && e.1.cluster = id.cluster
      && (e.1.slot < 48) = (id.slot < 48) then ((e.2.claim.map (fun c => c.pins.length)).getD 0) else 0)).foldl (· + ·) 0
def stCode : CState → Nat
  | .empty => 0 | .walking => 1 | .faulted => 2 | .ready => 3 | .flowing => 4 | .parked => 5 | .revoked => 6
/-- Status word (Table 22-4). CURSOR has 17 bits: of a halo's offset, which may be greater, it shows the low ones (DESIGN CHOICE, log 12). -/
def claimStatus (c : Claim) : W64 :=
  BitVec.ofNat 64 ((if c.pend then c.cursor % 2 ^ 17 * 2 ^ 30 else 0) + c.pins.length % 1024 * 2 ^ 20
    + (if c.st = .faulted then c.cause * 2 ^ 12 else 0) + (if c.st = .revoked then c.reason * 2 ^ 9 else 0)
    + (if c.work = .halo then 2 ^ 8 else 0) + (if c.pend then 2 ^ 7 else 0) + (if c.queued then 2 ^ 6 else 0) + stCode c.st)
def newClaim (a : AgentId) (g : Agent) (work : CWork) (desc : List W64) : Claim :=
  { owner := a, launch := g.launch, work, st := .walking, desc, ctx := ckey g.part g.ctx, blk := g.blk, cause := 0, reason := 0, pend := false,
    queued := false, cursor := 0, pins := [], routed := false, denied := false, paths := [], idxs := [], esz := 0, spec := 0,
    rank := g.rank, nrank := g.nrank, legs := [], flowLen := 0, doneB := 0, psn := false, compl := .none, opId := 0,
    park := false, inval := none, started := [], heldAt := none, orphan := false, stage := [], ahead := [] }
def descAt (c : Claim) (i : Nat) : Nat := (c.desc.getD i 0).toNat

/-! ## Windows (R394, Tables 22-6, 22-9 to 22-11). -/

/-- Space and base of the source side and of the destination side of a claim. -/
def srcSpace (c : Claim) : Nat := match c.work with
  | .halo => nfld (descAt c 3) 19 17
  | .gather => 7
  | _ => nfld (descAt c 2) 23 21
def dstSpace (c : Claim) : Nat := match c.work with
  | .halo => 7
  | .gather => nfld (descAt c 3) 22 20
  | _ => nfld (descAt c 2) 26 24
def gatherBytes (c : Claim) : Nat := c.idxs.length * c.esz
/-- Source and destination bytes of a collective's rank (R409). -/
def collSrcLen (kind b rank root n : Nat) : Nat := match kind with
  | 1 => n * b | 3 => if rank = root then b else 0 | _ => b
def collDstLen (kind b n : Nat) : Nat := if kind = 2 then n * b else b
/-- A far window to pin: its number, whether written, base and length. -/
structure Seg where
  win  : Nat
  wr   : Bool
  base : Nat
  len  : Nat
  deriving DecidableEq, Repr
/-- The far windows of a claim in claim order (R396, R406, R408, R409). -/
def claimSegs (c : Claim) : List Seg :=
  let one (sp win : Nat) (wr : Bool) (base len : Nat) : List Seg := if sp = 7 && len ≠ 0 then [⟨win, wr, base, len⟩] else []
  match c.work with
  | .halo =>
    let len := nfld (descAt c 3) 16 0
    c.paths.flatMap (fun p => one (srcSpace c) 0 false (descAt c 0 + p.2.2.1) len)
    ++ c.paths.flatMap (fun p => one 7 8 true p.2.2.2 len)
  | .gather => c.idxs.flatMap (fun a => one 7 0 false a c.esz) ++ one (dstSpace c) 1 true (descAt c 2) (gatherBytes c)
  | .coll =>
    let w := descAt c 2
    let kind := nfld c.spec 2 0
    one (srcSpace c) 0 false (descAt c 0) (collSrcLen kind (nfld w 20 0) c.rank (nfld w 34 27) c.nrank)
    ++ one (dstSpace c) 1 true (descAt c 1) (collDstLen kind (nfld w 20 0) c.nrank)
  | _ => one (srcSpace c) 0 false (descAt c 0) (nfld (descAt c 2) 20 0)
         ++ one (dstSpace c) 1 true (descAt c 1) (nfld (descAt c 2) 20 0)
/-- A near window fits its space: shared within SHMEM, yard within the yard. -/
def nearFits (s : State) (g : Agent) (sp base len : Nat) : Bool :=
  match sp with
  | 1 => match block s g.blk with
    | some k => base + len ≤ k.shmem * 1024
    | none => false
  | 6 => base + len ≤ 4194304 * (clustersOf s g.part g.die).length
  | _ => true
def spaceOk (sp : Nat) : Bool := sp = 1 || sp = 6 || sp = 7
/-- Descriptor checks of CLAIM and COPY (R394): the TVAL of the first failure. -/
def descCheck (s : State) (g : Agent) (src dst w : Nat) : Option Nat :=
  let len := nfld w 20 0
  if nfld w 63 27 ≠ 0 || !spaceOk (nfld w 26 24) || !spaceOk (nfld w 23 21) || len = 0 || 0x100000 < len then some w
  else if !nearFits s g (nfld w 23 21) src len then some src
  else if !nearFits s g (nfld w 26 24) dst len then some dst
  else none

/-! ## Pins (R389, R396). -/

/-- First address of [a, hi) that no pin of the window covers. -/
def uncovered (pins : List Pin) (win hi : Nat) : Nat → Nat → Option Nat
  | 0, a => if a < hi then some a else none
  | n + 1, a =>
    if hi ≤ a then none
    else match pins.find? (fun p => p.win = win && p.va ≤ a && a < p.va + p.size) with
      | some p => uncovered pins win hi n (p.va + p.size)
      | none => some a
/-- The next address to pin, in claim order. -/
def nextToPin (pins : List Pin) : List Seg → Option (Seg × Nat)
  | [] => none
  | sg :: r => match uncovered pins sg.win (sg.base + sg.len) pins.length sg.base with
    | some a => some (sg, a)
    | none => nextToPin pins r
inductive PinR where
  | done | wait | fault (code va : Nat) | full (va : Nat)
  deriving DecidableEq, Repr
/-- Pin page after page until a wait, a fault, want of a pin, or the end (R396). -/
def pinAll (who : IoWho) (cx : Ctx) (die lim : Nat) (segs : List Seg) : Nat → State → List Pin → State × List Pin × PinR
  | 0, s, pins => (s, pins, .wait)
  | n + 1, s, pins =>
    match nextToPin pins segs with
    | none => (s, pins, .done)
    | some (sg, a) =>
      match translate s who cx die a (if sg.wr then .wr else .rd) with
      | (s, .wait) => (s, pins, .wait)
      | (s, .fault code) => (s, pins, .fault code a)
      | (s, .ok x) =>
        if lim ≤ pins.length then (s, pins, .full a)
        else pinAll who cx die lim segs n s (pins ++ [⟨sg.win, x.va, x.size, x.loc, x.pa, x.gpa⟩])

/-! ## Routes (R29 to R31, R395). -/

def isDstWin (c : Claim) (w : Nat) : Bool := if c.work = .halo then 8 ≤ w else w = 1
/-- Reservations a claim needs: target and whether data leave the device. -/
def routeWants (s : State) (c : Claim) : List (Nat × Bool) :=
  let far := c.pins.filterMap (fun p =>
    if p.loc = .dev s.mod.poddev || p.loc = .host s.mod.poddev then none else some (tgtOf p.loc, isDstWin c p.win))
  let ranks := if c.work = .coll then ((s.sched.launches.find? (fun l => l.id = c.launch)).map
      (fun l => (l.nbrs.filter (fun x => x.1 ≠ s.mod.poddev)).map (fun x => (x.1, true)))).getD [] else []
  (far ++ ranks).eraseDups
def claimResvs (s : State) (id : ClaimId) : List Resv := s.fab.resvs.filter (fun r => r.claim = id)
/-- Put the reservations a claim lacks into the allocator's queue (R31). -/
def seekRoutes (s : State) (id : ClaimId) (c : Claim) : State :=
  let miss := (routeWants s c).filter (fun w =>
    !(s.fab.resvQ.any (fun q => q.1 = id && q.2.1 = w.1 && q.2.2 = w.2)) && !(claimResvs s id).any (fun r => r.tgt = w.1 && r.out = w.2))
  { s with fab := { s.fab with resvQ := s.fab.resvQ ++ miss.map (fun w => (id, w.1, w.2)) } }
/-- Every reservation the claim needs is granted. -/
def routesHeld (s : State) (id : ClaimId) (c : Claim) : Bool :=
  !s.fab.resvQ.any (fun q => q.1 = id)
  && (routeWants s c).all (fun w => (claimResvs s id).any (fun r => r.tgt = w.1 && r.out = w.2))
  && (claimResvs s id).all (fun r => r.granted)
/-- Free bulk slots of a port in a direction: 768 of a frame, data and control (R27, R29). -/
def freeSlots (s : State) (j : Nat) (out : Bool) : Nat :=
  768 - (s.fab.resvs.map (fun r => if r.j ≠ j then 0 else if r.out = out then r.data else r.ctl)).foldl (· + ·) 0
/-- Data slots of path i of n: an equal division, the remainder on the lowest junction (R30). -/
def pathShare (n i : Nat) : Nat := 656 / n + if i = 0 then 656 % n else 0
def ctlShare (d : Nat) : Nat := (d + 63) / 64
/-- Slots of a junction's link to a device that granted reservations hold, in one direction: toward the junction or away from it. Data
run toward the data's destination, control the other way (R27, R29). -/
def jUsed (s : State) (j port : Nat) (toJ : Bool) : List Nat :=
  s.fab.jSlots.flatMap (fun x =>
    if x.j ≠ j then []
    else
      let data := (x.req.src = port && x.req.out = toJ) || (x.req.dst = port && x.req.out ≠ toJ)
      let ctl := (x.req.src = port && x.req.out ≠ toJ) || (x.req.dst = port && x.req.out = toJ)
      ((if data then x.data else []) ++ (if ctl then x.ctl else [])).map (if toJ then Prod.fst else Prod.snd))
/-- A junction's two links have room for a request: 768 slots of a frame in each direction (R27, R29). -/
def jRoom (s : State) (j : Nat) (r : ResvReq) : Bool :=
  let fits (port : Nat) (toJ : Bool) (n : Nat) : Bool := (jUsed s j port toJ).length + n ≤ 768
  fits r.src r.out r.data && fits r.src (!r.out) r.ctl
    && (144 ≤ r.dst || (fits r.dst (!r.out) r.data && fits r.dst r.out r.ctl))
/-- The request for path i of n through a junction. -/
def pathReq (s : State) (id : ClaimId) (part tgt : Nat) (out : Bool) (n i : Nat) : ResvReq :=
  ⟨id, s.mod.poddev, tgt, part, out, pathShare n i, ctlShare (pathShare n i)⟩
/-- Junction j can hold path i of n: this device's link, and the junction's two. -/
def pathFits (s : State) (id : ClaimId) (part tgt : Nat) (out : Bool) (n i j : Nat) : Bool :=
  let r := pathReq s id part tgt out n i
  r.data ≤ freeSlots s j out && r.ctl ≤ freeSlots s j (!out) && jRoom s j r
/-- The n lowest junctions that can hold n equal paths: the lowest of them carries the remainder. -/
def choosePaths (s : State) (id : ClaimId) (part tgt : Nat) (out : Bool) (ports : List Nat) (n : Nat) : Option (List Nat) :=
  match ports.find? (pathFits s id part tgt out n 0) with
  | none => none
  | some j =>
    let rest := ports.filter (fun k => j < k && pathFits s id part tgt out n 1 k)
    if n ≤ rest.length + 1 then some (j :: rest.take (n - 1)) else none
/-- Junctions through which a claim's path may lead: of the live owned ports those with a route of the partition; where it has no route at
all, the live ports, whose junctions deny the request (R30, R51, R52). -/
def pathPorts (s : State) (part tgt : Nat) : List Nat :=
  let ps := livePorts s part tgt
  let owned := ps.filter (fun j => jRouteOk s j part s.mod.poddev tgt)
  if owned = [] then ps else owned
/-- The fewest paths that can hold a reservation (R30). -/
def fewestPaths (s : State) (id : ClaimId) (part tgt : Nat) (out : Bool) : Option (List Nat) :=
  let ps := pathPorts s part tgt
  ((List.range ps.length).find? (fun n => (choosePaths s id part tgt out ps (n + 1)).isSome)).bind
    (fun n => choosePaths s id part tgt out ps (n + 1))
/-- The queue's head is with the junctions: none overtakes it until they have answered (R31). -/
def headOut (s : State) (id : ClaimId) (tgt : Nat) (out : Bool) : Bool := s.fab.resvs.any (fun r => r.claim = id && r.tgt = tgt && r.out = out)
/-- The head of the reservation queue can be granted. -/
def resvDue (s : State) : Bool := match s.fab.resvQ with
  | [] => false
  | (id, tgt, out) :: _ => match claimAt s id with
    | none => true
    | some c => !headOut s id tgt out && (fewestPaths s id (c.ctx / 65536) tgt out).isSome
/-- Grant the queue's head when its paths have room: slots set aside and requests sent to the junctions (R30, R31). -/
def queueGrant (s : State) : State :=
  match s.fab.resvQ with
  | [] => s
  | (id, tgt, out) :: r =>
    match claimAt s id with
    | none => { s with fab := { s.fab with resvQ := r } }
    | some c =>
      let part := c.ctx / 65536
      match if headOut s id tgt out then none else fewestPaths s id part tgt out with
      | none => s
      | some js =>
        let gen := ((ctxByKey s c.ctx).map (ctxGen s)).getD 0
        (List.range js.length).foldl (fun s i =>
          let j := js.getD i 0
          let q := pathReq s id part tgt out js.length i
          sendRead { s with fab := { s.fab with resvs := s.fab.resvs ++ [⟨id, j, tgt, out, q.data, q.ctl, false⟩] } }
            { ref := .tag 0, pkt := mkPkt s part gen (144 + j) 0x20 (.resvReq q), first := 0, last := 0, va := 0, vas := [],
              ctx := c.ctx, owner := .resv id j, launch := 0, born := 0, fn := ((ctxByKey s c.ctx).map Ctx.fn).getD 0 }) s
/-- RESERVATION_QUEUE_GRANT (R31). -/
def execReservationQueueGrant (s : State) : Host.Outcome State Fault Refusal := .next (progress (queueGrant s))
/-- A junction's answer (R31, R52): a grant, with the last of which the request leaves the queue, or a denial that ends the claim's requests. -/
def resvReplyOp (s : State) (r : ResvReply) : State :=
  let s := { s with fab := { s.fab with entries := s.fab.entries.filter (fun e => e.owner ≠ .resv r.claim r.j) } }
  if r.granted then
    let s := { s with fab := { s.fab with resvs := s.fab.resvs.map (fun (x : Resv) => if x.claim = r.claim && x.j = r.j then { x with granted := true } else x) } }
    let s := { s with fab := { s.fab with resvQ := s.fab.resvQ.filter (fun q =>
      !(q.1 = r.claim && headOut s q.1 q.2.1 q.2.2 && !s.fab.resvs.any (fun x => x.claim = q.1 && x.tgt = q.2.1 && x.out = q.2.2 && !x.granted))) } }
    modClaim s r.claim (fun c => { c with queued := s.fab.resvQ.any (fun q => q.1 = r.claim) })
  else modClaim (dropRoutes s r.claim) r.claim (fun c => { c with denied := true, queued := false })
/-- A request no junction answered in time (R39): its slots go, and it stands at the queue's head as before (R31). -/
def resvRetry (s : State) (id : ClaimId) (j : Nat) : State :=
  match s.fab.resvs.find? (fun r => r.claim = id && r.j = j && !r.granted) with
  | none => s
  | some x =>
    let gone (r : Resv) : Bool := r.claim = id && r.tgt = x.tgt && r.out = x.out
    { s with fab := { s.fab with
        resvs := s.fab.resvs.filter (fun r => !gone r)
        entries := s.fab.entries.filter (fun e => !s.fab.resvs.any (fun r => gone r && e.owner = .resv id r.j))
        jSlots := s.fab.jSlots.filter (fun k => !(k.req.claim = id && k.req.src = s.mod.poddev && k.req.dst = x.tgt && k.req.out = x.out)) } }

/-! ## The claim phase (R396). -/

inductive PhR where
  | ready | wait | trap (c : Cause) (v : Nat)
  deriving DecidableEq, Repr
def causeOf (code : Nat) : Cause :=
  if code = 0x11 then .perm else if code = 0x30 then .fabric else if code = 0x12 then .claimx else .xlate
/-- Destination base of a claim. -/
def dstBase (c : Claim) : Nat := descAt c (if c.work = .gather then 2 else 1)
/-- Seat buffers and routes of a claim whose pins are complete. -/
def seat (s : State) (id : ClaimId) (c : Claim) : State × PhR :=
  if c.denied then (putClaim s id { c with denied := false, st := .faulted, cause := 0x11, queued := false }, .trap .perm (dstBase c))
  else
    let s := seekRoutes s id c
    if routesHeld s id c then (putClaim s id { c with routed := true, queued := false }, .ready)
    else (putClaim s id { c with queued := s.fab.resvQ.any (fun q => q.1 = id) }, .wait)
/-- Run the claim phase from where it stands. A transient claim waits for want of a pin, a held one faults with CLAIMX. -/
def claimPhase (s : State) (g : Agent) (id : ClaimId) (c : Claim) : State × PhR :=
  match ctxByKey s c.ctx with
  | none => (putClaim s id { c with st := .faulted, cause := 0x10 }, .trap .xlate (descAt c 0))
  | some cx =>
    let (s, pins, r) := pinAll (.claim id) cx g.die (1024 - poolPins s id) (claimSegs c) 4096 s c.pins
    let c := { c with pins }
    match r with
    | .wait => (putClaim s id c, .wait)
    | .fault code va =>
      (putClaim (takeFault s (.claim id) c.ctx va) id { c with st := .faulted, cause := if code = 0x30 then 0 else code }, .trap (causeOf code) va)
    | .full va =>
      if id.slot < 48 then (putClaim s id { c with st := .faulted, cause := 0x12 }, .trap .claimx va) else (putClaim s id c, .wait)
    | .done => seat s id c

/-! ## Flows (R397 to R400). -/

/-- Cut a transfer at every 4 KiB boundary of either side (R399). -/
def cutLegs (sw dw : Nat) : Nat → Nat → Nat → Nat → Nat → Nat → List Leg
  | 0, _, _, _, _, _ => []
  | k + 1, n, off, src, dst, rem =>
    if rem = 0 then []
    else
      let len := min rem (min (4096 - src % 4096) (4096 - dst % 4096))
      ⟨n, off, len, sw, src, dw, dst, false, 0⟩ :: cutLegs sw dw k (n + 1) (off + len) (src + len) (dst + len) (rem - len)
/-- Legs that start now, each in its turn: 4 KiB take 32 ns at the reserved rate, and none is placed sooner (Table 22-14; DEDUCED, log 12). -/
def paceLegs (now : Nat) (ls : List Leg) : List Leg :=
  ((List.range ls.length).zip ls).map (fun x => { x.2 with due := now + 32 * (x.1 + 1) })
/-- A far address through the pins of its window. -/
def pinAt (c : Claim) (win a : Nat) : Option (Loc × Nat) :=
  (c.pins.find? (fun p => p.win = win && p.va ≤ a && a < p.va + p.size)).map (fun p => (p.loc, p.pa + (a - p.va)))
/-- A side of a leg lies in this device's memory. -/
def sideLocal (s : State) (c : Claim) (sp win a : Nat) : Bool :=
  sp ≠ 7 || (match pinAt c win a with
    | some (l, _) => l = .dev s.mod.poddev
    | none => false)
/-- Yard keys of n bytes from offset o of a partition's yard on a die. -/
def yardKeys (s : State) (part die o n : Nat) : List Nat :=
  let cs := clustersOf s part die
  (List.range n).map (fun i => yardPlace cs die (o + i))
/-- Bytes of a side of this device, each with the poison of its line. -/
def readSide (s : State) (id : ClaimId) (c : Claim) (sp win a n : Nat) : List (Byte × Bool) :=
  match sp with
  | 1 => match block s c.blk with
    | some k => (List.range n).map (fun i => (mget k.mem (a + i), k.poison.contains ((a + i) / 64)))
    | none => List.replicate n (0, false)
  | 6 => (yardKeys s (c.ctx / 65536) id.die a n).map (fun k => (mget s.mem.yard k, poisoned s true k 1))
  | _ => (List.range n).map (fun i => match pinAt c win (a + i) with
    | some (_, pa) => (mget s.mem.hbm pa, poisoned s false pa 1)
    | none => (0, false))
/-- Lines of a written range: whole lines become clean, lines that took poison become poisoned. -/
def markLines (lines : List Nat) (bad : Nat → Bool) (whole : Nat → Bool) (set : Nat → Bool → State → State) (s : State) : State :=
  lines.foldl (fun s l => if bad l then set l true s else if whole l then set l false s else s) s
def setBlkPoison (b line : Nat) (v : Bool) (s : State) : State :=
  modBlock s b (fun k => { k with poison := if v then (line :: k.poison).eraseDups else k.poison.filter (fun l => l ≠ line) })
/-- Write bytes at keys of one memory with their poison. -/
def putMarked (keys : List Nat) (bs : List (Byte × Bool)) (set : Nat → Bool → State → State) (s : State) : State :=
  let lines := (keys.map (· / 64)).eraseDups
  let kb := keys.zip bs
  markLines lines (fun l => kb.any (fun x => x.1 / 64 = l && x.2.2))
    (fun l => (List.range 64).all (fun i => keys.contains (64 * l + i))) set s
/-- The 64-byte pieces of data that carry poison: each is a flit (R399). -/
def badPieces (bs : List (Byte × Bool)) : List Nat :=
  (((List.range bs.length).zip bs).filterMap (fun x => if x.2.2 then some (x.1 / 64) else none)).eraseDups
/-- Data with the poison of its pieces. -/
def marked (psn : List Nat) (data : List Byte) : List (Byte × Bool) :=
  ((List.range data.length).zip data).map (fun x => (x.2, psn.contains (x.1 / 64)))
/-- Every path of a claim's reservation toward, or from, a location has a route of the partition (R52). -/
def routesOk (s : State) (id : ClaimId) (c : Claim) (tgt : Nat) (out : Bool) : Bool :=
  (claimResvs s id).all (fun r => r.tgt ≠ tgt || r.out ≠ out || jRouteOk s r.j (c.ctx / 65536) s.mod.poddev r.tgt)
/-- Write a side of a leg: here, to host memory, or out on the bulk plane, where a junction passes only what has a route of the partition
(R52). -/
def writeSide (s : State) (id : ClaimId) (c : Claim) (n sp win a : Nat) (bs : List (Byte × Bool)) : State :=
  let raw := bs.map Prod.fst
  match sp with
  | 1 =>
    let s := modBlock (logBlock s c.blk a bs.length) c.blk (fun k => { k with mem := writeBytes k.mem a raw })
    putMarked ((List.range bs.length).map (a + ·)) bs (setBlkPoison c.blk) s
  | 6 =>
    let ks := yardKeys s (c.ctx / 65536) id.die a bs.length
    let s := ((ks.map (· / 64)).eraseDups).foldl (fun s l => logLines s (c.ctx / 65536) 1 (64 * l) 1) s
    let s := { s with mem := { s.mem with yard := msetAll s.mem.yard (ks.zip raw) } }
    putMarked ks bs (fun l v s => setPoison s true l v) s
  | _ => match pinAt c win a with
    | some (l, pa) =>
      if l = .dev s.mod.poddev then
        putMarked ((List.range bs.length).map (pa + ·)) bs (fun l v s => setPoison s false l v) (hbmWrite s pa raw)
      else if l = .host s.mod.poddev then
        let pasid := ((ctxByKey s c.ctx).map Ctx.pasid).getD 0
        hostBad (hostPost s pasid pa raw) pasid (((List.range bs.length).zip bs).filterMap (fun x => if x.2.2 then some ((pa + x.1) / 64) else none))
      else if routesOk s id c (tgtOf l) true then
        { s with fab := { s.fab with bulkOut := s.fab.bulkOut ++ [(id, n, raw, badPieces bs)] } }
      else s
    | none => s
/-- Data of legs that run from this device to another leave with the flow (R32, R399). -/
def emitLegs (s : State) (id : ClaimId) (c : Claim) (ls : List Leg) : State :=
  ls.foldl (fun s l =>
    if sideLocal s c (srcSpace c) l.sw l.src && !sideLocal s c (dstSpace c) l.dw l.dst then
      writeSide s id c l.n (dstSpace c) l.dw l.dst (readSide s id c (srcSpace c) l.sw l.src l.len)
    else s) s
/-- Start a flow of len bytes: legs from the source and destination offsets. -/
def startFlow (s : State) (id : ClaimId) (c : Claim) (soff doff len : Nat) : State :=
  let legs := paceLegs s.fab.podNs (cutLegs 0 1 (len / 2048 + 4) 0 0 (descAt c 0 + soff) (descAt c 1 + doff) len)
  let c := { c with st := .flowing, legs, flowLen := len, cursor := 0, pend := false, psn := false, heldAt := none }
  emitLegs (putClaim s id c) id c legs
/-- Bytes of one path of a halo; a path's place among the claim's; the path a leg is of: legs are numbered from 64 times its k on. -/
def haloLen (c : Claim) : Nat := nfld (descAt c 3) 16 0
def pathIx (c : Claim) (k : Nat) : Nat := (c.paths.findIdx? (fun p => p.1 = k)).getD c.paths.length
def legPath (c : Claim) (l : Leg) : Option (Nat × Nat × Nat × Nat) := c.paths.find? (fun p => p.1 = l.n / 64)
/-- Legs of a halo's path k: offsets within the flow count the paths in ascending k (R407). -/
def haloLegs (c : Claim) (k : Nat) : List Leg := match c.paths.find? (fun p => p.1 = k) with
  | some p => cutLegs 0 8 (haloLen c / 2048 + 4) (64 * k) (pathIx c k * haloLen c) (descAt c 0 + p.2.2.1) p.2.2.2 (haloLen c)
  | none => []
/-- Elements of a gather's flows (R405): whole ones, in at most 64 KiB. -/
def gatherPer (c : Claim) : Nat := max 1 (65536 / c.esz)
/-- Legs of a gather's next flow: element by element, cut at 4 KiB boundaries. -/
def gatherLegs (c : Claim) : List Leg :=
  let k := c.doneB / c.esz
  (List.range (min (gatherPer c) (c.idxs.length - k))).flatMap (fun i =>
    cutLegs 0 1 8 (8 * i) (i * c.esz) (c.idxs.getD (k + i) 0) (descAt c 2 + (k + i) * c.esz) c.esz)
/-- Start a gather's next flow. -/
def startGather (s : State) (id : ClaimId) (c : Claim) : State :=
  let legs := paceLegs s.fab.podNs (gatherLegs c)
  let c := { c with st := .flowing, legs, flowLen := (legs.map Leg.len).sum, cursor := 0, psn := false, heldAt := none }
  emitLegs (putClaim s id c) id c legs
/-! ### Whole words (R351). -/

/-- Source range of the operation a leg is of, and its destination range: of a COPY the whole window, of a FLOW its own part, of a GATHER the
element and the destination, of a HALO the path's. -/
def srcRange (c : Claim) (l : Leg) : Nat × Nat := match c.work with
  | .copy => (descAt c 0, nfld (descAt c 2) 20 0)
  | .plain => (descAt c 0 + c.doneB, c.flowLen)
  | .gather => (c.idxs.getD ((c.doneB + l.off) / c.esz) 0, c.esz)
  | .halo => ((legPath c l).map (fun p => (descAt c 0 + p.2.2.1, haloLen c))).getD (l.src, l.len)
  | .coll => (l.src, l.len)
def dstRange (c : Claim) (l : Leg) : Nat × Nat := match c.work with
  | .copy => (descAt c 1, nfld (descAt c 2) 20 0)
  | .plain => (descAt c 1 + c.esz, c.flowLen)
  | .gather => (descAt c 2, gatherBytes c)
  | .halo => ((legPath c l).map (fun p => (p.2.2.2, haloLen c))).getD (l.dst, l.len)
  | .coll => (l.dst, l.len)
/-- The source bytes of a leg of this device, read by whole words: bytes of a word read before are taken as they were then, and those of a later
leg are kept for it. -/
def legRead (s : State) (id : ClaimId) (c : Claim) (l : Leg) : List (Byte × Bool) × Claim :=
  let (b, n) := srcRange c l
  let lo := max (alignDown l.src 8) b
  let hi := min (alignDown (l.src + l.len + 7) 8) (b + n)
  let raw := readSide s id c (srcSpace c) l.sw lo (hi - lo)
  let val (a : Nat) : Byte × Bool := (lkp c.ahead a).getD (raw.getD (a - lo) (0, false))
  let mine (a : Nat) : Bool := l.src ≤ a && a < l.src + l.len
  let rest := ((List.range (hi - lo)).map (lo + ·)).filter (fun a => !mine a && (lkp c.ahead a).isNone)
  ((List.range l.len).map (fun i => val (l.src + i)), { c with ahead := c.ahead.filter (fun x => !mine x.1) ++ rest.map (fun a => (a, val a)) })
/-- Place a leg's bytes: words of the destination that are whole now are written, at once with what came of them before; bytes of a word that is
not whole wait for the rest. -/
def legPlace (s : State) (id : ClaimId) (c : Claim) (l : Leg) (bs : List (Byte × Bool)) : State :=
  let (b, n) := dstRange c l
  let mine (a : Nat) : Bool := l.dst ≤ a && a < l.dst + l.len
  let full (w : Nat) : Bool := (List.range 8).all (fun i => let a := 8 * w + i; a < b || b + n ≤ a || mine a || (lkp c.stage a).isSome)
  let val (a : Nat) : Byte × Bool := if mine a then bs.getD (a - l.dst) (0, false) else (lkp c.stage a).getD (0, false)
  let first := l.dst / 8
  let last := (l.dst + l.len - 1) / 8
  let lo := if full first then max (8 * first) b else 8 * (first + 1)
  let hi := if full last then min (8 * (last + 1)) (b + n) else 8 * last
  let s := if lo < hi then writeSide s id c l.n (dstSpace c) l.dw lo ((List.range (hi - lo)).map (fun i => val (lo + i))) else s
  let left := ((List.range l.len).map (l.dst + ·)).filter (fun a => !(lo ≤ a && a < hi))
  putClaim s id { c with stage := c.stage.filter (fun x => !(lo ≤ x.1 && x.1 < hi)) ++ left.map (fun a => (a, val a)) }
/-- An operation stops short: what has come of words not whole is placed. -/
def flushStage (s : State) (id : ClaimId) (c : Claim) : State :=
  c.stage.foldl (fun s x => writeSide s id c 0 (dstSpace c) (if c.work = .halo then 8 else 1) x.1 [x.2]) s
/-- A claim with running legs. -/
def running (c : Claim) : Bool := c.st = .flowing && c.legs.any (fun l => !l.acked)
/-- The claim is revoked: pins and routes go, but for link loss, which keeps the pins (Table 22-5, R417). -/
def revoke (s : State) (id : ClaimId) (c : Claim) (reason : Nat) : State :=
  putClaim (dropRoutes s id) id { c with
    st := .revoked, reason, routed := false, queued := false, park := false, inval := none, legs := if reason = 3 then c.legs else [],
    pins := if reason = 3 then c.pins else [], cause := 0 }
/-- Offset within the flow of its first unacknowledged leg, of a halo's paths that have not started too (R400). -/
def cursorOf (c : Claim) : Nat :=
  let offs := (c.legs.filter (fun l => !l.acked)).map Leg.off
    ++ (if c.work = .halo then (c.paths.filter (fun p => !c.legs.any (fun l => l.n / 64 = p.1))).map (fun p => pathIx c p.1 * haloLen c) else [])
  match offs with
  | [] => 0
  | o :: r => r.foldl min o
/-- A halo's flow of which no path runs: it defers neither pre-emption nor invalidation (R407). -/
def haloIdle (c : Claim) : Bool := c.work = .halo && c.st = .flowing && !running c
/-- What a pre-emption or an invalidation does to such a flow: its buffers and routes go, or the claim is revoked and the flow suspended. That a
parked claim's HFLOW goes on by itself when the warp resumes is a choice (DESIGN CHOICE, log 12). -/
def settleHalo (s : State) (id : ClaimId) (c : Claim) : State := match c.inval with
  | some r => revoke s id { c with pend := true, cursor := cursorOf c } r
  | none => if c.park then putClaim (dropRoutes s id) id { c with routed := false } else putClaim s id c
/-- Paths matched while their claim had no routes start, where it has them again (R393, R407). -/
def haloSeat (s : State) (id : ClaimId) : State := match claimAt s id with
  | none => s
  | some c =>
    if c.work ≠ .halo || c.st ≠ .flowing || c.park || c.routed then s
    else
      let s := seekRoutes s id c
      if !routesHeld s id c then putClaim s id { c with queued := s.fab.resvQ.any (fun q => q.1 = id) }
      else
        let legs := paceLegs s.fab.podNs ((c.started.filter (fun k => !c.legs.any (fun l => l.n / 64 = k))).flatMap (haloLegs c))
        let c := { c with routed := true, queued := false, legs := c.legs ++ legs }
        emitLegs (putClaim s id c) id c legs
/-- The state a held claim takes when its flow has ended (Table 22-5). -/
def afterFlow (s : State) (id : ClaimId) (c : Claim) : State :=
  let c := { c with st := .ready, legs := [], pend := false, cursor := 0, compl := .none, started := [], psn := false, stage := [], ahead := [] }
  if c.orphan then freeSlot s id
  else match c.inval with
    | some r => revoke s id c r
    | none => if c.park then putClaim (dropRoutes s id) id { c with st := .parked, routed := false, park := false } else putClaim s id c
def workClass : CWork → Nat
  | .gather => 3 | .coll => 4 | _ => 1
/-- A transient operation completes and its claim goes (R405, R408, R409). -/
def finishTransient (s : State) (id : ClaimId) (c : Claim) (bytes st : Nat) : State :=
  freeSlot (complete s c.owner c.blk c.compl c.opId bytes (workClass c.work) st) id
/-- Every leg of a flow is acknowledged: completion, then the claim's next state, or the copy's next flow (R399, R405). -/
def flowEnd (s : State) (id : ClaimId) (c : Claim) : State :=
  let st := if c.psn then 1 else 0
  match c.work with
  | .plain => afterFlow (complete (flushStage s id c) c.owner c.blk c.compl c.opId c.flowLen 1 st) id c
  | .halo => afterFlow { (complete s c.owner c.blk c.compl c.opId c.flowLen 1 st) with
      eng := { s.eng with haloIn := s.eng.haloIn.filter (fun x => x.1 ≠ id) } } id c
  | .copy =>
    let done := c.doneB + c.flowLen
    let total := nfld (descAt c 2) 20 0
    if total ≤ done then finishTransient s id c total st
    else if c.inval.isSome then finishTransient (flushStage s id c) id c done 3
    else
      let p := c.psn
      modClaim (startFlow s id { c with doneB := done } done done (min 65536 (total - done))) id (fun c => { c with psn := p })
  | .gather =>
    let done := c.doneB + c.flowLen
    if gatherBytes c ≤ done then finishTransient s id c (gatherBytes c) st
    else if c.inval.isSome then finishTransient (flushStage s id c) id c done 3
    else
      let p := c.psn
      modClaim (startGather s id { c with doneB := done }) id (fun c => { c with psn := p })
  | .coll => finishTransient s id c c.flowLen st
/-- A halo's flow has ended: every path started, its legs placed, and every neighbour's data placed here (R407). -/
def haloDone (s : State) (id : ClaimId) (c : Claim) : Bool :=
  c.paths.all (fun p => c.started.contains p.1 && s.eng.haloIn.any (fun x => x.1 = id && x.2.1 = p.1))
def checkEnd (s : State) (id : ClaimId) : State :=
  match claimAt s id with
  | none => s
  | some c =>
    if c.st = .flowing && c.legs.all (fun l => l.acked) && (c.work ≠ .halo || haloDone s id c) && c.work ≠ .coll then flowEnd s id c
    else if haloIdle c && (c.park || c.inval.isSome) then settleHalo s id c else s
/-- Access counters of host pages a leg touches, migrated or not (R78). -/
def countLeg (s : State) (c : Claim) (sp win a : Nat) : State :=
  match (if sp = 7 then pinAt c win a else none), ctxByKey s c.ctx with
  | some (l, _), some cx =>
    if l = .host s.mod.poddev || (l = .dev s.mod.poddev && homeOf s cx a = .at_ (.host s.mod.poddev)) then hostCount s cx a else s
  | _, _ => s
/-- A side of a leg lies in this device's host memory. -/
def hostSide (s : State) (c : Claim) (sp win a : Nat) : Bool := sp = 7 && (pinAt c win a).any (fun x => x.1 = .host s.mod.poddev)
/-- A part of a collective's result is acknowledged where it lies off the device; with the last the operation completes (R353). -/
def collAcked (s : State) (id : ClaimId) (n : Nat) : State :=
  match claimAt s id with
  | none => s
  | some c =>
    let legs := c.legs.map (fun l => if l.n = n then { l with acked := true } else l)
    if legs.all (fun l => l.acked) then finishTransient s id c c.flowLen (if c.psn then 1 else 0) else putClaim s id { c with legs }
/-- Bytes of memory of this device with their poison, at addresses that need not follow one another. -/
def placeBytes (ten : Option Nat) (s : State) (pas : List Nat) (bs : List (Byte × Bool)) : State :=
  let s := (pas.zip bs).foldl (fun s x => hbmWriteFor ten s x.1 [x.2.1]) s
  putMarked pas bs (fun l v s => setPoison s false l v) s
/-- A leg of this device's own claim. -/
def ownLeg (s : State) (id : ClaimId) (n : Nat) (data : List Byte) (psn : List Nat) : State :=
  match claimAt s id with
  | none => s
  | some c =>
    if c.st ≠ .flowing then s
    else if 65536 ≤ n then
      match c.paths.find? (fun p => p.1 = n - 65536), ctxByKey s c.ctx with
      | some p, some cx =>
        let len := nfld (descAt c 3) 16 0
        if c.work ≠ .halo || data.length ≠ len || !c.started.contains p.1 then s
        else
          let base := descAt c 1 + c.rank * descAt c 2 + p.1 * len
          let (s, at_) := (List.range len).foldl (fun (x : State × List (Nat × Byte × Bool)) i => match farPeek x.1 cx (base + i) with
            | (s, some pa) => (s, x.2 ++ [(pa, data.getD i 0, psn.contains (i / 64))])
            | (s, none) => (s, x.2)) (s, [])
          let s := placeBytes (some cx.fn) s (at_.map Prod.fst) (at_.map Prod.snd)
          checkEnd { s with eng := { s.eng with haloIn := s.eng.haloIn ++ [(id, p.1, 1)] } } id
      | _, _ => s
    else match c.legs.find? (fun l => l.n = n && !l.acked) with
      | none => s
      | some l =>
        let sl := sideLocal s c (srcSpace c) l.sw l.src
        let dl := sideLocal s c (dstSpace c) l.dw l.dst
        if c.work = .coll then collAcked s id n
        else if !sl && (data.length ≠ l.len || (pinAt c l.sw l.src).any (fun x => !routesOk s id c (tgtOf x.1) false)) then s
        else
          let (bs, c) := if sl then legRead s id c l else (marked psn data, c)
          let s := if sl && !dl then s
                   else if dl || hostSide s c (dstSpace c) l.dw l.dst then legPlace s id c l bs
                   else writeSide s id c l.n (dstSpace c) l.dw l.dst bs
          let s := countLeg (countLeg s c (srcSpace c) l.sw l.src) c (dstSpace c) l.dw l.dst
          let s := modClaim s id (fun c => { c with
            psn := c.psn || bs.any Prod.snd
            legs := c.legs.map (fun x => if x.n = n then { x with acked := true } else x) })
          checkEnd s id
/-- A peer's flow reaches this device's memory: the bulk plane's route check (R52) is passed, the generation is current, and every byte lies in
HBM of the partition. -/
def peerOk (s : State) (src part : Nat) (gen : BitVec 16) (pa n : Nat) : Bool :=
  (List.range 18).any (fun j => jRouteOk s j part src s.mod.poddev) && genOfPart s part gen.toNat = .current
  && (List.range n).all (fun i => hbmOwner s (pa + i) = some part)
/-- FLOW_LEG_ACK (R399): a leg is placed and acknowledged. A leg whose source lies off this device's memory brings its data; psn names the
64-byte pieces that carry poison. A neighbour's halo data arrive as leg 65536 + k (R407; log 12). A leg of a peer's flow is placed here and
acknowledged in the control slots, or asks there for this device's bytes (R29). -/
def legAckOp (s : State) (id : ClaimId) (at_ : LegAt) (data : List Byte) (psn : List Nat) : State :=
  let answer (s : State) (src n : Nat) (bs : List (Byte × Bool)) : State :=
    { s with fab := { s.fab with legOut := s.fab.legOut ++ [(src, id, n, bs.map Prod.fst, badPieces bs)] } }
  match at_ with
  | .own n => ownLeg s id n data psn
  | .place src part gen n pa =>
    if peerOk s src part gen pa data.length then
      answer (placeBytes (genTenant s part gen.toNat) s ((List.range data.length).map (pa + ·)) (marked psn data)) src n []
    else s
  | .ask src part gen n pa len =>
    if peerOk s src part gen pa len then
      answer s src n ((List.range len).map (fun i => (mget s.mem.hbm (pa + i), poisoned s false (pa + i) 1)))
    else s
def execFlowLegAck (c : ClaimId) (leg : LegAt) (data : List Byte) (psn : List Nat) (s : State) : Host.Outcome State Fault Refusal :=
  .next (progress (legAckOp s c leg data psn))

/-! ## What may hold a flow back (R137, R350). -/

/-- Every page of the claim is this device's memory. -/
def allLocal (s : State) (c : Claim) : Bool := c.pins.all (fun p => p.loc = .dev s.mod.poddev) && c.work ≠ .coll
/-- Earlier accesses of the warp are performed (R350). -/
def orderedOk (s : State) (a : AgentId) (g : Agent) (local_ : Bool) : Bool := !relWait s a g (if local_ then 4 else 5)
/-- The destination is memory whose writes are exports (Table 6-6). -/
def flowExport (s : State) (c : Claim) : Bool := c.pins.any (fun p => isDstWin c p.win && isExport s (c.ctx / 65536) p.loc)
/-- A commit has followed the mark; with no mark yet it is set and a cut is asked for (R137). -/
def exportGate (s : State) (part : Nat) (mark : Option Nat) : State × Option Nat × Bool :=
  match mark, ckOf s part with
  | some t, some ck => (s, mark, t < commTickOf ck ck.tenant)
  | some _, none => (s, mark, true)
  | none, _ =>
    (askCut s part, some (podTick s), false)
/-- The waits before a flow phase: exports, issue order, room in the class field (R398). -/
def flowWaits (s : State) (g : Agent) (id : ClaimId) (c : Claim) (cls : Nat) : State × Bool :=
  if flowExport s c then
    let (s, m, ok) := exportGate s (c.ctx / 65536) c.heldAt
    let s := putClaim s id { c with heldAt := m }
    (s, !ok || !orderedOk s c.owner g (allLocal s c) || 1023 ≤ outcGet g cls)
  else (s, !orderedOk s c.owner g (allLocal s c) || 1023 ≤ outcGet g cls)

/-! ## Held claims (R398, R401 to R404). -/

/-- What a phase outcome does to the instruction that runs it. -/
def phaseRes (p : State × PhR) (ok : State → Res) : Res :=
  match p with
  | (s, .ready) => ok s
  | (s, .wait) => .wait s
  | (s, .trap c v) => .trap s c (BitVec.ofNat 64 v)
def readyNow (id : ClaimId) (s : State) : Res := .next (modClaim s id (fun c => { c with st := .ready, cause := 0, reason := 0 }))
/-- CLAIM and HALO on a valid handle, or a new slot (R404, R406). -/
def claimBody (work : CWork) (f : FmtA) (mk : State → AgentId → Agent → Except (Cause × Nat) Claim) : State → AgentId → Agent → Res :=
  uniform f.c fun s a g =>
    let kh := f.kh.toNat
    match handleOf s a g kh with
    | some (id, c) =>
      if c.work ≠ work || !(c.st = .walking || c.st = .faulted) then .trap s .kstate (claimStatus c)
      else phaseRes (claimPhase s g id { c with st := .walking }) (readyNow id)
    | none => match mk s a g with
      | .error (x, v) => .trap s x (BitVec.ofNat 64 v)
      | .ok c => match freeSlotOf s g true with
        | none => .trap s .claimx 0
        | some id =>
          let k := BitVec.ofNat 64 ((slotAt s id).gen.toNat * 65536 + 128 + id.slot)
          let s := setHandle (putClaim s id c) a kh k
          phaseRes (claimPhase s g id c) (readyNow id)
/-- A plain descriptor in S[OA] to S[OA+2]. -/
def mkPlain (work : CWork) (f : FmtA) (s : State) (a : AgentId) (g : Agent) : Except (Cause × Nat) Claim :=
  let d := (List.range 3).map (fun i => sget g (f.oa.toNat + i))
  match descCheck s g (d.getD 0 0).toNat (d.getD 1 0).toNat (d.getD 2 0).toNat with
  | some v => .error (.bounds, v)
  | none => .ok (newClaim a g work d)
def execClaim (f : FmtA) : State → Host.Outcome State Fault Refusal := issue (.claim f) (claimBody .plain f (mkPlain .plain f))

/-- Launch of an agent. -/
def launchOf (s : State) (g : Agent) : Option Launch := s.sched.launches.find? (fun l => l.id = g.launch)
/-- Neighbour ranks of the issuing rank (Table 7-4): 0xFF where there is none. -/
def nbrRanks (s : State) (g : Agent) : List Nat :=
  ((launchOf s g).bind (fun l => l.nbrs[g.rank]?)).map Prod.snd |>.getD []
/-- The halo descriptor and its paths (R406, Table 22-9). -/
def mkHalo (f : FmtA) (s : State) (a : AgentId) (g : Agent) : Except (Cause × Nat) Claim :=
  let d := (List.range 4).map (fun i => sget g (f.oa.toNat + i))
  let w := (d.getD 3 0).toNat
  let len := nfld w 16 0
  let sb := (d.getD 0 0).toNat
  if nfld w 63 28 ≠ 0 || !spaceOk (nfld w 19 17) || len = 0 || 65536 < len then .error (.bounds, w)
  else if !nearFits s g (nfld w 19 17) sb (8 * len) then .error (.bounds, sb)
  else
    let ns := nbrRanks s g
    let ks := (List.range 8).filter (fun k => nfld w (20 + k) (20 + k) = 1 && ns.getD k 0xFF ≠ 0xFF)
    let paths := ks.map (fun k =>
      let n := ns.getD k 0xFF
      (k, n, k * len, (d.getD 1 0).toNat + n * (d.getD 2 0).toNat + (k ^^^ 1) * len))
    .ok { newClaim a g .halo d with paths }
def execHalo (f : FmtA) : State → Host.Outcome State Fault Refusal := issue (.halo f) (claimBody .halo f (mkHalo f))

/-- Resume a suspended flow from CURSOR, or be READY (R401). -/
def resumeOrReady (id : ClaimId) (s : State) : Res :=
  match claimAt s id with
  | none => .next s
  | some c =>
    if c.pend then
      let all := if c.work = .halo then c.started.flatMap (haloLegs c)
                 else cutLegs 0 1 (c.flowLen / 2048 + 4) 0 0 (descAt c 0 + c.doneB) (descAt c 1 + c.esz) c.flowLen
      let legs := (all.filter (fun l => l.off + l.len ≤ c.cursor)).map (fun l => { l with acked := true })
                  ++ paceLegs s.fab.podNs (all.filter (fun l => !(l.off + l.len ≤ c.cursor)))
      let c := { c with st := .flowing, pend := false, cursor := 0, cause := 0, reason := 0, legs }
      .next (checkEnd (emitLegs (putClaim s id c) id c (legs.filter (fun l => !l.acked))) id)
    else readyNow id s
/-- RECLAIM (R401). -/
def reclaimBody (f : FmtA) : State → AgentId → Agent → Res :=
  uniform f.c fun s a g =>
    match handleOf s a g f.kh.toNat with
    | none => .trap s .kstate 0
    | some (id, c) => match c.st with
      | .revoked =>
        if c.reason = 3 then phaseRes (seat s id c) (resumeOrReady id)
        else phaseRes (claimPhase s g id { c with st := .walking, pins := [], reason := 0 }) (resumeOrReady id)
      | .faulted => phaseRes (claimPhase s g id { c with st := .walking }) (resumeOrReady id)
      | .walking => phaseRes (claimPhase s g id c) (resumeOrReady id)
      | .parked => phaseRes (seat s id c) (readyNow id)
      | _ => .next s
def execReclaim (f : FmtA) : State → Host.Outcome State Fault Refusal := issue (.reclaim f) (reclaimBody f)

/-- Flow word checks (R397, Table 22-7). -/
def flowWordOk (c : Claim) (w : Nat) : Bool :=
  let wlen := nfld (descAt c 2) 20 0
  nfld w 63 59 = 0 && nfld w 58 42 ≠ 0 && nfld w 58 42 ≤ 65536 && nfld w 20 0 + nfld w 58 42 ≤ wlen && nfld w 41 21 + nfld w 58 42 ≤ wlen
/-- The common course of FLOW and HFLOW after their own checks: seat a parked claim, wait, count, start (R398). -/
def runFlow (f : FmtA) (id : ClaimId) (c : Claim) (start : State → Claim → State) (s : State) (a : AgentId) (g : Agent) : Res :=
  if c.st = .flowing then .wait s
  else if !(c.st = .ready || c.st = .parked) then .trap s .kstate (claimStatus c)
  else
    let go (s : State) : Res :=
      match claimAt s id with
      | none => .wait s
      | some c =>
        let (s, w) := flowWaits s g id c 1
        if w then .wait s
        else
          let (op, s) := fresh s
          let cp := complOf f
          let s := modAgent s a (fun g => pendCompl (outIssue g 1 op) cp op)
          .next (start s { c with compl := cp, opId := op, park := false, inval := none })
    if c.st = .parked then phaseRes (seat s id c) go else go s
def flowBody (f : FmtA) : State → AgentId → Agent → Res :=
  uniform f.c fun s a g =>
    match handleOf s a g f.kh.toNat with
    | none => .trap s .kstate 0
    | some (id, c) =>
      let w := (sget g f.oa.toNat).toNat
      if c.work = .halo then .trap s .kstate (claimStatus c)
      else if !flowWordOk c w then .trap s .bounds (BitVec.ofNat 64 w)
      else runFlow f id c (fun s c => startFlow s id { c with doneB := nfld w 20 0, esz := nfld w 41 21 } (nfld w 20 0) (nfld w 41 21) (nfld w 58 42)) s a g
def execFlow (f : FmtA) : State → Host.Outcome State Fault Refusal := issue (.flow f) (flowBody f)
/-- HFLOW (R407). -/
def hflowBody (f : FmtA) : State → AgentId → Agent → Res :=
  uniform f.c fun s a g =>
    match handleOf s a g f.kh.toNat with
    | none => .trap s .kstate 0
    | some (id, c) =>
      if c.work ≠ .halo then .trap s .kstate (claimStatus c)
      else runFlow f id c (fun s c =>
        checkEnd (putClaim s id { c with st := .flowing, legs := [], started := [], flowLen := c.paths.length * nfld (descAt c 3) 16 0,
                                         cursor := 0, pend := false, psn := false, heldAt := none }) id) s a g
def execHflow (f : FmtA) : State → Host.Outcome State Fault Refusal := issue (.hflow f) (hflowBody f)
/-- HALO_PATH_MATCH (R407): the path's flow starts, once the claim has its routes. -/
def haloMatchOp (s : State) (id : ClaimId) (k : Nat) : State :=
  match claimAt s id with
  | none => s
  | some c => match c.paths.find? (fun p => p.1 = k) with
    | none => s
    | some p =>
      if c.st ≠ .flowing || c.work ≠ .halo || c.started.contains k then s
      else
        let legs := if c.routed then paceLegs s.fab.podNs (haloLegs c p.1) else []
        let c := { c with started := c.started ++ [k], legs := c.legs ++ legs }
        emitLegs (putClaim s id c) id c legs
def execHaloPathMatch (c : ClaimId) (k : Nat) (s : State) : Host.Outcome State Fault Refusal := .next (progress (haloMatchOp s c k))

/-- UNCLAIM (R402). -/
def unclaimBody (f : FmtA) : State → AgentId → Agent → Res :=
  uniform f.c fun s a g =>
    match handleOf s a g f.kh.toNat with
    | none => .next (setHandle s a f.kh.toNat 0)
    | some (id, c) =>
      if c.st = .flowing then .wait s
      else
        let s := if c.pend then complete s a c.blk c.compl c.opId c.cursor 1 2 else s
        .next (setHandle (freeSlot s id) a f.kh.toNat 0)
def execUnclaim (f : FmtA) : State → Host.Outcome State Fault Refusal := issue (.unclaim f) (unclaimBody f)
/-- KSTAT (R403): long-latency. -/
def execKstat (f : FmtA) : State → Host.Outcome State Fault Refusal :=
  issue (.kstat f) (uniform f.c fun s a g =>
    let v := match handleOf s a g f.kh.toNat with
      | some (_, c) => claimStatus c
      | none => 0
    let (id, s) := fresh s
    .next (setAgent s a (addPend g id f.c.la.toNat 0 [⟨1, f.oa.toNat⟩] ⟨[], [(f.oa.toNat, v)], 0, none⟩)))

/-! ## Transient claims (R405, R408, R409). -/

/-- The transient claim of the instruction at hand, left by an earlier wait. -/
def transientOf (s : State) (a : AgentId) (work : CWork) : Option (ClaimId × Claim) :=
  (s.eng.slots.find? (fun e => match e.2.claim with
    | some c => c.owner = a && c.work = work && c.st = .walking
    | none => false)).bind (fun e => e.2.claim.map (fun c => (e.1, c)))
/-- Run a transient claim: allocate, claim, wait, then start; a fault leaves nothing (R405). -/
def transientBody (work : CWork) (f : FmtA) (mk : State → AgentId → Agent → Except (Cause × Nat) (Option Claim))
    (start : State → ClaimId → Claim → State) : State → AgentId → Agent → Res :=
  uniform f.c fun s a g =>
    let cls := workClass work
    let run (s : State) (id : ClaimId) (c : Claim) : Res :=
      match claimPhase s g id c with
      | (s, .wait) => .wait s
      | (s, .trap x v) => .trap (freeSlot s id) x (BitVec.ofNat 64 v)
      | (s, .ready) => match claimAt s id with
        | none => .wait s
        | some c =>
          let (s, w) := flowWaits s g id c cls
          if w then .wait s
          else
            let (op, s) := fresh s
            let cp := complOf f
            let s := modAgent s a (fun g => pendCompl (outIssue g cls op) cp op)
            .next (start s id { c with compl := cp, opId := op })
    match transientOf s a work with
    | some (id, c) => run s id c
    | none => match mk s a g with
      | .error (x, v) => .trap s x (BitVec.ofNat 64 v)
      | .ok none => .wait s
      | .ok (some c) => match freeSlotOf s g false with
        | none => .wait s
        | some id => run (putClaim s id c) id c
def execCopy (f : FmtA) : State → Host.Outcome State Fault Refusal :=
  issue (.copy f) (transientBody .copy f (fun s a g => (mkPlain .copy f s a g).map some)
    (fun s id c => startFlow s id c 0 0 (min 65536 (nfld (descAt c 2) 20 0))))

/-- A layout record and what R210 says of its use: none, or the trap. -/
def layoutRec (s : State) (g : Agent) (h : Nat) : Except (Cause × Nat) (BitVec 512) :=
  match ctxOf s g.part g.ctx with
  | none => .error (.bounds, h)
  | some cx =>
    let r := mget cx.layouts h
    if !r.getLsbD 0 then .error (.bounds, h)
    else if fld r 135 120 ≠ g.ctx then .error (.perm, h)
    else .ok r
/-- Bytes of an element code of Table 9-6; 0 for q4. -/
def elemBytes (e : Nat) : Nat :=
  if [0x01, 0x0A, 0x0B].contains e then 4 else if [0x02, 0x03, 0x08, 0x09].contains e then 2
  else if [0x04, 0x05, 0x06, 0x07].contains e then 1 else 0
/-- n bytes of a near space of the agent as a number. -/
def nearNum (s : State) (g : Agent) (sp o n : Nat) : Nat :=
  if sp = 1 then ((block s g.blk).map (fun k => readNum k.mem o n)).getD 0
  else leVal ((yardKeys s g.part g.die o n).map (fun k => mget s.mem.yard k))
/-- Table base and element size, first stride, and the bound of an index (R408). -/
def gatherShape (s : State) (g : Agent) (f : FmtA) (w base : Nat) : Except (Cause × Nat) (Nat × Nat × Nat × Option Nat) :=
  if f.sub.toNat % 2 = 1 then
    let h := base % 65536
    match layoutRec s g h with
    | .error e => .error e
    | .ok r =>
      let e := elemBytes (fld r 95 88) * fld r 383 352
      if fld r 87 86 = 0 || elemBytes (fld r 95 88) = 0 || nfld w 16 13 ≠ 0 || e % 4 ≠ 0 || e = 0 || 4096 < e then .error (.bounds, h)
      else .ok (fld r 511 448, e, fld r 255 216, some (fld r 351 320))
  else if nfld w 16 13 < 2 || 12 < nfld w 16 13 then .error (.bounds, w)
  else if base % 2 ^ nfld w 16 13 ≠ 0 then .error (.align, base)
  else .ok (base, 2 ^ nfld w 16 13, 2 ^ nfld w 16 13, none)
/-- The descriptor of GATHER: its elements read from the index list, after the waits of R350 (R408). -/
def mkGather (f : FmtA) (s : State) (a : AgentId) (g : Agent) : Except (Cause × Nat) (Option Claim) :=
  let d := (List.range 4).map (fun i => sget g (f.oa.toNat + i))
  let at_ (i : Nat) : Nat := (d.getD i 0).toNat
  let w := at_ 3
  let n := nfld w 12 0
  if nfld w 63 23 ≠ 0 || !spaceOk (nfld w 22 20) || !(nfld w 19 17 = 1 || nfld w 19 17 = 6) || n = 0 || 512 < n then .error (.bounds, w)
  else match gatherShape s g f w (at_ 0) with
    | .error e => .error e
    | .ok (base, esz, stride, lim) =>
      if !nearFits s g (nfld w 19 17) (at_ 1) (4 * n) then .error (.bounds, at_ 1)
      else if 0x100000 < n * esz then .error (.bounds, w)
      else if !nearFits s g (nfld w 22 20) (at_ 2) (n * esz) then .error (.bounds, at_ 2)
      else if !orderedOk s a g false then .ok none
      else
        let idx := (List.range n).map (fun i => nearNum s g (nfld w 19 17) (at_ 1 + 4 * i) 4)
        match lim.bind (fun m => idx.find? (fun i => m ≤ i)) with
        | some i => .error (.bounds, i)
        | none => .ok (some { newClaim a g .gather d with idxs := idx.map (fun i => (base + i * stride) % 2 ^ 64), esz })
def execGather (f : FmtA) : State → Host.Outcome State Fault Refusal :=
  issue (.gather f) (transientBody .gather f (mkGather f) startGather)

/-- Kind, operation and type of a COLL. -/
def collKind (c : Claim) : Nat := nfld c.spec 2 0
def collTy (sp : Nat) : Ty := match nfld sp 6 5 with
  | 0 => .f32 | 1 => .bf16 | _ => .s32
/-- The descriptor of COLL (R409). -/
def mkColl (f : FmtA) (s : State) (a : AgentId) (g : Agent) : Except (Cause × Nat) (Option Claim) :=
  let d := (List.range 3).map (fun i => sget g (f.oa.toNat + i))
  let at_ (i : Nat) : Nat := (d.getD i 0).toNat
  let w := at_ 2
  let b := nfld w 20 0
  let kind := nfld f.sub.toNat 2 0
  let root := nfld w 34 27
  let sl := collSrcLen kind b g.rank root g.nrank
  let dl := collDstLen kind b g.nrank
  if nfld w 63 51 ≠ 0 || !spaceOk (nfld w 26 24) || !spaceOk (nfld w 23 21) || (kind ≠ 3 && root ≠ 0) || g.nrank ≤ root
     || b < 4 || b % Ty.bytes (collTy f.sub.toNat) ≠ 0 || 0x100000 < sl || 0x100000 < dl then .error (.bounds, w)
  else if !nearFits s g (nfld w 23 21) (at_ 0) sl then .error (.bounds, at_ 0)
  else if !nearFits s g (nfld w 26 24) (at_ 1) dl then .error (.bounds, at_ 1)
  else .ok (some { newClaim a g .coll d with spec := f.sub.toNat })
def execColl (f : FmtA) : State → Host.Outcome State Fault Refusal :=
  issue (.coll f) (transientBody .coll f (mkColl f) (fun s id c =>
    let c := { c with st := .flowing, heldAt := none }
    { putClaim s id c with eng := { (putClaim s id c).eng with colls := s.eng.colls ++ [(c.ctx, nfld (descAt c 2) 50 35, id)] } }))

/-! ## Collectives (R409). -/

/-- One step of a reduction. -/
def collStep (op : Nat) (t : Ty) (x y : Nat) : Nat :=
  let code := if op = 0 then 0x080 else if op = 1 then 0x085 else 0x086
  match t with
  | .s32 => (iElem code .s32 false x y 0).1
  | .bf16 => (fElem code spBf16 .rn x y 0 0).1
  | _ => (fElem code spF32 .rn x y 0 0).1
/-- Element i of a byte string in elements of n bytes. -/
def elemOf (bs : List Byte) (n i : Nat) : Nat := leVal ((bs.drop (n * i)).take n)
/-- The reduced bytes of equal-length shares in rank order. -/
def collReduce (op : Nat) (t : Ty) (shares : List (List Byte)) : List Byte :=
  let n := Ty.bytes t
  let x0 := shares.headD []
  (List.range (x0.length / n)).flatMap (fun i =>
    leBytes n ((shares.drop 1).foldl (fun v x => collStep op t v (elemOf x n i)) (elemOf x0 n i)))
/-- Which of those bytes carry poison: an element does where it comes from a share that does. -/
def collMarks (c : Claim) (shares : List (List Bool)) : List Bool :=
  let b := nfld (descAt c 2) 20 0
  let any_ (off : Nat) : List Bool := (List.range b).map (fun i => shares.any (fun x => x.getD (off + i) false))
  match collKind c with
  | 0 => any_ 0
  | 1 => any_ (c.rank * b)
  | 2 => shares.flatten
  | _ => shares.getD (nfld (descAt c 2) 34 27) []
/-- A far source lies in this device's memory, page by page. -/
def srcHere (s : State) (c : Claim) (win a n : Nat) : Bool :=
  srcSpace c ≠ 7 || (cutLegs win win (n / 2048 + 4) 0 0 a a n).all (fun l => sideLocal s c 7 win l.src)
/-- The bytes a rank's destination receives. -/
def collResult (c : Claim) (shares : List (List Byte)) : List Byte :=
  let b := nfld (descAt c 2) 20 0
  let op := nfld c.spec 4 3
  let t := collTy c.spec
  match collKind c with
  | 0 => collReduce op t shares
  | 1 => collReduce op t (shares.map (fun x => (x.drop (c.rank * b)).take b))
  | 2 => shares.flatten
  | _ => shares.getD (nfld (descAt c 2) 34 27) []
/-- COLL_MATCH (R409): shares of the other ranks have come; this device's own is read now, or has come too where it does not lie in this device's
memory. The result is placed; what of it lies off the device is acknowledged from there before the operation completes (R353). Host pages are
counted for each leg of either side (R78). -/
def collMatchOp (s : State) (part ctx : Nat) (shares : List CollShare) : State :=
  let key := ckey part ctx
  let cid : Option Nat := match shares.head? with
    | some x => some (fld x.word 50 35)
    | none => (s.eng.colls.find? (fun (x : Nat × Nat × ClaimId) => x.1 = key && (match claimAt s x.2.2 with
        | some c => c.nrank = 1
        | none => false))).map (fun (x : Nat × Nat × ClaimId) => x.2.1)
  match cid with
  | none => s
  | some cid =>
    let mine : List (Nat × Nat × ClaimId) := s.eng.colls.filter (fun (x : Nat × Nat × ClaimId) => x.1 = key && x.2.1 = cid)
    let cs : List (ClaimId × Claim) := mine.filterMap (fun (x : Nat × Nat × ClaimId) => (claimAt s x.2.2).map (fun c => (x.2.2, c)))
    match cs with
    | [] => s
    | (id0, c0) :: more =>
      let w := descAt c0 2
      let n := collSrcLen (collKind c0) (nfld w 20 0) c0.rank (nfld w 34 27) c0.nrank
      let here := srcHere s c0 0 (descAt c0 0) n
      let full := (List.range c0.nrank).all (fun r => (here && r = c0.rank) || shares.any (fun (x : CollShare) => x.rank = r))
      if !full then s
      else
        let agree := more = [] && shares.all (fun (x : CollShare) => !x.dup && (!here || x.rank ≠ c0.rank) && x.spec.toNat = c0.spec
          && fld x.word 20 0 = nfld (descAt c0 2) 20 0 && fld x.word 34 27 = nfld (descAt c0 2) 34 27)
        if !agree then cs.foldl (fun s (x : ClaimId × Claim) => finishTransient s x.1 x.2 0 4) s
        else
          let all := (List.range c0.nrank).map (fun r =>
            if here && r = c0.rank then readSide s id0 c0 (srcSpace c0) 0 (descAt c0 0) n
            else ((shares.find? (fun (x : CollShare) => x.rank = r)).map (fun x => marked x.psn x.data)).getD [])
          let res := collResult c0 (all.map (fun x => x.map Prod.fst))
          let bad := collMarks c0 (all.map (fun x => x.map Prod.snd))
          let dst := descAt c0 1
          let legs := cutLegs 0 1 (res.length / 2048 + 4) 0 0 dst dst res.length
          let s := (cutLegs 0 0 (n / 2048 + 4) 0 0 (descAt c0 0) (descAt c0 0) n).foldl (fun s l => countLeg s c0 (srcSpace c0) 0 l.src) s
          let s := legs.foldl (fun s l => countLeg (writeSide s id0 c0 l.n (dstSpace c0) 1 l.dst (((res.zip bad).drop l.off).take l.len))
            c0 (dstSpace c0) 1 l.dst) s
          let bad := bad.any id
          let far := legs.filter (fun l => !sideLocal s c0 (dstSpace c0) 1 l.dst && !hostSide s c0 (dstSpace c0) 1 l.dst)
          if far = [] then finishTransient s id0 c0 res.length (if bad then 1 else 0)
          else
            let s := putClaim s id0 { c0 with legs := far, flowLen := res.length, psn := bad }
            { s with eng := { s.eng with colls := s.eng.colls.filter (fun x => x.2.2 ≠ id0) } }
def execCollMatch (part ctx : Nat) (shares : List CollShare) (s : State) : Host.Outcome State Fault Refusal :=
  .next (progress (collMatchOp s part ctx shares))

/-! ## Invalidation, link loss and halts (Table 22-5). -/

def pinHit_ (q : Range) (ctx : Nat) (p : Pin) : Bool :=
  ctx = q.ctx && rangesMeet (if q.gpa then p.gpa else p.va) p.size q.base q.size
def reasonOf : TakeBack → Nat
  | .unmap => 1 | .migrate => 2
/-- Apply an invalidation to one claim (Table 22-5). -/
def invalClaim (q : Range) (reason : Nat) (s : State) (id : ClaimId) (c : Claim) : State :=
  if !c.pins.any (pinHit_ q c.ctx) then s
  else match c.st with
    | .ready => revoke s id c reason
    | .parked => revoke s id c reason
    | .revoked => if c.reason = 3 then revoke s id c reason else s
    | .walking => putClaim s id { c with pins := c.pins.takeWhile (fun p => !pinHit_ q c.ctx p) }
    | .faulted => putClaim s id { c with pins := c.pins.takeWhile (fun p => !pinHit_ q c.ctx p) }
    | .flowing => if haloIdle c then settleHalo s id { c with inval := some reason } else putClaim s id { c with inval := some reason }
    | .empty => s
/-- The same for a claim of a tenant that is not running: taken at its next slice (R138). -/
def invalSaved (q : Range) (reason : Nat) (sl : Slot) : Slot :=
  match sl.claim with
  | none => sl
  | some c =>
    if !c.pins.any (pinHit_ q c.ctx) then sl
    else if c.st = .walking || c.st = .faulted then ⟨sl.gen, some { c with pins := c.pins.takeWhile (fun p => !pinHit_ q c.ctx p) }⟩
    else ⟨sl.gen, some { c with st := .revoked, reason, pins := [], routed := false, queued := false, inval := none, cause := 0 }⟩
def invalClaims (s : State) (q : Range) (reason : Nat) : State :=
  let img (i : Snap) : Snap := { i with slots := i.slots.map (fun e => (e.1, invalSaved q reason e.2)) }
  let s : State := { s with ck := s.ck.map (fun (c : Ck) => { c with cand := c.cand.map img, images := c.images.map (fun e => (e.1, img e.2)) }) }
  s.eng.slots.foldl (fun s (e : ClaimId × Slot) => match e.2.claim with
    | some c => invalClaim q reason s e.1 c
    | none => s) s
/-- A flow still uses a page of the range (R71). -/
def claimsUse (s : State) (q : Range) : Bool :=
  s.eng.slots.any (fun e => match e.2.claim with
    | some c => c.st = .flowing && c.pins.any (pinHit_ q c.ctx)
    | none => false)

/-- Link loss on a reserved path of a claim (R50, R400, R405). -/
def linkLossClaim (s : State) (id : ClaimId) (c : Claim) : State :=
  match c.st with
  | .ready => revoke s id c 3
  | .walking => seekRoutes (dropRoutes s id) id c
  | .flowing =>
    let s := flushStage s id c
    if c.work = .plain || c.work = .halo then
      let c := { c with pend := true, cursor := cursorOf c, stage := [], ahead := [] }
      if c.orphan then freeSlot (deliver s c.owner c.blk c.compl c.opId c.cursor 1 2) id
      else match c.inval with
        | some r => revoke s id c r
        | none => revoke s id c 3
    else finishTransient s id c (c.doneB + cursorOf c) 2
  | .revoked => if c.queued then seekRoutes (dropRoutes s id) id c else s
  | .parked => if c.queued then seekRoutes (dropRoutes s id) id c else s
  | _ => s
/-- The link of port j, or the path through it to a device, is lost. -/
def linkLossClaims (s : State) (hit : Resv → Bool) : State :=
  s.eng.slots.foldl (fun s (id, sl) => match sl.claim with
    | some c => if s.fab.resvs.any (fun r => r.claim = id && hit r) then linkLossClaim s id c else s
    | none => s) s
/-- A pre-emption request reaches the claims of an agent, or its halt does, which also ends a claim phase (Table 22-5, R393). -/
def parkClaim (s : State) (halt : Bool) (id : ClaimId) (c : Claim) : State :=
  match c.st with
  | .walking =>
    if !halt then s
    else if id.slot < 48 then putClaim (forgetAsker (dropRoutes s id) (.claim id)) id { c with st := .faulted, cause := 0, queued := false }
    else freeSlot s id
  | .ready => putClaim (dropRoutes s id) id { c with st := .parked, routed := false }
  | .flowing =>
    if c.work = .plain then putClaim s id { c with park := true }
    else if c.work = .halo then (if haloIdle c then settleHalo s id { c with park := true } else putClaim s id { c with park := true })
    else s
  | _ => s
def parkClaims (s : State) (a : AgentId) (halt : Bool) : State :=
  s.eng.slots.foldl (fun s (id, sl) => match sl.claim with
    | some c => if c.owner = a then parkClaim s halt id c else s
    | none => s) s

/-! ## CLAIM_PHASE_COMPLETE (R396). -/

/-- The waiting instruction of a claim, tried again: its walks, pins, buffers or route grant may have come. -/
def retryClaim (i : Instr) (s : State) (a : AgentId) (g : Agent) : Option Res :=
  match i with
  | .claim f => some (claimBody .plain f (mkPlain .plain f) s a g)
  | .halo f => some (claimBody .halo f (mkHalo f) s a g)
  | .reclaim f => some (reclaimBody f s a g)
  | .flow f => some (flowBody f s a g)
  | .hflow f => some (hflowBody f s a g)
  | _ => none
def claimPhaseCompleteOp (s : State) (id : ClaimId) : State :=
  match claimAt s id with
  | none => s
  | some c =>
    if !(c.st = .walking || c.st = .revoked || c.st = .parked) then s
    else match agent s c.owner with
      | none => s
      | some g =>
        if g.haltForm ≠ .no || !s.waiting.contains c.owner || g.trapPend.isSome then s
        else match (decodeIn s g (curWord g)).bind (fun i => retryClaim i s c.owner g) with
          | none => s
          | some r => match r with
            | .next s' => conclude c.owner (.next s')
            | _ => s
def execClaimPhaseComplete (c : ClaimId) (s : State) : Host.Outcome State Fault Refusal := .next (claimPhaseCompleteOp s c)

end Sys2Proof.Machine
end

