-- ==== Sys2Proof/Machine/Milepost.lean ====
section
/-! DEFINITION. The milepost plane of the device: the send queue and injection (02 R42 to R48), and what an injected or late
notice-store flit does (28 R457, R458). -/

namespace Sys2Proof.Machine

def sat16 (x : BitVec 16) : BitVec 16 := if x = 0xFFFF then x else x + 1

/-! ## Group tables (R456). -/

def groupGid (s : State) (gid : Nat) : Option NGroup := s.ntc.groups.find? (fun g => g.gid.toNat = gid)
/-- The table of a handle in a context. -/
def groupOf (s : State) (key handle : Nat) : Option NGroup := s.ntc.groups.find? (fun g => g.ctx = key && g.handle = handle)
def modGroup (s : State) (gid : Nat) (f : NGroup → NGroup) : State :=
  { s with ntc := { s.ntc with groups := s.ntc.groups.map (fun g => if g.gid.toNat = gid then f g else g) } }
def modNotice (s : State) (gid rank itick : Nat) (f : Notice → Notice) : State :=
  modGroup s gid (fun g => { g with notices := g.notices.map (fun n => if n.rank = rank && n.itick % 2 ^ 48 = itick % 2 ^ 48 then f n else n) })
/-- The notice of a poster with an injection tick, given by its low 48 bits at least (R458). -/
def noticeOf (g : NGroup) (rank itick : Nat) : Option Notice :=
  g.notices.find? (fun n => n.rank = rank && n.itick % 2 ^ 48 = itick % 2 ^ 48)
/-- A tick of which a flit or ticket carries the low 48 bits: the one nearest to pod time. -/
def wideTick (s : State) (t : Nat) : Nat :=
  let now := podTick s
  let x := now / 2 ^ 48 * 2 ^ 48 + t % 2 ^ 48
  if now + 2 ^ 47 < x && 2 ^ 48 ≤ x then x - 2 ^ 48 else if x + 2 ^ 47 < now then x + 2 ^ 48 else x
/-- Devices that hold a member. -/
def groupDest (g : NGroup) : BitVec 144 := maskOf 144 (g.members.map NMember.dev)
/-- Close C and effect tick E (R458). -/
def closeOf (n : Notice) : Nat := n.itick + n.win
def effectOf (n : Notice) : Nat := closeOf n + 3

/-! ## Payloads (Table 28-2). -/

def noticePayload (value : W64) (key : W32) (gid win rank word : Nat) : BitVec 256 :=
  BitVec.ofNat 256 (value.toNat * 2 ^ 192 + key.toNat * 2 ^ 160 + gid * 2 ^ 144 + win * 2 ^ 136 + rank * 2 ^ 130 + word * 2 ^ 121)
def objPayload (ntick gid nrank orank : Nat) : BitVec 256 :=
  BitVec.ofNat 256 (ntick % 2 ^ 48 * 2 ^ 208 + gid * 2 ^ 192 + nrank * 2 ^ 186 + orank * 2 ^ 180)
def outPayload (ntick gid nrank result : Nat) : BitVec 256 :=
  BitVec.ofNat 256 (ntick % 2 ^ 48 * 2 ^ 208 + gid * 2 ^ 192 + nrank * 2 ^ 186 + result * 2 ^ 183)
/-- A flit of this device before its injection tick is set. -/
def mkFlit (s : State) (part : Nat) (gen : BitVec 16) (dest : BitVec 144) (kind : Nat) (payload : BitVec 256) : Flit :=
  { payload, dest, gen, part := BitVec.ofNat 16 part, itick := 0, src := BitVec.ofNat 16 s.mod.poddev, kind := BitVec.ofNat 8 kind }

/-! ## The send queue (R46, R457). -/

/-- Enter the queue. -/
def mpEnqueue (s : State) (m : MpSend) : State := { s with fab := { s.fab with mpQueue := mpInto s.fab.mpQueue m } }
def mpFull (s : State) : Bool := 64 ≤ s.fab.mpQueue.length
/-- Junctions a device injects on (R43). -/
def mpJcts (d : Nat) : List Nat := [d / 24, d / 24 + 6, d / 24 + 12]
/-- Junction j has live links to every destination (R46). -/
def mpQualifies (s : State) (j : Nat) (dest : BitVec 144) : Bool :=
  s.fab.fabUp.getLsbD j && (List.range 144).all (fun p => !dest.getLsbD p || !mapDown s j p)
/-- This device's opportunity on junction j has gone out in the current tick. -/
def mpUsed (s : State) (j : Nat) : Bool := s.fab.mpOut.any (fun x => x.1 = j && x.2.itick.toNat = podTick s % 2 ^ 48)
def setMpSt (s : State) (o : Option AgentId) (st : SendSt) : State :=
  match o with
  | some a => modAgent s a (fun g => { g with mpSt := st })
  | none => s
/-- A notice leaves: its poster's device knows it from its injection (R457, R469). -/
def noticeSent (s : State) (f : Flit) (t : Nat) : State :=
  let p := f.payload
  modGroup s (fld p 159 144) (fun g => { g with notices := g.notices ++ [
    { rank := fld p 135 130, itick := t, win := fld p 143 136, key := p.extractLsb' 160 32, word := fld p 129 121,
      value := p.extractLsb' 192 64, objs := [], out := 1, seen := false }] })
/-- The objection at the head of the queue comes too late: its notice is closed or gone (R458). -/
def objLate (s : State) (f : Flit) : Bool :=
  let p := f.payload
  match (groupGid s (fld p 207 192)).bind (fun g => noticeOf g (fld p 191 186) (fld p 255 208)) with
  | some n => closeOf n ≤ podTick s
  | none => true
/-- A late objection is not sent: LATEOBJ for its warp, FLATE for a filter (R461, R462). -/
def dropLate (s : State) (m : MpSend) : State :=
  match m.owner with
  | some _ => setMpSt s m.owner .late
  | none => modGroup s (fld m.flit.payload 207 192) (fun g => { g with flate := sat16 g.flate })
/-- The head of the queue goes out, completes UNREACHABLE, or waits for the next tick's opportunities (R46, R48, R457, R458). -/
def mpInject (s : State) : State :=
  match s.fab.mpQueue with
  | [] => s
  | m :: _ =>
    let s' := { s with fab := { s.fab with mpQueue := mpNext s.fab.mpQueue } }
    if m.flit.kind = 2 && objLate s m.flit then dropLate s' m
    else
      let js := (mpJcts s.mod.poddev).filter (fun j => mpQualifies s j m.flit.dest)
      if js = [] || !s.fab.synced then setMpSt s' m.owner .unreachable
      else
        let free := js.filter (fun j => !mpUsed s j)
        let use := if m.flit.kind = 1 || m.flit.kind = 2 || m.flit.kind = 3 then free else free.take 1
        if use = [] then s
        else
          let t := podTick s
          let f := { m.flit with itick := BitVec.ofNat 48 t }
          let s := { s' with fab := { s'.fab with mpOut := s'.fab.mpOut ++ use.map (fun j => (j, f)) } }
          setMpSt (if m.flit.kind = 1 then noticeSent s f t else s) m.owner (.injected t)
/-- MILEPOST_INJECT (R46). -/
def execMilepostInject (s : State) : Host.Outcome State Fault Refusal := .next (progress (mpInject s))
/-- The queued flit of a warp is withdrawn by a halt (R469, R470). -/
def mpWithdraw (s : State) (a : AgentId) : State :=
  match agent s a with
  | none => s
  | some g =>
    if g.mpSt = .queued then
      setMpSt { s with fab := { s.fab with mpQueue := mpKeep s.fab.mpQueue (fun m => m.owner ≠ some a) } } (some a) .none
    else s

end Sys2Proof.Machine
end

