-- ==== Sys2Proof/Machine/Notice.lean ====
section
/-! DEFINITION. The notice store (28 R456 to R473). -/

namespace Sys2Proof.Machine

/-! ## Members and boards. -/

/-- Rank of a block of this device in a group. -/
def memberRank (s : State) (grp : NGroup) (part ctx gteam blk : Nat) : Option Nat :=
  grp.members.findIdx? (fun m => m.dev = s.mod.poddev && m.part = part && m.ctx = ctx && m.gteam = gteam && m.block = blk)
def agentRank (s : State) (grp : NGroup) (g : Agent) : Option Nat := memberRank s grp g.part g.ctx g.gteam g.blockNo
/-- Frame address of a member's board word at its home, for reading or writing; none where it has no translation now. -/
def boardAt (s : State) (m : NMember) (word : Nat) (acc : Acc) : State × Option Nat :=
  match ctxByKey s (ckey m.part m.ctx) with
  | none => (s, none)
  | some c => farPlace s c (m.board.toNat + 8 * word) acc
/-- The stores of an applied notice to the boards of this device's members (R459). -/
def boardStore (s : State) (grp : NGroup) (n : Notice) : State :=
  let s := grp.members.foldl (fun s m =>
    if m.dev ≠ s.mod.poddev then s
    else match boardAt s m n.word .wr with
      | (s, some pa) => hbmWriteFor ((ctxByKey s (ckey m.part m.ctx)).map Ctx.fn) s pa (leBytes 8 n.value.toNat)
      | (s, none) => s) s
  modGroup s grp.gid.toNat (fun g => { g with appl := g.appl + 1 })
/-- The undo log that a store to a member's board here needs an entry of is full, or the member's tenant has just left and its memory is
still to be undone: the store waits (R135, R138; DEDUCED, log 62). -/
def boardsFull (s : State) (grp : NGroup) : Bool := grp.members.any (fun m => m.dev = s.mod.poddev && (undoFull s m.part
  || (ctxByKey s (ckey m.part m.ctx)).any (fun c => undoOpen s m.part c.fn)))
/-- A group that holds a member outside the tenant of function fn makes its notices exports (R465). -/
def groupExport (s : State) (grp : NGroup) (part fn : Nat) : Bool :=
  timeShared s part && grp.members.any (fun m => m.part ≠ part || (match ctxByKey s (ckey m.part m.ctx) with
    | some c => c.fn ≠ fn
    | none => true))

/-! ## Arrivals (R457, R461, R462, R464). -/

/-- A discarded flit: DISC of its group, or the device's count (R457). -/
def discFlit (s : State) (gid : Nat) : State :=
  if (groupGid s gid).isSome then modGroup s gid (fun g => { g with disc := sat16 g.disc })
  else { s with ntc := { s.ntc with disc := sat32 s.ntc.disc } }
/-- The sender is the member at its stated rank. -/
def srcOk (grp : NGroup) (rank : Nat) (f : Flit) : Bool := match grp.members[rank]? with
  | some m => m.dev = f.src.toNat && m.part = f.part.toNat
  | none => false
/-- Take a notice-store flit through the checks of R457: counted and discarded, discarded, or acted on. -/
def recvFlit (s : State) (f : Flit) (gid rank : Nat) (ok : Bool) (act : State → NGroup → State) : State :=
  match genOfSender s f.part.toNat f.gen.toNat with
  | .newer => s
  | .older => countStale (discFlit s gid) f.part.toNat
  | .current => match groupGid s gid with
    | none => discFlit s gid
    | some grp => if ok && srcOk grp rank f then act s grp else discFlit s gid
/-- The filters of a member block match a notice (R462). -/
def filterHits (s : State) (grp : NGroup) (n : Notice) (k : Block) (m : NMember) : State × Bool :=
  k.filters.foldl (fun acc e =>
    let (_, h, rule, ctl) := e
    let mode := fld ctl 5 4
    let hit := h = grp.handle && grp.ctx = ckey k.part k.ctx && mode ≠ 0
      && (n.key &&& rule.extractLsb' 0 32) = (rule.extractLsb' 32 32 &&& rule.extractLsb' 0 32)
    if acc.2 || !hit then acc
    else if mode = 1 then (acc.1, true)
    else match boardAt acc.1 m n.word .rd with
      | (s, some pa) => (s, hbmNum s pa 8 ≠ 0)
      | (s, none) => (s, false)) (s, false)
/-- Blocks whose filters are asked: those of this device, and those of a tenant's image while the tenant does not run (R462). -/
def filterBlocks (s : State) : List (Nat × Block) :=
  s.blocks ++ (s.ck.map (fun c => ((c.images.filter (fun i => i.1 ≠ c.tenant)).map (fun i => i.2.blocks)).flatten)).flatten
/-- Every member block of this device evaluates its filters as the notice becomes visible. -/
def runFilters (s : State) (grp : NGroup) (n : Notice) : State :=
  (filterBlocks s).foldl (fun s e =>
    let k := e.2
    match memberRank s grp k.part k.ctx k.gteam k.blockNo with
    | none => s
    | some r => match grp.members[r]? with
      | none => s
      | some m => match filterHits s grp n k m with
        | (s, false) => s
        | (s, true) =>
          mpEnqueue s ⟨mkFlit s k.part (fnGen s grp.fn) (groupDest grp) 2 (objPayload n.itick grp.gid.toNat n.rank r), none⟩) s
/-- NOTICE_FLIT (R457, R462). -/
def noticeFlitOp (s : State) (f : Flit) : State :=
  let p := f.payload
  let gid := fld p 159 144
  let rank := fld p 135 130
  let t := wideTick s f.itick.toNat
  recvFlit s f gid rank (fld p 120 0 = 0 && 6 ≤ fld p 143 136) fun s grp =>
    match noticeOf grp rank t with
    | some n => if n.seen then s else runFilters (modNotice s gid rank t (fun n => { n with seen := true })) grp n
    | none =>
      let s := noticeSent s f t
      let s := modNotice s gid rank t (fun n => { n with seen := true })
      match (groupGid s gid).bind (fun g => noticeOf g rank t) with
      | some n => runFilters s grp n
      | none => s
def execNoticeFlit (f : Flit) (s : State) : Host.Outcome State Fault Refusal := .next (progress (noticeFlitOp s f))
/-- OBJECTION_FLIT (R458, R461): counted when its tick is at most C - 1; later copies of one member's objection are
discarded. -/
def objectionFlitOp (s : State) (f : Flit) : State :=
  let p := f.payload
  let gid := fld p 207 192
  let orank := fld p 185 180
  recvFlit s f gid orank (fld p 179 0 = 0) fun s grp =>
    match noticeOf grp (fld p 191 186) (fld p 255 208) with
    | none => discFlit s gid
    | some n =>
      if n.objs.any (fun o => o.1 = orank) then s
      else if n.out ≠ 1 then discFlit s gid
      else
        let t := wideTick s f.itick.toNat
        if closeOf n ≤ t then s else modNotice s gid n.rank n.itick (fun n => { n with objs := n.objs ++ [(orank, t)] })
def execObjectionFlit (f : Flit) (s : State) : Host.Outcome State Fault Refusal := .next (progress (objectionFlitOp s f))
/-- OUTCOME_FLIT (R464): an UNKNOWN outcome adopts the poster's within 4 ticks of E. -/
def outcomeFlitOp (s : State) (f : Flit) : State :=
  let p := f.payload
  let gid := fld p 207 192
  let rank := fld p 191 186
  let res := fld p 185 183
  recvFlit s f gid rank (fld p 182 0 = 0) fun s grp =>
    match noticeOf grp rank (fld p 255 208) with
    | none => s
    | some n =>
      if n.out = 5 && podTick s ≤ effectOf n + 4 && (res = 2 || res = 3 || res = 4) then
        let s := modNotice s gid rank n.itick (fun n => { n with out := res })
        if res = 2 then boardStore s grp n else s
      else s
/-- An outcome flit that would make stores waits while an undo log is full. -/
def outcomeWaits (s : State) (f : Flit) : Bool := (groupGid s (fld f.payload 207 192)).any (boardsFull s)
def execOutcomeFlit (f : Flit) (s : State) : Host.Outcome State Fault Refusal := .next (progress (outcomeFlitOp s f))

/-! ## Deciding (R459, R460, R464). -/

/-- (ITICK, RANK) order. -/
def precedes (m n : Notice) : Bool := m.itick < n.itick || (m.itick = n.itick && m.rank < n.rank)
def conflicts (m n : Notice) : Bool := m.key = n.key && m.itick ≤ effectOf n && n.itick ≤ effectOf m
/-- R464: for some member of another device and some tick from T to C - 1, its three junctions are all in loss windows. -/
def unknownHere (s : State) (grp : NGroup) (n : Notice) : Bool :=
  grp.members.any (fun m => m.dev ≠ s.mod.poddev && (List.range n.win).any (fun i =>
    (mpJcts m.dev).all (fun j => s.fab.losses.any (fun l => l.1 = j && l.2.1 ≤ n.itick + i && n.itick + i ≤ l.2.2))))
def decideOut (s : State) (grp : NGroup) (n : Notice) : Nat :=
  if grp.notices.any (fun m => precedes m n && conflicts m n) then 4
  else if n.objs ≠ [] then 3
  else if unknownHere s grp n then 5
  else 2
/-- NOTICE_DECIDE (R459), at the edge of tick E. -/
def noticeDecideOp (s : State) (gid rank itick : Nat) : State :=
  match groupGid s gid with
  | none => s
  | some grp => match noticeOf grp rank itick with
    | none => s
    | some n =>
      if n.out ≠ 1 || podTick s < effectOf n then s
      else
        let out := decideOut s grp n
        let s := modNotice s gid rank itick (fun n => { n with out })
        let s := if out = 2 then boardStore s grp n else s
        match grp.members[rank]? with
        | some m =>
          if m.dev = s.mod.poddev then
            mpEnqueue s ⟨mkFlit s m.part (fnGen s grp.fn) (groupDest grp) 3 (outPayload itick gid rank out), none⟩
          else s
        | none => s
def execNoticeDecide (gid : BitVec 16) (rank itick : Nat) (s : State) : Host.Outcome State Fault Refusal :=
  .next (progress (noticeDecideOp s gid.toNat rank itick))
/-- OUTCOME_EXPIRY (R460). -/
def execOutcomeExpiry (gid : BitVec 16) (rank itick : Nat) (s : State) : Host.Outcome State Fault Refusal :=
  .next (modGroup s gid.toNat (fun g => { g with notices := g.notices.filter (fun n =>
    !(n.rank = rank && n.itick = itick && n.out ≠ 1 && effectOf n + 1024 < podTick s)) }))
/-- UNKNOWN_OUTCOME_DEADLINE (R464): the outcome stays UNKNOWN and the waits on it end. -/
def execUnknownOutcomeDeadline (gid : BitVec 16) (rank itick : Nat) (s : State) : Host.Outcome State Fault Refusal :=
  match (groupGid s gid.toNat).bind (fun g => noticeOf g rank itick) with
  | some n => if n.out = 5 && effectOf n + 4 ≤ podTick s then .next (progress s) else .next s
  | none => .next s

/-! ## The instructions (R467 to R473). -/

def ticketWord (handle rank itick : Nat) : W64 := BitVec.ofNat 64 (handle * 2 ^ 56 + rank * 2 ^ 48 + itick % 2 ^ 48)
def resultWord (n : Option Notice) : W64 := match n with
  | some n => BitVec.ofNat 64 (effectOf n % 2 ^ 48 * 2 ^ 16 + min n.objs.length 255 * 2 ^ 8 + n.out)
  | none => 0
def ticketNotice (grp : NGroup) (t : W64) : Option Notice :=
  if fld t 47 0 = 0 then none else noticeOf grp (fld t 53 48) (fld t 47 0)
/-- The group of a ticket or word, by HANDLE in bits 63 to 56. -/
def onTicket (f : FmtA) (body : State → AgentId → Agent → W64 → NGroup → Res) : State → AgentId → Agent → Res :=
  uniform f.c fun s a g =>
    let t := sget g f.oa.toNat
    match groupOf s (ckey g.part g.ctx) (fld t 63 56) with
    | none => .trap s .bounds t
    | some grp => body s a g t grp
/-- NWIN (R468). -/
def execNwin (f : FmtA) : State → Host.Outcome State Fault Refusal :=
  issue (.nwin f) (uniform f.c fun s a g => .next (setAgent s a { g with nwin := BitVec.ofNat 8 (nfld f.sub.toNat 7 0) }))
/-- Pending and queued notices of a member (R460). -/
def postedBy (s : State) (grp : NGroup) (rank : Nat) : Nat :=
  (grp.notices.filter (fun n => n.rank = rank && n.out = 1)).length
  + (s.fab.mpQueue.filter (fun m => m.flit.kind = 1 && fld m.flit.payload 159 144 = grp.gid.toNat && fld m.flit.payload 135 130 = rank)).length
/-- NOTICE (R469). -/
def noticeBody (f : FmtA) (s : State) (a : AgentId) (g : Agent) : Res :=
  let d := sget g f.oa.toNat
  let done (t : Nat) (rank : Nat) : Res :=
    .next (setAgent s a { sset g f.oc.toNat (ticketWord (fld d 7 0) rank t) with mpSt := .none, chkptAt := none })
  if fld d 31 17 ≠ 0 then .trap s .bounds d
  else match groupOf s (ckey g.part g.ctx) (fld d 7 0) with
    | none => .trap s .bounds d
    | some grp => match agentRank s grp g with
      | none => .trap s .perm d
      | some rank => match g.mpSt with
        | .injected t => done t rank
        | .unreachable => done 0 rank
        | .queued => .wait s
        | _ => match g.fabErr with
          | some e => .trap s .fabric e
          | none =>
            if 16 ≤ postedBy s grp rank then .wait s
            else
              let (s, mark, ok) := if groupExport s grp g.part g.fn then exportGate s g.part g.chkptAt else (s, g.chkptAt, true)
              if !ok || relWait s a g 5 || mpFull s then .wait (setAgent s a { g with chkptAt := mark })
              else
                let fl := mkFlit s g.part (fnGen s g.fn) (groupDest grp) 1
                  (noticePayload (sget g (f.oa.toNat + 1)) (d.extractLsb' 32 32) grp.gid.toNat g.nwin.toNat rank (fld d 16 8))
                .wait (progress (mpEnqueue (setAgent s a { g with mpSt := .queued, chkptAt := mark }) ⟨fl, some a⟩))
def execNotice (f : FmtA) : State → Host.Outcome State Fault Refusal := issue (.notice f) (uniform f.c (noticeBody f))
/-- OBJECT (R461, R470). -/
def objectBody (_f : FmtA) (s : State) (a : AgentId) (g : Agent) (t : W64) (grp : NGroup) : Res :=
  match agentRank s grp g with
  | none => .trap s .perm t
  | some rank => match g.mpSt with
    | .injected _ => .next (setAgent s a { g with mpSt := .none, chkptAt := none })
    | .unreachable => .next (setAgent s a { g with mpSt := .none, chkptAt := none })
    | .late => .trap (setAgent s a { g with mpSt := .none, chkptAt := none }) .lateobj t
    | .queued => .wait s
    | .none => match ticketNotice grp t with
      | none => .trap s .bounds t
      | some n =>
        if closeOf n ≤ podTick s then .trap s .lateobj t
        else
          let (s, mark, ok) := if groupExport s grp g.part g.fn then exportGate s g.part g.chkptAt else (s, g.chkptAt, true)
          if !ok || mpFull s then .wait (setAgent s a { g with chkptAt := mark })
          else
            let fl := mkFlit s g.part (fnGen s g.fn) (groupDest grp) 2 (objPayload n.itick grp.gid.toNat n.rank rank)
            .wait (progress (mpEnqueue (setAgent s a { g with mpSt := .queued, chkptAt := mark }) ⟨fl, some a⟩))
def execObject (f : FmtA) : State → Host.Outcome State Fault Refusal := issue (.object f) (onTicket f (objectBody f))
/-- NAWAIT (R466, R471). -/
def execNawait (f : FmtA) : State → Host.Outcome State Fault Refusal :=
  issue (.nawait f) (onTicket f fun s a g t grp =>
    let n := ticketNotice grp t
    let open_ := match n with
      | some n => n.out = 1 || (n.out = 5 && podTick s < effectOf n + 4)
      | none => false
    if open_ then .wait s
    else
      let g := sset g f.oc.toNat (resultWord n)
      .next (setAgent s a (if (n.map Notice.out).getD 0 = 2 then { g with acqHold := memOut g } else g)))
/-- NSTAT (R471). -/
def execNstat (f : FmtA) : State → Host.Outcome State Fault Refusal :=
  issue (.nstat f) (onTicket f fun s a g t grp => .next (setAgent s a (sset g f.oc.toNat (resultWord (ticketNotice grp t)))))
/-- NSTAT.cnt (R471). -/
def execNstatCnt (f : FmtA) : State → Host.Outcome State Fault Refusal :=
  issue (.nstatCnt f) (onTicket f fun s a g _ grp =>
    .next (setAgent s a (sset g f.oc.toNat (BitVec.ofNat 64 (grp.flate.toNat * 2 ^ 48 + grp.disc.toNat * 2 ^ 32 + grp.appl.toNat)))))
/-- The earlier of two notices in precedence order. -/
def firstOf (x : Option Notice) (n : Notice) : Option Notice := match x with
  | some m => if precedes n m then some n else some m
  | none => some n
/-- NREAD (R472). -/
def execNread (f : FmtA) : State → Host.Outcome State Fault Refusal :=
  issue (.nread f) (onTicket f fun s a g t grp =>
    let w := wideTick s (fld t 47 0)
    let after (n : Notice) : Bool := fld t 47 0 = 0 || w < n.itick || (w = n.itick && fld t 53 48 < n.rank)
    let n := (grp.notices.filter (fun n => n.out = 1 && n.seen && after n)).foldl firstOf none
    let vs : List W64 := match n with
      | some n => [ticketWord grp.handle n.rank n.itick, n.key ++ BitVec.ofNat 32 (n.word * 256 + grp.handle), n.value,
                   BitVec.ofNat 64 (closeOf n - 1)]
      | none => [0, 0, 0, 0]
    .next (setAgent s a ((List.range 4).foldl (fun g i => sset g (f.oc.toNat + i) (vs.getD i 0)) g)))
/-- NFILTER (R473, Table 28-3). -/
def nfilterBody (f : FmtA) (s : State) (_a : AgentId) (g : Agent) : Res :=
  let w := sget g f.ob.toNat
  let slot := fld w 2 0
  let mode := fld w 5 4
  if fld w 55 6 ≠ 0 || fld w 3 3 ≠ 0 || mode = 3 then .trap s .bounds w
  else match groupOf s (ckey g.part g.ctx) (fld w 63 56) with
    | none => .trap s .bounds w
    | some grp => match agentRank s grp g with
      | none => .trap s .perm w
      | some _ =>
        .next (modBlock s g.blk (fun k =>
          let rest := k.filters.filter (fun e => e.1 ≠ slot)
          { k with filters := if mode = 0 then rest else rest ++ [(slot, fld w 63 56, sget g f.oa.toNat, w)] }))
def execNfilter (f : FmtA) : State → Host.Outcome State Fault Refusal := issue (.nfilter f) (uniform f.c (nfilterBody f))

end Sys2Proof.Machine
end

