-- ==== Sys2Proof/Machine/Net.lean ====
section
/-! DEFINITION. The network engine: queue pairs, posting operations, completions and incoming requests (04; 21 R387, R388). -/

namespace Sys2Proof.Machine

/-! ## Queue pairs. -/

def qpAt (s : State) (n : Nat) : Option Qp := s.net.qps.find? (fun q => q.qpn = n)
def setQp (s : State) (q : Qp) : State :=
  { s with net := { s.net with qps := s.net.qps.map (fun x => if x.qpn = q.qpn then q else x) } }
def modQp (s : State) (n : Nat) (f : Qp → Qp) : State :=
  match qpAt s n with
  | some q => setQp s (f q)
  | none => s
def partOfKey (k : Nat) : Nat := k / 65536
/-- A message leaves by the queue pair's port while its link is up. -/
def wireOut (s : State) (q : Qp) (w : Wire) : State :=
  if s.fab.ethUp.getLsbD q.port then { s with net := { s.net with wire := s.net.wire ++ [w] } } else s
/-- Data in packets of at most the path MTU, with their offsets (R81): one packet where there is none. -/
def cutMtu (mtu : Nat) : Nat → Nat → List Byte → List (Nat × List Byte)
  | 0, _, _ => []
  | k + 1, off, bs => if bs.length ≤ mtu then [(off, bs)] else (off, bs.take mtu) :: cutMtu mtu k (off + mtu) (bs.drop mtu)
/-- The packets of a message. -/
def wires (q : Qp) (w : Wire) : List Wire := (cutMtu q.mtu (w.data.length + 1) 0 w.data).map (fun x => { w with off := x.1, data := x.2 })
def wireAll (s : State) (q : Qp) (w : Wire) : State := (wires q w).foldl (fun s w => wireOut s q w) s
/-- An answer to an incoming request: an export in a time-shared partition (R96). -/
def netReply (s : State) (q : Qp) (kind : Nat) (len : Nat) (data : List Byte) : State :=
  let w : Wire := ⟨q.qpn, kind, 0, 0, 0, len, data, 0, 0⟩
  if timeShared s (partOfKey q.ctx) then (wires q w).foldl (fun s w => holdFor s (partOfKey q.ctx) q.fn (.net w)) s else wireAll s q w

/-! ## Completion entries (R86, R87). -/

/-- A completion entry as a number (Table 4-4). -/
def cqeNum (wrid bytes gen qpn st op phase : Nat) : Nat :=
  wrid * 2 ^ 192 + bytes % 2 ^ 32 * 2 ^ 160 + gen * 2 ^ 144 + qpn * 2 ^ 120 + st * 2 ^ 112 + op * 2 ^ 104 + phase
def cqOf (s : State) (q : Qp) : Option Cq := s.net.cqs.find? (fun c => c.fn = q.fn && c.cq = q.cq)
/-- Write far bytes at once in a context, where they lie in this device's HBM. -/
def farPut (ten : Option (Option Nat)) (s : State) (cx : Ctx) (va : Nat) (bs : List Byte) : State :=
  match farPlace s cx va .wr with
  | (s, some pa) => match ten with
    | some t => hbmWriteFor t s pa bs
    | none => hbmPut s pa bs
  | (s, none) => s
/-- A 32-bit index that software keeps behind a ring (R87; log 13). -/
def farIndex (s : State) (cx : Ctx) (va : Nat) : Nat := match farPeek s cx va with
  | (s, some pa) => hbmNum s pa 4
  | (_, none) => 0
/-- Write the next entry of a completion queue; false where it would overflow. Receive completions are logged, requester
completions are not (R135). -/
def writeCqe (s : State) (q : Qp) (rx : Bool) (wrid bytes st op : Nat) : State × Bool :=
  match cqOf s q, ctxByKey s q.ctx with
  | some c, some cx =>
    if c.depth ≤ (c.tail + 2 ^ 32 - farIndex s cx (c.base.toNat + 32 * c.depth) % 2 ^ 32) % 2 ^ 32 then (s, false)
    else
      let e := leBytes 32 (cqeNum wrid bytes (ctxGen s cx).toNat q.qpn st op (if c.tail / c.depth % 2 = 0 then 1 else 0))
      let a := c.base.toNat + 32 * (c.tail % c.depth)
      let ten := if rx then some (some q.fn) else none
      let s := farPut ten (farPut ten s cx (a + 8) (e.drop 8)) cx a (e.take 8)
      ({ s with net := { s.net with cqs := s.net.cqs.map (fun x =>
          if x.fn = c.fn && x.cq = c.cq then { x with tail := x.tail + 1, keep := if rx then x.keep else x.tail + 1 } else x) } }, true)
  | _, _ => (s, true)
/-- Deliver a request's named completion and retire it (R91): to the saved state of a poster that does not run; what a running tenant is
given after its checkpoint is undone with its registers (R207). -/
def netDeliver (s : State) (w : NetWq) (bytes st : Nat) : State := complete s w.owner w.blk w.compl w.opId bytes 5 st
/-- A queue pair in Error with nothing outstanding, and no incoming request left to answer (R100). -/
def qpDead (q : Qp) : Qp := { q with st := .error, sq := [], sent := 0, fetch := [], back := [], resps := [], rnrWait := none, rxq := [] }
/-- Incoming requests of queue pairs that are begun end without an answer, with their accesses. -/
def dropInops (s : State) (qs : List Nat) : State :=
  let gone := s.net.inops.filter (fun o => qs.contains o.qpn)
  { gone.foldl (fun s o => ioDrop s (.inop o.n)) s with net := { s.net with inops := s.net.inops.filter (fun o => !qs.contains o.qpn) } }
/-- Answers of queue pairs that are held for a commit are not sent: in Error no packet leaves (R100). -/
def dropHeldNet (s : State) (qs : List Nat) : State :=
  let gone (x : Export) : Bool := match x with
    | .net w => qs.contains w.qpn
    | _ => false
  { s with ck := s.ck.map (fun c => { c with exports := c.exports.filter (fun x => !gone x.2.2) }) }
/-- The accesses of a queue pair's own requests end. -/
def qpIoDrop (s : State) (n : Nat) : State := ioDrop (ioDrop s (.qp n)) (.back n)
/-- The completion queue would overflow: every queue pair that feeds it enters Error (R87). The other requests of those queue pairs end with
FLUSH_ERROR, and only the request whose entry found no room with CQ_OVERRUN; where a receive completion found none, no request does
(DESIGN CHOICE, log 77). -/
def cqOverrun (s : State) (q : Qp) : State :=
  let hit := s.net.qps.filter (fun x => x.fn = q.fn && x.cq = q.cq)
  let s := { s with net := { s.net with qps := s.net.qps.map (fun x => if x.fn = q.fn && x.cq = q.cq then qpDead x else x) } }
  let s := dropHeldNet (dropInops (hit.foldl (fun s x => qpIoDrop s x.qpn) s) (hit.map Qp.qpn)) (hit.map Qp.qpn)
  let s := hit.foldl (fun s x => (x.sq.foldl (fun s w => netDeliver s w 0 7) (postEvent s x.fn 0x0A (x.ctx % 65536) (payWords [x.qpn])))) s
  postEvent s q.fn 0x08 (q.ctx % 65536) (payWords [q.cq])
/-- Write a request's completion entry and deliver its named completion. -/
def netComplete (s : State) (q : Qp) (w : NetWq) (bytes st : Nat) : State :=
  match writeCqe s q false w.wrid.toNat bytes st w.op with
  | (s, true) => netDeliver s w bytes st
  | (s, false) => cqOverrun (netDeliver s w 0 0x0B) q
/-- Complete entries in post order, each with its status. -/
def netFlush (s : State) (q : Qp) : List (NetWq × Nat) → State
  | [] => s
  | (w, st) :: r => netFlush (netComplete s q w 0 st) q r
/-- The queue pair enters Error: what is outstanding completes in post order (R100). -/
def qpError (s : State) (q : Qp) (st : NetWq → Nat) : State :=
  let s := postEvent (setQp s (qpDead q)) q.fn 0x0A (q.ctx % 65536) (payWords [q.qpn])
  netFlush (dropHeldNet (dropInops (qpIoDrop s q.qpn) [q.qpn]) [q.qpn]) q (q.sq.map (fun w => (w, st w)))
/-- The oldest request completes and leaves the queue. -/
def netRetire (s : State) (q : Qp) (w : NetWq) (bytes st : Nat) : State :=
  let q := { q with sq := q.sq.drop 1, sent := q.sent - 1, back := [], tries := 0, rnrTries := 0, sentAt := s.fab.podNs }
  netComplete (setQp s q) q w bytes st

/-! ## Local buffers (R88, R94). -/

/-- Cut a pinned range into its 64-byte lines. -/
def cutPins (pins : List Pin) : Nat → Nat → Nat → Nat → List (Nat × Loc × Nat × Nat)
  | 0, _, _, _ => []
  | k + 1, off, a, rem =>
    if rem = 0 then []
    else match pins.find? (fun p => p.va ≤ a && a < p.va + p.size) with
      | none => []
      | some p =>
        let pa := p.pa + (a - p.va)
        let m := min (min rem (p.va + p.size - a)) (64 - pa % 64)
        (off, p.loc, pa, m) :: cutPins pins k (off + m) (a + m) (rem - m)
/-- Read a pinned range: what lies here at once, the rest by packets. -/
def gatherBuf (s : State) (who : IoWho) (odd : Nat) (cx : Ctx) (pins : List Pin) (va len : Nat) : State × List Piece :=
  (cutPins pins (len + 1) 0 va len).foldl (fun acc g =>
    let (s, ps) := acc
    if g.2.1 = .dev s.mod.poddev then
      let (bs, bad) := hbmRead s g.2.2.1 g.2.2.2
      (s, ps ++ [⟨g.1, none, bs, bad⟩])
    else match ioAt who (2 * g.1 + odd) cx g.2.1 g.2.2.1 (.read g.2.2.2) s with
      | (s, .val bs bad) => (s, ps ++ [⟨g.1, none, bs, bad⟩])
      | (s, _) => (s, ps ++ [⟨g.1, some (2 * g.1 + odd), [], false⟩])) (s, [])
/-- Write a pinned range in the same way; here logged for a tenant, or not. -/
def scatterBuf (ten : Option (Option Nat)) (s : State) (who : IoWho) (odd : Nat) (cx : Ctx) (pins : List Pin) (va : Nat) (bs : List Byte) :
    State × List Piece :=
  (cutPins pins (bs.length + 1) 0 va bs.length).foldl (fun acc g =>
    let (s, ps) := acc
    let part := (bs.drop g.1).take g.2.2.2
    if g.2.1 = .dev s.mod.poddev then
      ((match ten with
        | some t => hbmWriteFor t s g.2.2.1 part
        | none => hbmPut s g.2.2.1 part), ps)
    else match ioAt who (2 * g.1 + odd) cx g.2.1 g.2.2.1 (.write part) s with
      | (s, .val _ _) => (s, ps)
      | (s, _) => (s, ps ++ [⟨g.1, some (2 * g.1 + odd), [], false⟩])) (s, [])
/-- A part whose access has ended holds its bytes; a failed read counts as poisoned (log 13). -/
def settlePiece (s : State) (who : IoWho) (p : Piece) : Piece :=
  match p.io with
  | none => p
  | some i => match ioAgain s who i with
    | some (.val bs bad) => { p with io := none, bytes := bs, bad := bad }
    | some .failed => { p with io := none, bad := true }
    | _ => p
def settleBuf (s : State) (who : IoWho) (ps : List Piece) : List Piece := ps.map (settlePiece s who)
def bufDone (ps : List Piece) : Bool := ps.all (fun p => p.io = none)
def bufBytes (ps : List Piece) : List Byte := ps.flatMap Piece.bytes
/-- The bytes before the first poisoned line. -/
def cleanBytes (ps : List Piece) : List Byte := bufBytes (ps.takeWhile (fun p => !p.bad))

/-! ## Posting (R387). -/

/-- A post closes the checkpoint interval before its first packet leaves (R90): a cut is asked for. -/
def postExport (s : State) (part : Nat) : State := (exportGate s part none).1
/-- The checks of R387 on the operands, in order: the trap, or the queue pair. -/
def postCheck (s : State) (g : Agent) (op : Nat) (q la ra : W64) (len : Nat) : Except (Cause × W64) Qp :=
  match qpAt s (fld q 11 0) with
  | none => .error (.perm, q)
  | some p =>
    if fld q 63 12 ≠ 0 || p.ctx ≠ ckey g.part g.ctx || !(p.st = .rts || p.st = .error) then .error (.perm, q)
    else if 0x100000 < len || ((op = 4 || op = 5) && len ≠ 8) then .error (.bounds, BitVec.ofNat 64 len)
    else if (op = 4 || op = 5) && la.toNat % 8 ≠ 0 then .error (.align, la)
    else if (op = 4 || op = 5) && ra.toNat % 8 ≠ 0 then .error (.align, ra)
    else .ok p
/-- The entry is written (Table 4-3); in Error it completes at once (R100). -/
def postEntry (f : FmtA) (op : Nat) (s : State) (a : AgentId) (g : Agent) (p : Qp) (pins : List Pin) : State :=
  let r (i : Nat) : W64 := sget g (f.oa.toNat + i)
  let (n, s) := fresh s
  let cp := complOf f
  let atom := op = 4 || op = 5
  let w : NetWq := { op, fence := nfld f.sub.toNat 0 0 = 1, compl := cp, laddr := r 0, raddr := r 1, len := fld (r 2) 31 0,
                     rkey := (r 2).extractLsb' 32 32, opa := if atom then sget g f.oc.toNat else 0,
                     opb := if atom then sget g (f.oc.toNat + 1) else 0, wrid := r 3, gen := g.gen, owner := a, blk := g.blk,
                     launch := g.launch, opId := n, pins, tick := podTick s }
  let s := setAgent s a (pendCompl (outIssue g 5 n) cp n)
  let s := if timeShared s g.part then postExport s g.part else s
  if p.st = .error then netComplete s p w 0 7 else modQp s p.qpn (fun p => { p with sq := p.sq ++ [w] })
def postBody (op : Nat) (f : FmtA) (s : State) (a : AgentId) (g : Agent) : Res :=
  let q := sget g f.ob.toNat
  let la := sget g f.oa.toNat
  let len := fld (sget g (f.oa.toNat + 2)) 31 0
  match postCheck s g op q la (sget g (f.oa.toNat + 1)) len with
  | .error (c, v) => .trap s c v
  | .ok p => match ctxOf s g.part g.ctx with
    | none => .trap s .xlate la
    | some cx =>
      let segs : List Seg := if op = 6 || len = 0 then [] else [⟨0, op = 2 || op = 4 || op = 5, la.toNat, len⟩]
      match pinAll (.agent a) cx g.die 4096 segs 4096 s [] with
      | (s, _, .fault code va) => .trap (takeFault s (.agent a) (ctxKey cx) va) (causeOf code) (BitVec.ofNat 64 va)
      | (s, pins, .done) =>
        let off := pins.any (fun x => x.loc ≠ .dev s.mod.poddev)
        if p.sqDepth ≤ p.sq.length || 1023 ≤ outcGet g 5 || relWait s a g (if off then 5 else 4) then .wait s
        else .next (postEntry f op s a g p pins)
      | (s, _, _) => .wait s
def execXwrite (f : FmtA) : State → Host.Outcome State Fault Refusal := issue (.xwrite f) (uniform f.c (postBody 1 f))
def execXread (f : FmtA) : State → Host.Outcome State Fault Refusal := issue (.xread f) (uniform f.c (postBody 2 f))
def execXsend (f : FmtA) : State → Host.Outcome State Fault Refusal := issue (.xsend f) (uniform f.c (postBody 3 f))
def execXatom (f : FmtA) : State → Host.Outcome State Fault Refusal :=
  issue (.xatom f) (uniform f.c (postBody (if nfld f.sub.toNat 1 1 = 1 then 5 else 4) f))
def execXflush (f : FmtA) : State → Host.Outcome State Fault Refusal := issue (.xflush f) (uniform f.c (postBody 6 f))

/-- XPOLL (R388): the acquiring load of word 0, and the three others when PHASE matches. -/
def xpollBody (f : FmtA) (s : State) (a : AgentId) (g : Agent) : Res :=
  let v := sget g f.ob.toNat
  if v.toNat % 32 ≠ 0 then .trap s .align v
  else if acqWait g || (ioFind s (.agent a) 0).isNone && overlaps s a g (vaBlocks v.toNat 32) then .wait s
  else match ctxOf s g.part g.ctx with
    | none => .trap s .xlate v
    | some cx => match agentIo a 0 cx v.toNat .rd (.read 32) true s with
      | (s, .wait) => .wait s
      | (s, .fault code) => .trap s (causeOf code) v
      | (s, r) =>
        let (bs, bad, lost) : List Byte × Bool × Bool := match r with
          | .val bs bad => (bs, bad, false)
          | _ => (List.replicate 32 0, false, true)
        let w (k : Nat) : W64 := BitVec.ofNat 64 (leVal ((bs.drop (8 * k)).take 8))
        let hit := (w 0).getLsbD 0 = (sget g f.oc.toNat).getLsbD 0
        let vals := (List.range 4).map (fun k => (f.oa.toNat + k, if k = 0 || hit then w k else 0))
        let s := ioDrop s (.agent a)
        let (id, s) := fresh s
        let s := modAgent s a (fun g => addPend g id f.c.la.toNat 0 (rcs 1 f.oa.toNat 4) ⟨[], vals, 0, if bad then some (0, v) else none⟩)
        .next (if lost then setFabErr s a v else s)
def execXpoll (f : FmtA) : State → Host.Outcome State Fault Refusal := issue (.xpoll f) (uniform f.c (xpollBody f))

/-! ## Incoming requests (R93 to R98). -/

/-- The region a request names, where the request lies in it and has the right. -/
def regionOf (s : State) (q : Qp) (rkey : W32) (addr len : Nat) (right : MemReg → Bool) : Option MemReg :=
  s.net.mrs.find? (fun m => m.ctx = q.ctx && m.key = rkey && !m.revoked && m.base ≤ addr && addr + len ≤ m.base + m.len && right m)
/-- A receive completion, and the answer to its SEND (R92, R93). What the peer of a SEND that ends in LENGTH or LOCAL_PROTECTION is told is
given nowhere: a NAK Invalid Request or a NAK Remote Operational Error; the receive entry is used up and the queue pair keeps its state
(DESIGN CHOICE, log 77). -/
def rxDone (s : State) (q : Qp) (bytes st : Nat) : State :=
  let s := modQp s q.qpn (fun q => { q with rqHead := q.rqHead + 1 })
  match writeCqe s q true 0 bytes st 0x10 with
  | (s, true) => if st = 0 then netReply s q 0x11 0 [] else netReply s q 0x14 (if st = 9 then 2 else 3) []
  | (s, false) => cqOverrun s q
/-- Answer an incoming request whose parts are complete; a part that failed, or a poisoned line to return, is a NAK (R98). -/
def inReply (s : State) (q : Qp) (kind len : Nat) (ps : List Piece) : State :=
  let bad := ps.any Piece.bad
  if kind = 3 then rxDone s q len (if bad then 1 else 0)
  else if bad then netReply s q 0x14 3 []
  else if kind = 1 then netReply s q 0x11 0 []
  else netReply s q (if kind = 2 then 0x12 else 0x13) 0 (bufBytes ps)
/-- Begin an incoming request's accesses, and answer it when nothing is left to wait for. -/
def inStart (s : State) (q : Qp) (kind len : Nat) (pins : List Pin) (run : State → IoWho → State × List Piece) : State :=
  let (n, s) := fresh s
  let (s, ps) := run s (.inop n)
  if bufDone ps && !s.net.inops.any (fun o => o.qpn = q.qpn) then inReply (ioDrop s (.inop n)) q kind len ps
  else { s with net := { s.net with inops := s.net.inops ++ [⟨n, q.qpn, kind, ps, len, pins⟩] } }
/-- Pages of an incoming SEND's buffer, pinned for writing. -/
def rxPins (s : State) (q : Qp) (cx : Ctx) (va len : Nat) : State × List Pin × PinR :=
  pinAll (.qp q.qpn) cx agentDie 4096 (if len = 0 then [] else [⟨0, true, va, len⟩]) 4096 s []
/-- An incoming SEND (R93): none while it waits. -/
def rxSend (s : State) (q : Qp) (data : List Byte) : Option State × State :=
  match ctxByKey s q.ctx with
  | none => (some s, s)
  | some cx =>
    if s.net.inops.any (fun o => o.qpn = q.qpn) then (none, s)
    else if farIndex s cx (q.rqBase.toNat + 16 * q.rqDepth) = q.rqHead % 2 ^ 32 then (some (netReply s q 0x14 4 []), s)
    else match farWords2 s cx (q.rqBase.toNat + 16 * (q.rqHead % q.rqDepth)) with
      | (s, none) => (some (rxDone s q 0 1), s)
      | (s, some (w0, w1)) =>
        if w0 / 2 ^ 32 < data.length then (some (rxDone s q 0 9), s)
        else match rxPins s q cx w1 data.length with
          | (s, _, .wait) => (none, s)
          | (s, pins, .done) =>
            (some (inStart s q 3 data.length pins (fun s who => scatterBuf (some (some q.fn)) s who 0 cx pins w1 data)), s)
          | (s, _, .fault _ va) => (some (rxDone (takeFault s (.qp q.qpn) (ctxKey cx) va) q 0 1), s)
          | (s, _, .full _) => (some (rxDone s q 0 1), s)
where
  /-- The two words of a receive entry (Table 4-5): LEN word, ADDR. -/
  farWords2 (s : State) (cx : Ctx) (va : Nat) : State × Option (Nat × Nat) :=
    match farPeek s cx va with
    | (s, some pa) => (s, some (hbmNum s pa 8, hbmNum s (pa + 8) 8))
    | (s, none) => (s, none)
/-- The queue pair serves as many incoming READs and ATOMICs as it may (Table 4-1): one more waits until one of the 16 has ended (DESIGN
CHOICE, log 77: the spec gives it no answer). -/
def respFull (s : State) (q : Qp) : Bool := 16 ≤ (s.net.inops.filter (fun o => o.qpn = q.qpn && (o.kind = 2 || o.kind = 4))).length
/-- The request places data. -/
def rxWrites : RxReq → Bool
  | .write _ _ _ => true | .send _ => true | .atomic _ _ _ _ _ => true | _ => false
/-- One incoming request at its queue pair: none while it waits, for room in the undo log too (R135), or until what the tenant left at its
slice's end is undone (R96, R138; DEDUCED, log 62). -/
def rxOne (s : State) (q : Qp) (i : RxReq) : Option State × State :=
  match ctxByKey s q.ctx with
  | none => (some s, s)
  | some cx => if (rxWrites i && undoFull s cx.part) || undoOpen s cx.part q.fn then (none, s) else match i with
    | .write rkey addr data => match regionOf s q rkey addr data.length MemReg.w with
      | none => (some (netReply s q 0x14 1 []), s)
      | some m => (some (inStart s q 1 data.length m.pins (fun s who => scatterBuf (some (some q.fn)) s who 0 cx m.pins addr data)), s)
    | .read rkey addr len => match regionOf s q rkey addr len MemReg.rd with
      | none => (some (netReply s q 0x14 1 []), s)
      | some m =>
        if respFull s q then (none, s)
        else (some (inStart s q 2 len m.pins (fun s who => gatherBuf s who 0 cx m.pins addr len)), s)
    | .atomic rkey addr cas x y =>
      if addr % 8 ≠ 0 then (some (netReply s q 0x14 2 []), s)
      else match regionOf s q rkey addr 8 MemReg.atomic with
      | none => (some (netReply s q 0x14 1 []), s)
      | some m =>
        if respFull s q then (none, s) else
        let req : AtomReq := if cas then .cas .z64 [(y.toNat, x.toNat)] else .rmw 0 .z64 [x.toNat]
        (some (inStart s q 4 8 m.pins (fun s who => match (cutPins m.pins 9 0 addr 8).head? with
          | none => (s, [])
          | some g =>
            if g.2.1 = .dev s.mod.poddev then
              let (s, v, bad) := hbmAtomFor (some q.fn) s g.2.2.1 req
              (s, [⟨0, none, leBytes 8 v, bad⟩])
            else match ioAt who 0 cx g.2.1 g.2.2.1 (.atom req) s with
              | (s, .val bs bad) => (s, [⟨0, none, bs, bad⟩])
              | (s, _) => (s, [⟨0, some 0, [], false⟩]))), s)
    | .flush rkey addr len => match regionOf s q rkey addr len (fun _ => true) with
      | none => (some (netReply s q 0x14 1 []), s)
      | some _ => if s.net.inops.any (fun o => o.qpn = q.qpn) then (none, s) else (some (netReply s q 0x11 0 []), s)
    | .send data => rxSend s q data
    | .other => (some (netReply s q 0x14 2 []), s)
/-- The bytes an incoming request moves. -/
def rxLen : RxReq → Nat
  | .write _ _ d => d.length
  | .send d => d.length
  | .read _ _ n => n
  | _ => 0
/-- An incoming request arrives: dropped where the queue pair does not receive (R100, R101), held behind earlier ones that wait. An ECN mark is
answered by a CNP; what Table 4-1 does not list, a message longer than 1 MiB among it, is a NAK Invalid Request (R81). -/
def rxArrive (s : State) (h : RxHead) (i : RxReq) : State :=
  match qpAt s h.qpn with
  | none => s
  | some q =>
    if !(q.st = .rtr || q.st = .rts) then s
    else
      let s := if h.ce then wireOut s q ⟨h.qpn, 0x20, 0, 0, 0, 0, [], 0, 0⟩ else s
      let i := if h.other || 0x100000 < rxLen i then .other else i
      if q.rxq ≠ [] then setQp s { q with rxq := q.rxq ++ [i] }
      else match rxOne s q i with
        | (some s', _) => s'
        | (none, s') => modQp s' h.qpn (fun q => { q with rxq := q.rxq ++ [i] })
def execIncomingRdmaWrite (h : RxHead) (rkey : W32) (addr : Nat) (data : List Byte) (s : State) : Host.Outcome State Fault Refusal :=
  .next (progress (rxArrive s h (.write rkey addr data)))
def execIncomingRdmaRead (h : RxHead) (rkey : W32) (addr len : Nat) (s : State) : Host.Outcome State Fault Refusal :=
  .next (progress (rxArrive s h (.read rkey addr len)))
def execIncomingSend (h : RxHead) (data : List Byte) (s : State) : Host.Outcome State Fault Refusal :=
  .next (progress (rxArrive s h (.send data)))
def execIncomingAtomic (h : RxHead) (rkey : W32) (addr : Nat) (cas : Bool) (a b : W64) (s : State) : Host.Outcome State Fault Refusal :=
  .next (progress (rxArrive s h (.atomic rkey addr cas a b)))
def execIncomingFlush (h : RxHead) (rkey : W32) (addr len : Nat) (s : State) : Host.Outcome State Fault Refusal :=
  .next (progress (rxArrive s h (.flush rkey addr len)))
/-- The first held incoming request of a queue pair, and its incoming requests whose parts have come. -/
def rxRetry (s : State) (q : Qp) : Option State :=
  if !(q.st = .rtr || q.st = .rts) then none
  else match s.net.inops.find? (fun o => o.qpn = q.qpn) with
  | some o =>
    let ps := settleBuf s (.inop o.n) o.pieces
    if bufDone ps then
      let s := ioDrop { s with net := { s.net with inops := s.net.inops.filter (fun x => x.n ≠ o.n) } } (.inop o.n)
      some (inReply s q o.kind o.len ps)
    else none
  | none => match q.rxq with
    | [] => none
    | i :: r => match rxOne s q i with
      | (some s', _) => some (modQp s' q.qpn (fun q => { q with rxq := r }))
      | (none, _) => none

/-! ## Requests (R89 to R92, R98, R100). -/

def isReadOp (op : Nat) : Bool := op = 2 || op = 4 || op = 5
/-- Requests of a queue pair that have left and read or change remote memory. -/
def readsOut (q : Qp) : Nat := ((q.sq.take q.sent).filter (fun w => isReadOp w.op)).length
/-- The next entry may start: committed in a time-shared partition (R90), fenced reads complete, fewer than 16 reads out. -/
def mayStart (s : State) (q : Qp) (w : NetWq) : Bool :=
  (match ckOf s (partOfKey q.ctx) with
    | some ck => !timeShared s (partOfKey q.ctx) || w.tick < commTickOf ck q.fn
    | none => true)
  && !(w.fence && readsOut q ≠ 0) && !(isReadOp w.op && 16 ≤ readsOut q)
def reqWire (q : Qp) (w : NetWq) (data : List Byte) : Wire := ⟨q.qpn, w.op, 0, w.raddr, w.rkey, w.len, data, w.opa, w.opb⟩
/-- The packets of a request before the one that would carry a poisoned line (R98). -/
def sendClean (s : State) (q : Qp) (w : NetWq) (ps : List Piece) : State :=
  let n := (cleanBytes ps).length / q.mtu * q.mtu
  if n = 0 then s else wireAll s q (reqWire q w ((cleanBytes ps).take n))
/-- A request leaves by the port. -/
def sendReq (s : State) (q : Qp) (w : NetWq) (data : List Byte) : State :=
  let q := { q with sent := q.sent + 1, sentAt := if q.sent = 0 then s.fab.podNs else q.sentAt, fetch := [] }
  wireAll (setQp s q) q (reqWire q w data)
/-- Start the next entry: read its source, stop on poison (R98), send it; none where nothing can be done. -/
def netNext (s : State) (q : Qp) : Option State :=
  if q.st ≠ .rts || q.rnrWait.isSome then none
  else match q.sq[q.sent]?, ctxByKey s q.ctx with
    | some w, some cx =>
      if !mayStart s q w then none
      else if w.op = 1 || w.op = 3 then
        let (s1, ps) := if q.fetch = [] then gatherBuf s (.qp q.qpn) 0 cx w.pins w.laddr.toNat w.len
                        else (s, settleBuf s (.qp q.qpn) q.fetch)
        if !bufDone ps then (if q.fetch = [] then some (setQp s1 { q with fetch := ps }) else none)
        else if ps.any Piece.bad then some (qpError (sendClean s1 q w ps) q (fun x => if x.opId = w.opId then 8 else 7))
        else some (sendReq (ioDrop s1 (.qp q.qpn)) q w (bufBytes ps))
      else some (sendReq s q w [])
    | _, _ => none
/-- The oldest request ends with its response data: successfully only where all of them are placed (R92); a write that failed counts as a
buffer that cannot be accessed (DESIGN CHOICE, log 13). -/
def backDone (s : State) (q : Qp) (w : NetWq) (ps : List Piece) : State :=
  let s := ioDrop s (.back q.qpn)
  if ps.any Piece.bad then netRetire s q w 0 1 else netRetire s q w w.len 0
/-- Place response data of the oldest request, and complete it when it is placed. -/
def placeResp (s : State) (q : Qp) (w : NetWq) (bs : List Byte) : State :=
  match ctxByKey s q.ctx with
  | none => s
  | some cx =>
    let (s, ps) := scatterBuf none s (.back q.qpn) 1 cx w.pins w.laddr.toNat bs
    if bufDone ps then backDone s q w ps else setQp s { q with back := ps }
/-- What a response of the peer does to the oldest request. -/
def respOne (s : State) (q : Qp) (r : NetResp) : State :=
  match q.sq.head? with
  | none => s
  | some w =>
    if q.sent = 0 then s
    else match r with
      | .ack => if isReadOp w.op then s else netRetire s q w w.len 0
      | .readData d => if w.op = 2 && d.length = w.len then placeResp s q w d else s
      | .atomicValue v => if w.op = 4 || w.op = 5 then placeResp s q w (leBytes 8 v.toNat) else s
      | .nak .remoteAccess => netRetire s q w 0 2
      | .nak .remoteInvalid => netRetire s q w 0 3
      | .nak .remoteOperation => netRetire s q w 0 4
      | .nak .rnr =>
        if q.rnr = 7 || q.rnrTries < q.rnr then
          setQp (ioDrop s (.qp q.qpn)) { q with rnrWait := some s.fab.podNs, rnrTries := q.rnrTries + 1, sent := 0, fetch := [] }
        else netRetire s q w 0 6
/-- The oldest response's bytes are all placed: its request completes, and the responses behind it are taken. -/
def netBack (s : State) (q : Qp) : Option State :=
  if q.back ≠ [] then
    let ps := settleBuf s (.back q.qpn) q.back
    if bufDone ps then
      match q.sq.head? with
      | some w => some (backDone s q w ps)
      | none => some (setQp s { q with back := [] })
    else none
  else match q.resps with
    | r :: rest => some (respOne (setQp s { q with resps := rest }) { q with resps := rest } r)
    | [] => none
/-- One turn of the engine at a queue pair: a placed response, a held incoming request, or the next posted entry. -/
def netTurn (s : State) (n : Nat) : Option State :=
  match qpAt s n with
  | none => none
  | some q => match netBack s q with
    | some s' => some s'
    | none => match rxRetry s q with
      | some s' => some s'
      | none => netNext s q
/-- NET_WORK_REQUEST (R92). -/
def execNetWorkRequest (qpn : Nat) (s : State) : Host.Outcome State Fault Refusal :=
  match netTurn s qpn with
  | some s' => .next (progress s')
  | none => .next (stall s (.net qpn))
/-- NET_RESPONSE (R92). -/
def execNetResponse (qpn : Nat) (r : NetResp) (s : State) : Host.Outcome State Fault Refusal :=
  match qpAt s qpn with
  | none => .next s
  | some q =>
    if q.st = .error || q.st = .reset then .next s
    else if q.back ≠ [] || q.resps ≠ [] then .next (progress (setQp s { q with resps := q.resps ++ [r] }))
    else .next (progress (respOne s q r))
/-- Local ACK timeout in ns (Table 4-1). -/
def ackNs (q : Qp) : Nat := 4096 * 2 ^ q.ackTimeout
/-- NET_ACK_TIMEOUT (R81, R100): the outstanding requests are sent again, or the oldest completes with RETRY_EXCEEDED. -/
def netAckTimeoutOp (s : State) (n : Nat) : State :=
  match qpAt s n with
  | none => s
  | some q => match q.sq.head? with
    | none => s
    | some w =>
      if q.sent = 0 || q.st ≠ .rts || q.back ≠ [] || s.fab.podNs < q.sentAt + ackNs q then s
      else if q.tries < q.retries then setQp (ioDrop s (.qp n)) { q with tries := q.tries + 1, sent := 0, fetch := [] }
      else netRetire s q w 0 5
def execNetAckTimeout (qpn : Nat) (s : State) : Host.Outcome State Fault Refusal := .next (progress (netAckTimeoutOp s qpn))
/-- RNR_RETRY_TIMEOUT (R81). -/
def execRnrRetryTimeout (qpn : Nat) (s : State) : Host.Outcome State Fault Refusal :=
  .next (progress (modQp s qpn (fun q => { q with rnrWait := none })))
/-- CNP_RECEIVED (R81): the rate is halved. -/
def execCnpReceived (qpn : Nat) (s : State) : Host.Outcome State Fault Refusal :=
  .next (modQp s qpn (fun q => { q with rate := q.rate / 2, since := s.fab.podNs }))
/-- RATE_RECOVERY (R81): an eighth of the lost rate comes back every 55 µs without a CNP. -/
def execRateRecovery (qpn : Nat) (s : State) : Host.Outcome State Fault Refusal :=
  .next (modQp s qpn (fun q => if s.fab.podNs < q.since + 55000 then q
    else { q with rate := q.rate + (65536 - q.rate) / 8, since := s.fab.podNs }))

/-! ## Revocation (R99) and reset (R101). -/

/-- An incoming request of a queue pair still uses a page of the range. -/
def inUses (s : State) (q : Range) (x : Qp) : Bool := s.net.inops.any (fun o => o.qpn = x.qpn && o.pins.any (pinHit_ q x.ctx))
/-- A posted or incoming request still uses a page of the range. -/
def netUses (s : State) (q : Range) : Bool :=
  s.net.qps.any (fun x => x.sq.any (fun w => w.pins.any (pinHit_ q x.ctx)))
  || s.net.qps.any (inUses s q)
/-- Regions that hold a page of the range answer no more requests. -/
def netInval (s : State) (q : Range) : State :=
  { s with net := { s.net with mrs := s.net.mrs.map (fun m => if m.pins.any (pinHit_ q m.ctx) then { m with revoked := true } else m) } }
/-- Requests still in progress on the range complete with LOCAL_REVOKED, and their queue pairs enter Error. -/
def netRevoke (s : State) (q : Range) : State :=
  s.net.qps.foldl (fun s x0 => match qpAt s x0.qpn with
    | some x =>
      if inUses s q x || x.sq.any (fun w => w.pins.any (pinHit_ q x.ctx)) then
        qpError s x (fun w => if w.pins.any (pinHit_ q x.ctx) then 10 else 7)
      else s
    | none => s) s
/-- A queue pair returned to Reset: posted requests are discarded without completions (R101). Its place in the receive queue is kept, and so
is the tail of its completion queue, as software's indices are (DESIGN CHOICE, log 77). -/
def qpReset (q : Qp) : Qp :=
  { q with st := .reset, sq := [], sent := 0, fetch := [], back := [], resps := [], rnrWait := none, rxq := [], tries := 0, rnrTries := 0 }

end Sys2Proof.Machine
end

