-- ==== Sys2Proof/Machine/Target.lean ====
section
/-! DEFINITION. The target side of the word plane: the checks of an arriving packet (02 R38, R53; 06 R129), the duplicate window
(R37, R41), far reads, writes and atomics at their home (16 R323, R326, R480), and PCIe completions of host reads (18 R347). -/

namespace Sys2Proof.Machine

/-! ## Arrival (R38, R53). -/

/-- The packet is more than 128 ticks old; a stamp ahead of this device's clock is no age. -/
def tooOld (s : State) (p : Packet) : Bool :=
  let d := (stampNow s - p.stamp).toNat
  128 < d && d < 32768
/-- A packet discarded and counted. -/
def countDisc (s : State) : State := { s with fab := { s.fab with wordDisc := s.fab.wordDisc + 1 } }
/-- Kinds of Table 2-3. -/
def kindOk (k : Nat) : Bool := [0x10, 0x11, 0x12, 0x13, 0x18, 0x19, 0x1A, 0x20, 0x21, 0x22].contains k
/-- The header means something: no reserved bit set, a kind and a target of Table 2-3. -/
def headerOk (p : Packet) : Bool := p.rsv = 0 && kindOk p.kind.toNat && p.tgt.toNat < 162
/-- The read entry of the device that a reply matches (R36). -/
def tagEntry (s : State) (p : Packet) : Option Entry :=
  s.fab.entries.find? (fun e => e.ref = .tag p.seq && e.pkt.tgt = p.src)
/-- The sequenced entry that an acknowledgement or a route error matches. -/
def seqEntry (s : State) (p : Packet) : Option Entry := s.fab.entries.find? (fun e => e.ref = .seq p.src.toNat p.part.toNat p.seq)
/-- The function that asked with a read tag, though a tenant reset may have released it (R80, R475). -/
def tagFn (s : State) (p : Packet) : Option Nat := match tagEntry s p with
  | some e => some e.fn
  | none => (s.fab.deadTags.find? (fun x => x.1 = p.seq && x.2.1 = p.src.toNat)).map (fun x => x.2.2)
/-- The tenant a packet is of, where it tells: by the context it names, or by the function of the entry it answers (R80). -/
def pktTenant (s : State) (p : Packet) : Option Nat :=
  let ctxFn (ctx : Nat) : Option Nat := (ctxByKey s (ckey p.part.toNat ctx)).map Ctx.fn
  match p.body with
  | .grantReq ctx _ _ => ctxFn ctx
  | .inval ctx _ _ _ => ctxFn ctx
  | .data _ => tagFn s p
  | .grantAns _ => tagFn s p
  | .resvReply _ => tagFn s p
  | .ack _ => (seqEntry s p).bind (fun (e : Entry) => if e.owner = Owner.reset then none else some e.fn)
  | _ => none
/-- The discards every arriving packet meets: no header of Table 2-3 (counted), too old, or of an older or newer generation. -/
def accept (s : State) (p : Packet) (body : State → State) : State :=
  if !headerOk p then countDisc s
  else if tooOld s p then s
  else match pktTenant s p with
    | some v => (match genCmp p.gen.toNat (fnGen s v).toNat with
      | .older => modFunc s v (fun f => { f with stale := sat32 f.stale })
      | .newer => s
      | .current => body s)
    | none => (match genOfPart s p.part.toNat p.gen.toNat with
      | .older => countStale s p.part.toNat
      | .newer => s
      | .current => body s)

/-! ## The duplicate window (R37, R41). -/

def tgtAt (s : State) (src part : Nat) : TgtStream :=
  (s.fab.tgts.find? (fun t => t.src = src && t.part = part)).getD ⟨src, part, false, 0, [], [], [], none⟩
def setTgt (s : State) (t : TgtStream) : State :=
  { s with fab := { s.fab with tgts := t :: s.fab.tgts.filter (fun y => !(y.src = t.src && y.part = t.part)) } }
/-- Shift the window over the performed numbers at its base. -/
def shiftWin : Nat → BitVec 24 → List (BitVec 24) → BitVec 24 × List (BitVec 24)
  | 0, b, ds => (b, ds)
  | n + 1, b, ds => if ds.contains b then shiftWin n (b + 1) (ds.filter (fun d => d ≠ b)) else (b, ds)
def slideWin (t : TgtStream) : TgtStream :=
  let (b, ds) := shiftWin (t.done.length + 1) t.base t.done
  { t with base := b, done := ds }
/-- The source has retired everything below LOW. -/
def retireLow (t : TgtStream) (low : BitVec 24) : TgtStream :=
  let t := { t with fetched := t.fetched.filter (fun x => seqGe x.1 low) }
  if seqGe t.base low then t
  else { t with base := low, done := t.done.filter (fun d => seqGe d low), held := t.held.filter (fun p => seqGe p.seq low) }
/-- The packet is performed: its bit is set and the window shifts. -/
def markDone (t : TgtStream) (q : BitVec 24) : TgtStream := slideWin { t with done := t.done ++ [q] }
def samePkt (p r : Packet) : Bool := p.src = r.src && p.part = r.part && p.seq = r.seq
/-- The packet has begun and is not performed yet: a host atomic, an invalidation, or one held for its order. -/
def begun (s : State) (p : Packet) : Bool :=
  s.host.reads.any (fun r => match r.act with
    | .reply x => p.kind = x.kind && samePkt p x
    | _ => false)
  || s.xl.invalIn.any (fun i => samePkt p i.pkt)
  || (tgtAt s p.src.toNat p.part.toNat).held.any (samePkt p)
/-- Performed: bit, fetched value kept, acknowledgement (R37). -/
def seqDone (s : State) (p : Packet) (v : Option (W64 × Bool)) : State :=
  let t := markDone (tgtAt s p.src.toNat p.part.toNat) p.seq
  let t := match v with
    | some (x, bad) => { t with fetched := t.fetched ++ [(p.seq, x, bad, s.fab.podNs)] }
    | none => t
  let s := setTgt s t
  emit s { mkPkt s p.part.toNat p.gen p.src.toNat 0x18 (.ack (v.map Prod.fst)) with
    seq := p.seq, psn := match v with
      | some x => x.2
      | none => false }
/-- A duplicate: acknowledged, with the stored value while it is kept. -/
def seqDup (s : State) (t : TgtStream) (p : Packet) : State :=
  let v := t.fetched.find? (fun x => x.1 = p.seq)
  emit s { mkPkt s p.part.toNat p.gen p.src.toNat 0x18 (.ack (v.map (fun x => x.2.1))) with
    seq := p.seq, psn := match v with
      | some x => x.2.2.1
      | none => false }
/-- A route error in answer to a packet: its payload says whether a read or a sequenced packet is answered, and its source is
the target that was named. -/
def routeErr (s : State) (p : Packet) (isSeq_ : Bool) : Packet :=
  { mkPkt s p.part.toNat p.gen p.src.toNat 0x1A (if isSeq_ then .ack none else .data []) with seq := p.seq, src := p.tgt }
/-- The procedure of R37 for a sequenced packet other than a stream reset; the shift that closes it is made for every packet. -/
def arriveSeq (s : State) (p : Packet) (perform : State → State) : State :=
  accept s p fun s =>
    let t := tgtAt s p.src.toNat p.part.toNat
    if !t.run then emit s (routeErr s p true)
    else
      let t := retireLow t p.low
      let s := setTgt s (slideWin t)
      if !seqGe p.seq t.base || t.done.contains p.seq then seqDup s t p
      else if 1024 ≤ (p.seq - t.base).toNat then countDisc s
      else if begun s p then s
      else perform s

/-! ## What a home performs. -/

/-- Reply to a read (R36). -/
def readReply (s : State) (p : Packet) (vals : List (List Byte × Bool)) : State :=
  emit s { mkPkt s p.part.toNat p.gen p.src.toNat 0x19 (.data vals) with seq := p.seq, psn := vals.any Prod.snd }
/-- First address and length of the span of accesses. -/
def spanOf (accs : List (Nat × Nat)) : Nat × Nat :=
  let lo := (accs.map Prod.fst).foldl min ((accs.map Prod.fst).headD 0)
  (lo, (accs.map (fun a => a.1 + a.2)).foldl max lo - lo)

/-- The host page an address of a packet lies in, by the home's own translations: its context and far address (R78; DEDUCED, log 69: a packet
names neither). -/
def hostPageOf (s : State) (p : Packet) (a : Nat) : Option (Ctx × Nat) :=
  let mine (x : Xlat) : Bool := x.die = agentDie && x.ctx / 65536 = p.part.toNat
    && ((x.loc = .host s.mod.poddev && x.pa + hostTag ≤ a && a < x.pa + hostTag + x.size)
      || (x.loc = .dev s.mod.poddev && x.pa ≤ a && a < x.pa + x.size))
  (s.xl.cache.find? mine).bind (fun x =>
    let va := x.va + ((if hostTag ≤ a then a - hostTag else a) - x.pa)
    (ctxByKey s x.ctx).bind (fun c => if hostHomed s c (va / 2 ^ 30) then some (c, alignDown va 4096) else none))
/-- The context a packet's access of host memory is made in (R347, R75; DEDUCED, log 63): the packet names its partition and generation only, so it
is the one whose page lies there by the home's own translations, else the first of a tenant of the partition with that generation. -/
def hostCtx (s : State) (p : Packet) (a : Nat) : Option Ctx :=
  match (hostPageOf s p a).filter (fun x => ctxGen s x.1 = p.gen) with
  | some x => some x.1
  | none => s.xl.ctxs.find? (fun c => c.part = p.part.toNat && ctxGen s c = p.gen)
def hostPasid (s : State) (p : Packet) (a : Nat) : Nat := ((hostCtx s p a).map Ctx.pasid).getD 0
def hostKey (s : State) (p : Packet) (a : Nat) : Nat := ((hostCtx s p a).map ctxKey).getD (p.part.toNat * 65536 + 65535)
/-- A packet's accesses to host pages are counted, once for each page (R78). -/
def countPkt (s : State) (p : Packet) (as : List Nat) : State :=
  ((as.filterMap (hostPageOf s p)).eraseDups).foldl (fun s x => hostCount s x.1 x.2) s
/-- A far read at its home: HBM at once, host memory through PCIe (R34, R347). -/
def homeRead (s : State) (p : Packet) (accs : List (Nat × Nat)) : State :=
  if accs.any (fun a => hostTag ≤ a.1) then
    if s.host.reads.any (fun r => match r.act with
        | .reply x => x.kind = p.kind && samePkt p x
        | _ => false) then s
    else
      let (lo, n) := spanOf accs
      let s := countPkt s p (accs.map Prod.fst)
      hostRead s (hostKey s p lo) (hostPasid s p lo) (lo - hostTag) n [] (.reply p) (0, 0)
  else readReply (countPkt s p (accs.map Prod.fst)) p (accs.map (fun a => hbmRead s a.1 a.2))
/-- A far write at its home, lanes in order; a store that covers a line whole cleans it, poisoned data poison it (R321, R326). -/
def homeWrite (s : State) (p : Packet) (accs : List (Nat × List Byte)) : State :=
  let s := countPkt s p (accs.map Prod.fst)
  let s := accs.foldl (fun s a =>
    if hostTag ≤ a.1 then hostPost s (hostPasid s p a.1) (a.1 - hostTag) a.2
    else hbmWriteFor (genTenant s p.part.toNat p.gen.toNat) s a.1 a.2) s
  let hb := (accs.filter (fun a => a.1 < hostTag)).map (fun a => (a.1, a.2.length))
  let s := cleanLines s false hb
  let s := if p.psn then ((hb.map (fun a => a.1 / 64)).eraseDups).foldl (fun s l => setPoison s false l true) s else s
  seqDone s p none
/-- The request an atomic packet carries (R480). -/
def pktReq (b : PktBody) : Option (Nat × Bool × AtomReq) :=
  match b with
  | .atomic bs => parseAtom false bs
  | .cas bs => parseAtom true bs
  | _ => none
/-- A far atomic at its home: performed at once in HBM, after the read in host memory (R480). -/
def homeAtom (s : State) (p : Packet) : State :=
  match pktReq p.body with
  | none => countDisc s
  | some (addr, _, q) =>
    let s := countPkt s p [addr]
    if hostTag ≤ addr then hostRead s (hostKey s p addr) (hostPasid s p addr) (addr - hostTag) (Ty.bytes (reqTy q)) [] (.reply p) (0, 0)
    else
      let (s, v, bad) := hbmAtomFor (genTenant s p.part.toNat p.gen.toNat) s addr q
      seqDone s p (some (BitVec.ofNat 64 v, bad))
/-- An ordered packet waits until every lower number of its stream is performed or below the base (R323). -/
def orderedWait (s : State) (p : Packet) : Bool :=
  match pktReq p.body with
  | some (_, true, _) => p.seq ≠ (tgtAt s p.src.toNat p.part.toNat).base
  | _ => false
def homeOrdered (s : State) (p : Packet) : State :=
  if orderedWait s p then
    let t := tgtAt s p.src.toNat p.part.toNat
    setTgt s { t with held := t.held ++ [p] }
  else homeAtom s p
/-- A held packet's turn has come, and the undo log has room for its write (R135). -/
def heldTurn (s : State) (part : Nat) (p : Packet) : Bool :=
  !orderedWait s p && !begun { s with fab := { s.fab with tgts := [] } } p && !undoFull s part
/-- ORDERED_PACKET_RELEASE (R323): the held packet whose turn has come is performed, or goes where its generation has passed (R349). -/
def orderedReleaseOp (s : State) (src part : Nat) : State :=
  let t := tgtAt s src part
  match t.held.find? (heldTurn s part) with
  | none => s
  | some p =>
    let s := setTgt s { t with held := t.held.filter (fun x => x.seq ≠ p.seq) }
    if genOfPart s part p.gen.toNat = .current then homeAtom s p else s
def execOrderedPacketRelease (src part : Nat) (s : State) : Host.Outcome State Fault Refusal := .next (progress (orderedReleaseOp s src part))
/-- FETCHED_VALUE_EXPIRY (R37): 368 ticks after the packet was performed. -/
def fetchedExpiryOp (s : State) (src part : Nat) (seq : BitVec 24) : State :=
  let t := tgtAt s src part
  setTgt s { t with fetched := t.fetched.filter (fun x => !(x.1 = seq && x.2.2.2 + 46000 ≤ s.fab.podNs)) }
def execFetchedValueExpiry (src part : Nat) (seq : BitVec 24) (s : State) : Host.Outcome State Fault Refusal :=
  .next (fetchedExpiryOp s src part seq)
/-- What has begun for a stream and is not performed never answers (R41). -/
def dropBegun (s : State) (src part : Nat) : State :=
  let mine (p : Packet) : Bool := p.src.toNat = src && p.part.toNat = part && p.kind ≠ 0x10
  { s with
    host := { s.host with reads := s.host.reads.filter (fun r => match r.act with
      | .reply p => !mine p
      | _ => true) }
    xl := { s.xl with invalIn := s.xl.invalIn.filter (fun i => !mine i.pkt) } }
/-- STREAM_RESET at its target (R41): acknowledged without effect, or performed as number 0. -/
def streamResetOp (s : State) (p : Packet) : State :=
  accept s p fun s =>
    let t := tgtAt s p.src.toNat p.part.toNat
    let again : Bool := t.run && (match t.lastReset with
      | some (low, at_) => low = p.low && s.fab.podNs ≤ at_ + 46000
      | none => false)
    let s := if again then s
      else setTgt (dropBegun s p.src.toNat p.part.toNat) ⟨p.src.toNat, p.part.toNat, true, 1, [], [], [], some (p.low, s.fab.podNs)⟩
    emit s { mkPkt s p.part.toNat p.gen p.src.toNat 0x18 (.ack none) with seq := p.seq }
def execStreamReset (p : Packet) (s : State) : Host.Outcome State Fault Refusal := .next (progress (streamResetOp s p))
/-- ATOMIC_PACKET (R480). -/
def execAtomicPacket (p : Packet) (s : State) : Host.Outcome State Fault Refusal :=
  .next (progress (arriveSeq s p (fun s => homeOrdered s p)))
/-- CAS_PACKET (R480). -/
def execCasPacket (p : Packet) (s : State) : Host.Outcome State Fault Refusal :=
  .next (progress (arriveSeq s p (fun s => homeAtom s p)))

/-! ## Host memory (R347). -/

/-- The values of accesses inside a span of bytes. -/
def spanVals (accs : List (Nat × Nat)) (data : List Byte) : List (List Byte × Bool) :=
  let lo := (spanOf accs).1
  accs.map (fun a => ((data.drop (a.1 - lo)).take a.2, false))
/-- The packet a host read answers is of its tenant's generation still (R349). -/
def replyLives (s : State) (r : HostRead) (p : Packet) : Bool := match ctxByKey s r.ctx with
  | some c => ctxGen s c = p.gen
  | none => genOfPart s p.part.toNat p.gen.toNat = .current
/-- A PCIe completion answers the waiting access (R347). -/
def hostDone (s : State) (r : HostRead) (data : List Byte) : State :=
  match r.act with
  | .load a id sx l _ => memReply s a id [(l, extend sx (leVal data))] 0 none
  | .atomic a id ls _ q =>
    let v := leVal (hostSeen r data)
    let (fs, e, fl) := reqRun q v
    memReply (hostPost s r.pasid r.addr (leBytes (Ty.bytes (reqTy q)) e)) a id (ls.zip fs) fl none
  | .reply p => if !replyLives s r p then s else match p.body with
    | .read accs => readReply s p (spanVals accs data)
    | b => match pktReq b with
      | some (_, _, q) =>
        let v := leVal (hostSeen r data)
        seqDone (hostPost s r.pasid r.addr (leBytes (Ty.bytes (reqTy q)) (reqRun q v).2.1)) p (some (BitVec.ofNat 64 v, false))
      | none => s
  | .io n => ioSet s n (.got data false)
  | .ioAtom n q =>
    ioSet (hostPost s r.pasid r.addr (leBytes (Ty.bytes (reqTy q)) (reqRun q (leVal (hostSeen r data))).2.1)) n (.got (hostSeen r data) false)
  | .migr n => match s.xl.migs.find? (fun m => m.n = n) with
    | some m =>
      let s := hbmPut s m.frame data
      { s with xl := { s.xl with migs := s.xl.migs.map (fun m => if m.n = n then { m with stage := 2 } else m) } }
    | none => s
/-- HOST_READ_COMPLETION (R347): data of another length than asked for are no completion of it. -/
def hostReadDoneOp (s : State) (id : Nat) (data : List Byte) : State :=
  match s.host.reads.find? (fun r => r.id = id && r.len = data.length && hostIssued s r) with
  | none => s
  | some r => hostDone { s with host := { s.host with reads := s.host.reads.filter (fun x => x.id ≠ id) } } r data
def execHostReadCompletion (id : Nat) (data : List Byte) (s : State) : Host.Outcome State Fault Refusal :=
  .next (progress (hostReadDoneOp s id data))

end Sys2Proof.Machine
end

