-- ==== Sys2Proof/Machine/XlEvents.lean ====
section
/-! DEFINITION. Events of translation: grants, invalidations, host translations and migration (03 R66 to R80; 04 R99). -/

namespace Sys2Proof.Machine

/-! ## Grant requests and responses (R66 to R68, R72, R73). -/

/-- GRANT_REQUEST (R66): answered, or held until it can be; a repeat of a held request changes nothing. -/
def grantRequestOp (s : State) (p : Packet) : State :=
  accept s p fun s =>
    if s.xl.grantIn.any (fun x => x.src = p.src && x.seq = p.seq) then s
    else match answerGrant s p with
      | (some s', _) => s'
      | (none, s') => { s' with xl := { s'.xl with grantIn := s'.xl.grantIn ++ [p] } }
def execGrantRequest (p : Packet) (s : State) : Host.Outcome State Fault Refusal := .next (progress (grantRequestOp s p))
def dropGrant (s : State) (n : Nat) : State := { s with xl := { s.xl with grants := s.xl.grants.filter (fun x => x.n ≠ n) } }
/-- The pending request ends in a fault for the lanes that wait: a permission refused, for those that asked for it. -/
def grantFault (s : State) (r : GrantReq) (code : Nat) : State :=
  addFaults (dropGrant s r.n) (failuresOf r.ctx r.va code r.asks (fun k => code ≠ 0x11 || k = r.acc))
/-- Send a pending request again (R66, R72). -/
def grantAgain (s : State) (r : GrantReq) : State :=
  match ctxByKey s r.ctx with
  | none => dropGrant s r.n
  | some c => sendGrant (setGrant s r) c r
/-- The partition owns a location. -/
def ownsLoc (s : State) (part : Nat) : Loc → Bool
  | .dev p => ownsDev s part p
  | .host p => ownsDev s part p
  | .jct j => ownsJct s part j
/-- An answer to a pending grant request. -/
def grantAnswer (s : State) (n : Nat) (a : GrantAns) : State :=
  match s.xl.grants.find? (fun r => r.n = n) with
  | none => s
  | some r =>
    if r.stale then grantAgain s { r with stale := false, bad := [] }
    else match a with
      | .grant v sz l pa rd w =>
        let x : Xlat := ⟨r.ctx, v, sz, l, pa, noGpa, rd, w, false, true, true, r.die⟩
        if allowed x r.acc then dropGrant (cacheAdd s x) n else grantFault (cacheAdd s x) r 0x11
      | .fault perm => grantFault s r (if perm then 0x11 else 0x10)
      | .forward l _ =>
        if 4 ≤ r.fwds then grantFault s r 0x10
        else if !ownsLoc s (r.ctx / 65536) l then grantFault s r 0x11
        else grantAgain s { r with home := l, fwds := r.fwds + 1, bad := [] }
/-- A route error in answer to a grant request (R66): sent again by its next port, until every owned port that leads to the home has drawn one. -/
def grantRouteErr (s : State) (n : Nat) : State :=
  match s.xl.grants.find? (fun r => r.n = n) with
  | none => s
  | some r =>
    let tgt := tgtOf r.home
    let bad := (r.port.toList ++ r.bad).eraseDups
    let ports := (List.range 18).filter (fun j => ownsJct s (r.ctx / 65536) j && (tgt < 144 || j = tgt - 144))
    if ports.all bad.contains then grantFault s r 0x11 else grantAgain s { r with bad }
/-- An abandoned grant request (R66): sent again while a live path remains, else FABRIC for the lanes that wait. -/
def grantAbandoned (s : State) (n : Nat) : State :=
  match s.xl.grants.find? (fun r => r.n = n) with
  | none => s
  | some r => if livePorts s (r.ctx / 65536) (tgtOf r.home) = [] then grantFault s r 0x30 else grantAgain s r
/-- GRANT_RESPONSE (R68). -/
def grantResponseOp (s : State) (p : Packet) : State :=
  accept s p fun s =>
    match tagEntry s p, p.body with
    | some e, .grantAns a => match e.owner with
      | .grant n => grantAnswer (dropEntry s e.ref) n a
      | _ => s
    | _, _ => s
def execGrantResponse (p : Packet) (s : State) : Host.Outcome State Fault Refusal := .next (progress (grantResponseOp s p))

/-! ## Taking pages back (R70 to R72). -/

def xlatIn (q : Range) (x : Xlat) : Bool := x.ctx = q.ctx && rangesMeet (if q.gpa then x.gpa else x.va) x.size q.base q.size
def wentIn (q : Range) (w : WalkEnt) : Bool :=
  w.ctx = q.ctx && w.two = q.gpa && rangesMeet (w.pre * 2 ^ lvShift w.lv) (2 ^ lvShift w.lv) q.base q.size
/-- Remove the translations of a range, the intermediate entries above them and the failures found there; grant requests under way become stale
(R71, R72). -/
def dropXlats (s : State) (q : Range) : State :=
  { s with xl := { s.xl with
      wents := s.xl.wents.filter (fun w => !wentIn q w)
      faults := s.xl.faults.filter (fun f => !(f.ctx = q.ctx && (q.gpa || rangesMeet (4096 * f.va) 4096 q.base q.size)))
      cache := s.xl.cache.filter (fun x => !(xlatIn q x && (!q.gpa || !x.grant)))
      grants := s.xl.grants.map (fun r => if !q.gpa && r.ctx = q.ctx && q.base ≤ r.va && r.va < q.base + q.size then { r with stale := true } else r) } }
/-- Steps 1 and 2 of R71 at this device, and the regions of R99. -/
def takeBackHere (s : State) (q : Range) (why : TakeBack) : State := netInval (invalClaims (dropXlats s q) q (reasonOf why)) q
/-- A write of the context that may use the range is not yet acknowledged or abandoned (step 3 of R71): its lanes' blocks tell,
and for an access of no lane any write of the context counts. -/
def writesUse (s : State) (q : Range) : Bool :=
  !q.gpa && (allEntries s).any (fun e => e.ctx = q.ctx && (match e.owner with
    | .store _ => e.vas.any (fun v => rangesMeet (8 * v) 8 q.base q.size)
    | .atomic _ _ _ _ _ => e.vas.any (fun v => rangesMeet (8 * v) 8 q.base q.size)
    | .io _ _ => e.pkt.kind ≠ 0x10
    | _ => false))
/-- A host atomic of the context has read and not yet written back. -/
def hostAtomsOut (s : State) (q : Range) : Bool :=
  !q.gpa && s.host.reads.any (fun r => actAtomic r.act && (ctxByKey s q.ctx).any (fun c => c.pasid = r.pasid))
/-- Nothing that used the range before it was taken back is still under way (step 3 of R71). -/
def pageQuiet (s : State) (q : Range) : Bool := !writesUse s q && !hostAtomsOut s q && !claimsUse s q && !netUses s q
/-- Send an invalidation to a holder: a sequenced write to its translation agent (R70). -/
def sendInval (s : State) (q : Range) (n : Nat) (why : TakeBack) (h : Nat × Nat × Nat) : State :=
  let part := q.ctx / 65536
  let gen := ((ctxByKey s q.ctx).map (ctxGen s)).getD (((runVf s part).map (fnGen s)).getD 0)
  let fn := ((ctxByKey s q.ctx).map Ctx.fn).getD ((runVf s part).getD 0)
  sendSeq s { ref := .tag 0, pkt := mkPkt s part gen h.1 0x11 (.inval (q.ctx % 65536) h.2.1 h.2.2 why), first := 0, last := 0, va := 0,
              vas := [], ctx := q.ctx, owner := .inval n, launch := 0, born := 0, fn }
/-- Every other device of a partition. -/
def otherDevs (s : State) (part : Nat) : List Nat :=
  match partOf s part with
  | some p => (List.range 144).filter (fun d => p.devs.getLsbD d && d ≠ s.mod.poddev)
  | none => []
/-- A home takes a range back (R70): its own steps, and an invalidation to every holder of every grant in it. -/
def invalBegin (s : State) (q : Range) (why : TakeBack) (what : InvalFor) : State :=
  let (n, s) := xlNext s
  let (ds, rest) := s.xl.dir.partition (fun d => d.ctx = q.ctx && rangesMeet (if q.gpa then d.gpa else d.va) d.size q.base q.size)
  let wait := ds.flatMap (fun d =>
    ((if d.wide then otherDevs s (q.ctx / 65536) else d.holders).filter (fun p => p ≠ s.mod.poddev)).map (fun p => (p, d.va, d.size)))
  let s := takeBackHere s q why
  let s := { s with xl := { s.xl with dir := rest, invals := s.xl.invals ++ [⟨n, q, why, wait, what, s.fab.podNs, false, false⟩] } }
  wait.foldl (fun s h => sendInval s q n why h) s
/-- A holder has acknowledged (R70). -/
def invalAcked (s : State) (n dev va : Nat) : State :=
  { s with xl := { s.xl with invals := s.xl.invals.map (fun i => if i.n = n then { i with wait := i.wait.filter (fun h => !(h.1 = dev && h.2.1 = va)) } else i) } }
/-- The invalidation packet has failed: the home continues resending (R72). -/
def invalAgain (s : State) (e : Entry) : State :=
  match e.owner, e.pkt.body with
  | .inval n, .inval _ va size why => match s.xl.invals.find? (fun i => i.n = n) with
    | some i => if i.wait.contains (e.pkt.tgt.toNat, va, size) then sendInval s i.q n why (e.pkt.tgt.toNat, va, size) else s
    | none => s
  | _, _ => s

/-! ### Migration (R79). -/

def hostPte (s : State) (c : Ctx) (va : Nat) : Nat := hbmNum s (hostEntryAt s c va) 8
def setHostPte (s : State) (c : Ctx) (va e : Nat) : State := hbmPut s (hostEntryAt s c va) (leBytes 8 e)
/-- The entry with WB and MIG as given, LOC replaced where a frame is. -/
def pteWith (e : Nat) (wb mig : Bool) (frame : Option Nat) : Nat :=
  let x := BitVec.ofNat 64 e
  let x := setBit (setBit x 2 wb) 1 mig
  (match frame with
    | some f => setFld x 47 12 (f / 4096)
    | none => x).toNat
/-- Step 2: the page is read from the host for the copy. -/
def migrCopy (s : State) (n : Nat) : State :=
  match s.xl.migs.find? (fun m => m.n = n) with
  | none => s
  | some m => match ctxByKey s m.ctx with
    | none => s
    | some c => match cacheHit s m.ctx agentDie m.va with
      | some x => hostRead { s with xl := { s.xl with migs := s.xl.migs.map (fun y => if y.n = n then { y with stage := 1 } else y) } }
                    m.ctx c.pasid (x.pa + (m.va - x.va)) 4096 [] (.migr n) (0, 0)
      | none => { (homeStart s c m.va .rd []).1 with xl := { (homeStart s c m.va .rd []).1.xl with
          migs := s.xl.migs.map (fun y => if y.n = n then { y with stage := 3 } else y) } }
/-- A migration that waits for its page's host address goes on once ATS has given it. -/
def migrKick (s : State) : State :=
  (s.xl.migs.filter (fun m => m.stage = 3 && (cacheHit s m.ctx agentDie m.va).isSome)).foldl (fun s m => migrCopy s m.n) s
def dropMigr (s : State) (n : Nat) : State :=
  { s with xl := { s.xl with migs := s.xl.migs.filter (fun m => m.n ≠ n) }
           host := { s.host with reads := s.host.reads.filter (fun r => r.act ≠ .migr n) } }
/-- Step 3: LOC, MIG and WB are written, and the command ends. -/
def migrSet (s : State) (m : Migr) : State :=
  match ctxByKey s m.ctx with
  | none => dropMigr s m.n
  | some c =>
    let s := setHostPte s c m.va (pteWith (hostPte s c m.va) false true (some m.frame))
    cmdEnd (dropXlats (dropMigr s m.n) ⟨m.ctx, m.va, 4096, false⟩) m.fn m.cookie 0 0 []
/-- MIGRATION_COPY_DONE (R79): what was lent of the host copy while it was copied is taken back before the page is at its new place. -/
def migrDoneOp (s : State) (n : Nat) : State :=
  match s.xl.migs.find? (fun m => m.n = n && m.stage = 2) with
  | none => s
  | some m => invalBegin { s with xl := { s.xl with migs := s.xl.migs.map (fun m => if m.n = n then { m with stage := 4 } else m) } }
      ⟨m.ctx, m.va, 4096, false⟩ .migrate (.migr n)
def execMigrationCopyDone (n : Nat) (s : State) : Host.Outcome State Fault Refusal := .next (progress (migrDoneOp s n))
/-- The copy is not made 20 µs after WB was set (R79). -/
def migrLate (s : State) (m : Migr) : Bool := m.since + 20000 ≤ s.fab.podNs && m.stage ≠ 2 && m.stage ≠ 4
/-- MIGRATION_TIMEOUT (R79): 20 µs after WB was set. -/
def migrTimeoutOp (s : State) (n : Nat) : State :=
  match s.xl.migs.find? (fun m => m.n = n && migrLate s m) with
  | none => s
  | some m =>
    let s := match ctxByKey s m.ctx with
      | some c => setHostPte s c m.va (pteWith (hostPte s c m.va) false false none)
      | none => s
    serveGrants (cmdEnd (dropMigr s n) m.fn m.cookie 9 0 [])
def execMigrationTimeout (n : Nat) (s : State) : Host.Outcome State Fault Refusal := .next (progress (migrTimeoutOp s n))

/-! ### The end of an invalidation. -/

/-- Distinct home-map directories of a partition's contexts. -/
def homemapsOf (s : State) (part : Nat) : List Nat := ((s.xl.ctxs.filter (fun c => c.part = part)).map Ctx.homemap).eraseDups
/-- Address of a granule's leaf entry in a directory, where its leaf table exists (R57). -/
def leafAt (s : State) (dir g : Nat) : Option Nat :=
  let d := hbmNum s (dir + 8 * (g / 8192)) 8
  if d % 2 = 0 then none else some (nfld d 51 12 * 4096 + 4 * (g % 8192))
/-- Contexts of a partition, one for each home map and host page table. -/
def hostTables (s : State) (part : Nat) : List Ctx :=
  (s.xl.ctxs.filter (fun c => c.part = part)).foldl (fun cs c => if cs.any (fun x => x.homemap = c.homemap && x.hostpt = c.hostpt) then cs else cs ++ [c]) []
/-- The forwards of a context's granule go: those that lie in it, and what others say of its pages (R74). -/
def dropFwds (s : State) (key gr : Nat) : State :=
  let q : Range := ⟨key, gr * 2 ^ 30, 2 ^ 30, false⟩
  let rest := s.xl.fwds.filter (fun f => !(f.q.ctx = key && !f.q.gpa && rangeIn f.q q))
  { s with xl := { s.xl with fwds := if rest.any (fun f => f.q.ctx = key) then ⟨q, .dev s.mod.poddev, 0⟩ :: rest else rest } }
/-- Write granule entries; every die's leaf cache is invalid, and forwards of the granules go (R59, R74). Entries of host page tables keep to
their pages (R77). -/
def writeHomes (s : State) (part : Nat) (es : List (Nat × W32)) : State :=
  let s0 := s
  let s := es.foldl (fun s e => (homemapsOf s part).foldl (fun s d => match leafAt s d e.1 with
    | some a => hbmPut s a (leBytes 4 e.2.toNat)
    | none => s) s) s
  let s := (hostTables s part).foldl (fun s c => hostKeep s0 s c) s
  let keys := (s.xl.ctxs.filter (fun c => c.part = part)).map ctxKey
  let s := keys.foldl (fun s k => es.foldl (fun s e => dropFwds s k e.1) s) s
  let hit (key va : Nat) : Bool := key / 65536 = part && es.any (fun e => e.1 = va / 2 ^ 30)
  { s with xl := { s.xl with leafs := s.xl.leafs.filter (fun x => !es.any (fun e => e.1 = x.2.2.1))
                             cache := s.xl.cache.filter (fun x => !hit x.ctx x.va) } }
/-- The invalidation is one of a command's. -/
def invalOf (fn : Nat) (cookie : W64) (i : Inval) : Bool := match i.what with
  | .cmd f c _ => f = fn && c = cookie
  | .home f c _ _ => f = fn && c = cookie
  | _ => false
/-- Nothing of a command's invalidations remains. -/
def lastOf (s : State) (fn : Nat) (cookie : W64) : Bool := !s.xl.invals.any (fun i => invalOf fn cookie i && !i.done)
def dropInvals (s : State) (p : Inval → Bool) : State := { s with xl := { s.xl with invals := s.xl.invals.filter (fun i => !p i) } }
/-- Every holder has acknowledged and the device's own steps are done: the page may be reused (R70). Granules of one HOMEMAP_SET bar new grants
until the entries of all of them are written (R59). -/
def invalEnd (s : State) (i : Inval) : State :=
  match i.what with
  | .home fn ck part es =>
    let s := { s with xl := { s.xl with invals := s.xl.invals.map (fun x => if x.n = i.n then { x with done := true } else x) } }
    if lastOf s fn ck then serveGrants (cmdEnd (writeHomes (dropInvals s (invalOf fn ck)) part es) fn ck 0 0 []) else s
  | w =>
    let s := dropInvals s (fun x => x.n = i.n)
    serveGrants (match w with
      | .cmd fn ck moved =>
        let rest := s.xl.fwds.filter (fun f => !(f.q.ctx = i.q.ctx && f.q.gpa = i.q.gpa && rangeIn f.q i.q))
        let s := match moved with
          | some (l, pa) => { s with xl := { s.xl with fwds := ⟨i.q, l, pa⟩ :: rest } }
          | none => s
        if lastOf s fn ck then cmdEnd s fn ck 0 0 [] else s
      | .ats tag => { s with host := { s.host with atsDone := s.host.atsDone ++ [tag] } }
      | .migr n => match s.xl.migs.find? (fun m => m.n = n && m.stage = 4) with
        | some m => migrSet s m
        | none => migrCopy s n
      | _ => s)
/-- INVALIDATION_ACK (R71): a holder acknowledges, or this home's own invalidation ends. -/
def invalAckOp (s : State) (n : Nat) : State :=
  match s.xl.invalIn.find? (fun i => i.n = n) with
  | some i =>
    if pageQuiet s i.q then seqDone { s with xl := { s.xl with invalIn := s.xl.invalIn.filter (fun x => x.n ≠ n) } } i.pkt none else s
  | none => match s.xl.invals.find? (fun i => i.n = n) with
    | some i => if i.wait = [] && !i.done && pageQuiet s i.q then invalEnd s i else s
    | none => s
def execInvalidationAck (n : Nat) (s : State) : Host.Outcome State Fault Refusal := .next (progress (invalAckOp s n))
/-- An invalidation at a holder (R71, R72): acknowledged at once where nothing uses the page. -/
def homeInval (s : State) (p : Packet) (ctx va size : Nat) (why : TakeBack) : State :=
  let (n, s) := xlNext s
  let q : Range := ⟨ckey p.part.toNat ctx, va, size, false⟩
  let s := takeBackHere s q why
  invalAckOp { s with xl := { s.xl with invalIn := s.xl.invalIn ++ [⟨n, p, q, s.fab.podNs⟩] } } n
/-- A sequenced write: stores, or an invalidation (R37, R70). -/
def writePacketOp (s : State) (p : Packet) : State :=
  arriveSeq s p fun s => match p.body with
    | .write accs => homeWrite s p accs
    | .inval ctx va size why => homeInval s p ctx va size why
    | _ => countDisc s
/-- INVALIDATION (R71). -/
def execInvalidation (p : Packet) (s : State) : Host.Outcome State Fault Refusal := .next (progress (writePacketOp s p))
/-- WRITE_PACKET (R37). -/
def execWritePacket (p : Packet) (s : State) : Host.Outcome State Fault Refusal := .next (progress (writePacketOp s p))
/-- READ_PACKET (R34): a far read, or a grant request of the same kind. -/
def readPacketOp (s : State) (p : Packet) : State :=
  match p.body with
  | .read accs => accept s p (fun s => homeRead s p accs)
  | .grantReq _ _ _ => grantRequestOp s p
  | _ => countDisc s
def execReadPacket (p : Packet) (s : State) : Host.Outcome State Fault Refusal := .next (progress (readPacketOp s p))
/-- Devices as bits 64 to 207 of a payload. -/
def payMask (ds : List Nat) : BitVec 256 := (maskOf 144 ds).zeroExtend 256 <<< 64
/-- STUCK_INVALIDATION (R72): 100 µs without every acknowledgement. -/
def stuckInvalOp (s : State) (n : Nat) : State :=
  match s.xl.invals.find? (fun i => i.n = n && i.wait ≠ [] && !i.stuck && i.since + 100000 ≤ s.fab.podNs) with
  | none => s
  | some i =>
    let s := { s with xl := { s.xl with invals := s.xl.invals.map (fun x => if x.n = n then { x with stuck := true } else x) } }
    postEvent s 0 0x06 (i.q.ctx % 65536) (payWords [i.q.base] + payMask (i.wait.map Prod.fst))
def execStuckInvalidation (n : Nat) (s : State) : Host.Outcome State Fault Refusal := .next (stuckInvalOp s n)
/-- LOCAL_REVOKE_TIMEOUT (R99): 100 µs after the page was taken back. -/
def localRevokeOp (s : State) (n : Nat) : State :=
  match (s.xl.invals.filter (fun i => i.n = n)).map (fun i => (i.q, i.since)) ++ (s.xl.invalIn.filter (fun i => i.n = n)).map (fun i => (i.q, i.since)) with
  | (q, t) :: _ => if t + 100000 ≤ s.fab.podNs then netRevoke s q else s
  | [] => s
def execLocalRevokeTimeout (n : Nat) (s : State) : Host.Outcome State Fault Refusal := .next (progress (localRevokeOp s n))
/-- The tenant's generation has moved on: every holder of its contexts counts as acknowledged (R72). -/
def invalsForget (s : State) (fn : Nat) : State :=
  { s with xl := { s.xl with invals := s.xl.invals.map (fun i =>
      if (ctxByKey s i.q.ctx).any (fun c => c.fn = fn) then { i with wait := [] } else i) } }

/-! ## PCIe address translation (R75, R76, R80). -/

def dropAts (s : State) (id : Nat) : State := { s with xl := { s.xl with ats := s.xl.ats.filter (fun a => a.id ≠ id) } }
/-- A response whose generation is no longer the function's is discarded and counted (R80). -/
def atsStale (s : State) (a : Ats) : Option State :=
  if fnGen s a.fn = a.gen then none else some (modFunc (dropAts s a.id) a.fn (fun f => { f with stale := sat32 f.stale }))
/-- Page requests a VF may have outstanding: 512 shared in proportion to owned clusters (Table 3-5). -/
def priShare (s : State) (fn : Nat) : Nat :=
  let all := (s.host.funcs.map (fun f => f.2.clusters.toNat)).foldl (· + ·) 0
  if all = 0 then 0 else 512 * ((func s fn).map (fun f => f.clusters.toNat)).getD 0 / all
/-- The page is write-blocked for a migration (R79). -/
def writeBlocked (s : State) (key va : Nat) : Bool := (ctxByKey s key).any (fun c => nfld (hostPte s c va) 2 2 = 1)
/-- ATS_TRANSLATION_COMPLETION (R75): cached, without W while the page is write-blocked, or a PRI page request where the VF may have one more. -/
def atsDoneOp (s : State) (id : Nat) (r : Option AtsAns) : State :=
  match s.xl.ats.find? (fun a => a.id = id && !a.pri) with
  | none => s
  | some a => match atsStale s a with
    | some s' => s'
    | none => match r with
      | some t =>
        let w := t.w && !writeBlocked s a.ctx a.va
        let x (die : Nat) : Xlat := ⟨a.ctx, a.va, 4096, .host s.mod.poddev, t.pa, noGpa, t.rd, w, false, true, false, die⟩
        let s1 := (List.range 5).foldl (fun s die => cacheAdd s (x die)) (dropAts s id)
        migrKick (serveGrants (addFaults s1 (failuresOf a.ctx a.va 0x11 a.asks (fun k => !allowed { x 0 with w := t.w } k))))
      | none =>
        if priShare s a.fn ≤ (s.xl.ats.filter (fun x => x.pri && x.fn = a.fn)).length then dropAts s id
        else { s with xl := { s.xl with ats := s.xl.ats.map (fun x => if x.id = id then { x with pri := true } else x) } }
def execAtsTranslationCompletion (id : Nat) (r : Option AtsAns) (s : State) : Host.Outcome State Fault Refusal :=
  .next (progress (atsDoneOp s id r))
/-- PRI_RESPONSE (R75): a failure is XLATE for every lane that waits for the page, whatever its access. -/
def priOp (s : State) (pgi : Nat) (ok : Bool) : State :=
  match s.xl.ats.find? (fun a => a.id = pgi && a.pri) with
  | none => s
  | some a => match atsStale s a with
    | some s' => s'
    | none =>
      let s := dropAts s pgi
      serveGrants (if ok then s else addFaults s (failuresOf a.ctx a.va 0x10 a.asks (fun _ => true)))
def execPriResponse (pgi : Nat) (ok : Bool) (s : State) : Host.Outcome State Fault Refusal := .next (progress (priOp s pgi ok))
/-- Invalidate Requests of the host not yet completed. -/
def atsInvals (s : State) : Nat := (s.xl.invals.filter (fun i => match i.what with
  | .ats _ => true
  | _ => false)).length
/-- ATS_INVALIDATE_REQUEST (R76): the queue holds 32, and the host has no more outstanding (Table 3-5). -/
def execAtsInvalidateRequest (tag part ctx : Nat) (va size : Nat) (s : State) : Host.Outcome State Fault Refusal :=
  .next (progress (if 32 ≤ atsInvals s then s else invalBegin s ⟨ckey part ctx, va, size, false⟩ .unmap (.ats tag)))

end Sys2Proof.Machine
end

