-- ==== Sys2Proof/Machine/Fabric.lean ====
section
/-! DEFINITION. The fabric: the source side of replies, retransmission and abandonment, junctions, links and pod time (02 R33 to
R52). -/

namespace Sys2Proof.Machine

/-! ## Replies at the source (R36, R40, R322, R325). -/

/-- A stream in which every entry has completed after a route error enters reset form (R41). A closing stream stands with no
running form and a next number that is not 0. -/
def closeCheck (s : State) (tgt part : Nat) : State :=
  let x := srcOf s tgt part
  if !x.run && x.next ≠ 0 && !s.fab.entries.any (fun e => isSeq e tgt part) then
    setSrc s { x with next := 0, since := s.fab.podNs, tried := none }
  else s
/-- An entry has left the tables: waiting packets may go. -/
def afterEntry (s : State) (e : Entry) : State := pump (closeCheck s e.pkt.tgt.toNat e.pkt.part.toNat)
/-- The fetched value of a far atomic comes back: the group's steps are repeated for its lanes (R480). -/
def atomicBack (s : State) (e : Entry) (a : AgentId) (id : Nat) (ls : List Nat) (q : AtomReq) (v : W64) (bad : Bool) : State :=
  if bad then memReply (farwDec s a e) a id (ls.map (fun l => (l, 0))) 0 (some (ls.headD 0, e.va))
  else
    let (fs, _, fl) := reqRun q v.toNat
    memReply (farwDec s a e) a id (ls.zip fs) fl none
/-- ACKNOWLEDGEMENT (R36): an acknowledgement of an atomic without a value completes nothing (R37). -/
def ackOp (s : State) (p : Packet) : State :=
  accept s p fun s =>
    match s.fab.entries.find? (fun e => e.ref = .seq p.src.toNat p.part.toNat p.seq), p.body with
    | some e, .ack v =>
      let s1 := dropEntry s e.ref
      match e.owner, v with
      | .store a, _ => afterEntry (farwDec s1 a e) e
      | .atomic a id ls _ q, some x => afterEntry (atomicBack s1 e a id ls q x p.psn) e
      | .atomic _ _ _ _ _, none => s
      | .io n _, some x => afterEntry (ioSet (ioEnd s1 e) n (.got (leBytes 8 x.toNat) p.psn)) e
      | .io n _, none => if e.pkt.kind = 0x11 then afterEntry (ioSet (ioEnd s1 e) n (.got [] false)) e else s
      | .inval n, _ => match e.pkt.body with
        | .inval _ va _ _ => afterEntry (invalAcked s1 n e.pkt.tgt.toNat va) e
        | _ => afterEntry s1 e
      | .reset, _ =>
        let x := srcOf s p.src.toNat p.part.toNat
        pump (setSrc s1 { x with run := true, next := 1, tried := none })
      | _, _ => afterEntry s1 e
    | _, _ => s
def execAcknowledgement (p : Packet) (s : State) : Host.Outcome State Fault Refusal := .next (progress (ackOp s p))
/-- The values of a read reach its lanes: 0 where the lane met poison (R320, R326). -/
def loadBack (s : State) (e : Entry) (a : AgentId) (id sx : Nat) (ls : List (Nat × Nat)) (vals : List (List Byte × Bool)) : State :=
  let accs := match e.pkt.body with
    | .read x => x
    | _ => []
  let pa0 := (accs.map Prod.fst).headD 0
  let val (l : Nat × Nat) : List Byte × Bool := vals.getD l.2 ([], false)
  let bad := ls.find? (fun l => (val l).2)
  memReply s a id (ls.map (fun l => (l.1, if (val l).2 then 0 else extend sx (leVal (val l).1)))) 0
    (bad.map (fun l => (l.1, BitVec.ofInt 64 (e.va.toNat + ((accs.getD l.2 (0, 0)).1 : Int) - pa0))))
/-- READ_RESPONSE (R36): dropped where no tag matches. -/
def readRespOp (s : State) (p : Packet) : State :=
  accept s p fun s =>
    match tagEntry s p, p.body with
    | some e, .data vals => match e.owner with
      | .load a id sx ls => loadBack (dropEntry s e.ref) e a id sx ls vals
      | .io n _ => ioSet (dropEntry s e.ref) n (.got ((vals.headD ([], false)).1) ((vals.headD ([], false)).2))
      | _ => s
    | some e, .grantAns a => match e.owner with
      | .grant n => grantAnswer (dropEntry s e.ref) n a
      | _ => s
    | _, _ => s
def execReadResponse (p : Packet) (s : State) : Host.Outcome State Fault Refusal := .next (progress (readRespOp s p))
/-- An entry ends with error status, whatever sent it (R39, R40, R66, R72, R112). -/
def endEntry (s : State) (e : Entry) : State :=
  match e.owner with
  | .io n _ => ioSet (ioEnd s e) n .failed
  | .inval _ => invalAgain s e
  | .resv c j => resvRetry s c j
  | _ => failEntry s e
/-- RESERVATION_REPLY (R31, R52), for the request whose tag it carries. -/
def execReservationReply (p : Packet) (s : State) : Host.Outcome State Fault Refusal :=
  .next (progress (accept s p fun s =>
    match tagEntry s p, p.body with
    | some e, .resvReply r => if e.owner = .resv r.claim r.j then haloSeat (resvReplyOp s r) r.claim else s
    | _, _ => s))
/-- ROUTE_ERROR (R40, R41, R66). A route error that answers the stream reset is one on its stream too: the end enters reset form anew, with
46 µs to wait (DEDUCED, log 21). -/
def routeErrorOp (s : State) (p : Packet) : State :=
  accept s p fun s =>
    match p.body with
    | .data _ => match tagEntry s p with
      | none => s
      | some e => match e.owner with
        | .grant n => grantRouteErr (dropEntry s e.ref) n
        | .resv c j => resvReplyOp (dropEntry s e.ref) ⟨c, j, false⟩
        | _ => endEntry (dropEntry s e.ref) e
    | _ => match s.fab.entries.find? (fun e => e.ref = .seq p.src.toNat p.part.toNat p.seq) with
      | none => s
      | some e =>
        let x := srcOf s p.src.toNat p.part.toNat
        let s := setSrc s { x with run := false, next := 1 }
        afterEntry (endEntry (dropEntry s e.ref) e) e
def execRouteError (p : Packet) (s : State) : Host.Outcome State Fault Refusal := .next (progress (routeErrorOp s p))

/-! ## Retransmission, abandonment and stream resets (R38, R39, R41). -/

def entryOf (s : State) (r : EntryRef) : Option Entry := s.fab.entries.find? (fun e => e.ref = r)
/-- The entry's stream is in reset form, in which nothing but the stream reset is sent (R41). -/
def streamDown (s : State) (e : Entry) : Bool :=
  let x := srcOf s e.pkt.tgt.toNat e.pkt.part.toNat
  isSeq e e.pkt.tgt.toNat e.pkt.part.toNat && e.owner ≠ .reset && !x.run && x.next = 0
/-- RETRANSMIT_TIMEOUT (R38): RTX set, a fresh STAMP and LOW; a stream reset keeps its LOW. -/
def retransmitOp (s : State) (r : EntryRef) : State :=
  match entryOf s r with
  | none => s
  | some e =>
    if s.fab.podNs < e.last + 2000 || e.first + 30000 < s.fab.podNs || streamDown s e then s
    else
      let t := e.pkt.tgt.toNat
      let k := e.pkt.part.toNat
      let low := match r with
        | .seq _ _ q => if e.owner = .reset then e.pkt.low else oldest s t k q
        | .tag _ => e.pkt.low
      let p := { e.pkt with rtx := true, stamp := stampNow s, low := low }
      let s := { s with fab := { s.fab with entries := s.fab.entries.map (fun x => if x.ref = r then { x with last := s.fab.podNs } else x) } }
      match e.owner with
      | .grant n => match s.xl.grants.find? (fun g => g.n = n) with
        | some g => grantPort (emitBut s g.bad p) g
        | none => emit s p
      | _ => emit s p
def execRetransmitTimeout (r : EntryRef) (s : State) : Host.Outcome State Fault Refusal := .next (progress (retransmitOp s r))
/-- PACKET_ABANDON (R39): 50 µs after the first transmission. -/
def abandonOp (s : State) (r : EntryRef) : State :=
  match entryOf s r with
  | none => s
  | some e =>
    if s.fab.podNs < e.first + 50000 then s
    else match e.owner with
      | .grant n => grantAbandoned (dropEntry s r) n
      | .reset => dropEntry s r
      | _ => match r with
        | .seq _ _ _ => afterEntry (endEntry (dropEntry s r) e) e
        | .tag _ => endEntry (dropEntry s r) e
def execPacketAbandon (r : EntryRef) (s : State) : Host.Outcome State Fault Refusal := .next (progress (abandonOp s r))
/-- The packets that wait for a stream. -/
def waiters (s : State) (tgt part : Nat) : List Entry := s.fab.waitQ.filter (fun e => e.pkt.tgt.toNat = tgt && e.pkt.part.toNat = part)
/-- A stream reset is due (R41): reset form for 46 µs, a packet waiting, none in flight. What was in flight when a PART_SET put the stream
into reset form stays until it is answered or abandoned, and no stream reset is sent before (DESIGN CHOICE, log 21). -/
def resetDue (s : State) (tgt part : Nat) : Bool :=
  let x := srcOf s tgt part
  !x.run && x.next = 0 && x.since + 46000 ≤ s.fab.podNs && waiters s tgt part ≠ [] && !s.fab.entries.any (fun e => isSeq e tgt part)
/-- STREAM_RESET_SEND (R41). -/
def streamResetSendOp (s : State) (tgt part : Nat) : State :=
  if resetDue s tgt part then
    let gen := ((waiters s tgt part).head?.map (fun e => e.pkt.gen)).getD 0
    let low := BitVec.ofNat 24 (podTick s)
    let p := { mkPkt s part gen tgt 0x22 .none with low := low }
    let e : Entry := { ref := .seq tgt part 0, pkt := p, first := s.fab.podNs, last := s.fab.podNs, va := 0, vas := [], ctx := 0,
                       owner := .reset, launch := 0, born := 0, fn := 0 }
    let x := srcOf s tgt part
    emit { (setSrc s { x with tried := some (x.tried.getD s.fab.podNs) }) with fab := {
      (setSrc s { x with tried := some (x.tried.getD s.fab.podNs) }).fab with entries := s.fab.entries ++ [e] } } p
  else s
def execStreamResetSend (tgt part : Nat) (s : State) : Host.Outcome State Fault Refusal := .next (progress (streamResetSendOp s tgt part))
/-- The packet has waited 50 µs behind stream resets that were not acknowledged, the first since the stream last ran counted (R41). -/
def waitedOut (s : State) (e : Entry) : Bool :=
  let x := srcOf s e.pkt.tgt.toNat e.pkt.part.toNat
  !x.run && x.next = 0 && x.tried.any (fun t => max e.first t + 50000 ≤ s.fab.podNs)
/-- STREAM_WAIT_TIMEOUT (R41). -/
def streamWaitOp (s : State) (tgt part : Nat) : State :=
  let out := (waiters s tgt part).filter (waitedOut s)
  let s := { s with fab := { s.fab with waitQ := s.fab.waitQ.filter (fun e => !(e.pkt.tgt.toNat = tgt && e.pkt.part.toNat = part && waitedOut s e)) } }
  out.foldl endEntry s
def execStreamWaitTimeout (tgt part : Nat) (s : State) : Host.Outcome State Fault Refusal := .next (progress (streamWaitOp s tgt part))

/-! ## Junctions (R28 to R31, R44, R52). -/

/-- A packet leaves the junction by an output port. -/
def jSend (s : State) (out : Nat) (p : Packet) : State := { s with fab := { s.fab with jOut := s.fab.jOut ++ [(out, p)] } }
/-- The answer to a reservation request, which carries the request's generation and tag. -/
def jReply (s : State) (j : Nat) (p : Packet) (r : ResvReq) (ok : Bool) : State :=
  jSend s r.src { mkPkt s r.part p.gen r.src 0x21 (.resvReply ⟨r.claim, j, ok⟩) with src := BitVec.ofNat 8 (144 + j), seq := p.seq }
/-- Map n input slots to output slots, each 1 to 64 flit times later, none of them a milepost slot or in use (R27, R30). The spec leaves
which to the junction: the first that fit (DESIGN CHOICE, log 20). -/
def mapSlots (usedIn usedOut : List Nat) : List Nat → Nat → List (Nat × Nat)
  | [], _ => []
  | _, 0 => []
  | x :: r, n + 1 =>
    if x % 16 = 15 || usedIn.contains x then mapSlots usedIn usedOut r (n + 1)
    else match ((List.range 64).map (fun k => (x + k + 1) % 1024)).find? (fun y => y % 16 ≠ 15 && !usedOut.contains y) with
      | none => mapSlots usedIn usedOut r (n + 1)
      | some y => (x, y) :: mapSlots usedIn (y :: usedOut) r n
/-- Slots for n flits of a frame from one link of the junction to the other: on one link alone where the path ends at the junction. -/
def seatSlots (s : State) (j : Nat) (src dst : Option Nat) (n : Nat) : List (Nat × Nat) :=
  let free (p : Nat) (toJ : Bool) : List Nat := (List.range 1024).filter (fun x => x % 16 ≠ 15 && !(jUsed s j p toJ).contains x)
  match src, dst with
  | some a, some b => mapSlots (jUsed s j a true) (jUsed s j b false) (List.range 1024) n
  | some a, none => ((free a true).take n).map (fun x => (x, x))
  | none, some b => ((free b false).take n).map (fun x => (x, x))
  | none, none => []
/-- RESERVATION_REQUEST (R30, R31, R52): a route the partition does not own is denied; a request granted before is answered again; slots that
are not free leave the request without an answer; else input slots are mapped to output slots. -/
def reservationOp (s : State) (j : Nat) (p : Packet) (r : ResvReq) : State :=
  if !jRouteOk s j r.part r.src r.dst then jReply s j p r false
  else if s.fab.jSlots.any (fun x => x.j = j && x.req = r) then jReply s j p r true
  else
    let port (x : Nat) : Option Nat := if x < 144 then some x else none
    let (a, b) := if r.out then (port r.src, port r.dst) else (port r.dst, port r.src)
    let data := seatSlots s j a b r.data
    let ctl := seatSlots s j b a r.ctl
    if jRoom s j r && data.length = r.data && ctl.length = r.ctl then
      jReply { s with fab := { s.fab with jSlots := s.fab.jSlots ++ [⟨j, r, data, ctl⟩] } } j p r true
    else s
/-- A word-plane packet a junction discards is counted at its input port. -/
def jCount (s : State) (j port : Nat) : State :=
  let n := ((s.fab.jPool.find? (fun x => x.1 = j && x.2.1 = port)).map (fun x => x.2.2)).getD 0
  { s with fab := { s.fab with jPool := (j, port, n + 1) :: s.fab.jPool.filter (fun x => !(x.1 = j && x.2.1 = port)) } }
/-- A reservation request whose generation is the partition's: one that has passed is discarded and counted, a newer one discarded (R53, R129;
of a partition that is not here the model knows no generation). -/
def reserve (s : State) (j : Nat) (p : Packet) (r : ResvReq) : State :=
  match genOfSender s p.part.toNat p.gen.toNat with
  | .current => reservationOp s j p r
  | .older => countStale s p.part.toNat
  | .newer => s
/-- RESERVATION_REQUEST (R34, R38): what has no such header is discarded and counted, an old copy discarded, as at every junction. -/
def execReservationRequest (j : Nat) (p : Packet) (s : State) : Host.Outcome State Fault Refusal :=
  .next (progress (match p.body with
    | .resvReq r =>
      if !headerOk p || p.kind ≠ 0x20 then jCount s j p.src.toNat else if tooOld s p then s else reserve s j p r
    | _ => jCount s j p.src.toNat))
/-- The packet carries a sequence number of its source's stream. -/
def isSeqKind (k : Nat) : Bool := k = 0x11 || k = 0x12 || k = 0x13 || k = 0x22
/-- Flits of a packet: the header's 16 bytes and the payload in flits of 64 (R34; the payload of a read, a write or an answer is given no
layout but takes one flit or two: DESIGN CHOICE, log 46). -/
def flitsOf (p : Packet) : Nat :=
  match p.body with
  | .atomic bs => (16 + bs.length + 63) / 64
  | .cas bs => (16 + bs.length + 63) / 64
  | .write accs => if (accs.map (fun a => a.2.length)).foldl (· + ·) 0 ≤ 32 then 1 else 2
  | .data vals => if (vals.map (fun a => a.1.length)).foldl (· + ·) 0 ≤ 32 then 1 else 2
  | _ => 1
/-- Word-plane flits in the pool of an input port: how many have gone on since the last arrival is open (a free value, log 46). -/
def jHeld (s : State) (j port : Nat) : Nat :=
  let n := ((s.fab.jFill.find? (fun x => x.1 = j && x.2.1 = port)).map (fun x => x.2.2)).getD 0
  n - (Config.free s.freeIx).toNat % (n + 1)
/-- The packet's flits enter the pool of 256, or find no room, and the packet is discarded and counted (Table 2-2). -/
def jPooled (s : State) (j port : Nat) (p : Packet) (next : State → State) : State :=
  let n := jHeld s j port + flitsOf p
  let s := { s with freeIx := s.freeIx + 1 }
  if 256 < n then jCount s j port
  else next { s with fab := { s.fab with jFill := (j, port, n) :: s.fab.jFill.filter (fun x => !(x.1 = j && x.2.1 = port)) } }
/-- JUNCTION_WORD_FLIT (R28, R34, R38, R52): the discards, the route check, and the way on. -/
def junctionWordOp (s : State) (j port : Nat) (p : Packet) : State :=
  if !headerOk p then jCount s j port
  else if tooOld s p then s
  else jPooled s j port p fun s =>
    if !jRouteOk s j p.part.toNat port p.tgt.toNat then
      match p.body with
      | .resvReq r => jReply s j p r false
      | _ => jSend s port (routeErr s p (isSeqKind p.kind.toNat))
    else match p.body with
      | .resvReq r => if p.tgt.toNat = 144 + j then reserve s j p r else jSend s p.tgt.toNat p
      | _ => jSend s p.tgt.toNat p
def execJunctionWordFlit (j port : Nat) (p : Packet) (s : State) : Host.Outcome State Fault Refusal :=
  .next (progress (junctionWordOp s j port p))
/-- JUNCTION_MILEPOST_COPY (R44): one copy to every port of DEST. -/
def execJunctionMilepostCopy (_j : Nat) (f : Flit) (s : State) : Host.Outcome State Fault Refusal :=
  .next (progress { s with fab := { s.fab with jMpOut := s.fab.jMpOut ++ (bitsOf f.dest 144).map (fun p => (p, f)) } })

/-! ## Links (R33, R49, R50). -/

/-- Functions that hear of a port: the VFs whose partition owns the fabric port, or has a share of the Ethernet ports. -/
def portOwners (s : State) : PortId → List Nat
  | .fab j => portFns s j
  | .eth _ => (s.part.parts.filter (fun p => p.ethw ≠ 0)).flatMap partVfs
/-- Number of a port in an event record: 0 to 17 fabric, 32 on Ethernet. -/
def portNum : PortId → Nat
  | .fab j => j
  | .eth e => 32 + e
/-- LINK_UP (R50). -/
def linkUpOp (s : State) (p : PortId) : State :=
  let fab := match p with
    | .fab j => { s.fab with fabUp := setBit s.fab.fabUp j true }
    | .eth e => { s.fab with ethUp := setBit s.fab.ethUp e true }
  postAll { s with fab := fab } (portOwners s p) 0x01 0xFFFF (payWords [portNum p])
def execLinkUp (p : PortId) (s : State) : Host.Outcome State Fault Refusal := .next (progress (linkUpOp s p))
/-- LINK_DOWN (R49, R50): the loss window, the claims of the link, the record. A milepost flit lost to a failed error correction alone, with
the link up, opens no loss window: no event tells the model of one (DESIGN CHOICE, log 76). -/
def linkDownOp (s : State) (p : PortId) : State :=
  let s := match p with
    | .fab j =>
      let t := podTick s
      let s := { s with fab := { s.fab with fabUp := setBit s.fab.fabUp j false, losses := s.fab.losses ++ [(j, t - 16, t)] } }
      linkLossClaims s (fun r => r.j = j)
    | .eth e => { s with fab := { s.fab with ethUp := setBit s.fab.ethUp e false } }
  postAll s (portOwners s p) 0x02 0xFFFF (payWords [portNum p])
def execLinkDown (p : PortId) (s : State) : Host.Outcome State Fault Refusal := .next (progress (linkDownOp s p))
/-- LINK_REPLAY (R33): counted in the port's error counters. -/
def execLinkReplay (p : PortId) (s : State) : Host.Outcome State Fault Refusal :=
  .next { s with fab := { s.fab with replays := ins s.fab.replays p ((lkp s.fab.replays p).getD 0 + 1) } }

/-! ## Pod time and the link map (R47, R48). -/

/-- Device links of a junction that are up, as the link map and this device's own link show them. -/
def jUp (s : State) (j : Nat) : Nat :=
  144 - ((if s.fab.fabUp.getLsbD j then [] else [s.mod.poddev]) ++ (lkp s.fab.linkDownMap j).getD []).eraseDups.length
/-- The junction R47 names as master; none when no junction has a device link up (R48). -/
def masterOf (s : State) : Option Nat :=
  match (List.range 18).find? (fun j => jUp s j = 144) with
  | some j => some j
  | none =>
    let j := (List.range 18).foldl (fun m j => if jUp s m < jUp s j then j else m) 0
    if jUp s j = 0 then none else some j
/-- The functions that hear of the time base: the PF and the owners of a fabric port. -/
def timeFns (s : State) : List Nat := 0 :: (s.part.parts.filter (fun p => p.fports ≠ 0)).flatMap partVfs
/-- TIME_BASE_FLIT (R47, R48): a copy behind the master goes forward to it, by at most 1 ns in each microsecond while it is not synchronised;
one ahead never moves backward, and loses its lead as time passes. -/
def timeBaseOp (s : State) (ns : Nat) : State :=
  let t := s.fab.podNs
  let t' := if t < ns then (if s.fab.synced then ns else t + min (ns - t) (t / 1000 - s.fab.lastTb / 1000)) else t
  { s with fab := { s.fab with podNs := t', lastTb := t', masterHeard := ns, lead := t' - ns } }
def execTimeBaseFlit (ns : Nat) (s : State) : Host.Outcome State Fault Refusal := .next (progress (timeBaseOp s ns))
/-- LINK_MAP_FLIT (R47): the map follows; claims whose path is newly lost are revoked with LINK (R50). -/
def linkMapOp (s : State) (j : Nat) (down : List Nat) : State :=
  let fresh_ := down.filter (fun p => !mapDown s j p)
  let s := { s with fab := { s.fab with linkDownMap := if down = [] then del s.fab.linkDownMap j else ins s.fab.linkDownMap j down } }
  linkLossClaims s (fun r => r.j = j && fresh_.contains r.tgt)
def execLinkMapFlit (j : Nat) (down : List Nat) (s : State) : Host.Outcome State Fault Refusal := .next (progress (linkMapOp s j down))
/-- TIME_MASTER_TAKEOVER (R47): the junction that the link states name, without a step in pod time. -/
def execTimeMasterTakeover (s : State) : Host.Outcome State Fault Refusal :=
  .next { s with fab := { s.fab with master := masterOf s } }
/-- No time-base flit for 1 ms. -/
def timeLostDue (s : State) : Bool := s.fab.synced && s.fab.lastTb + 1000000 ≤ s.fab.podNs
/-- TIME_BASE_LOST (R48). -/
def timeLostOp (s : State) : State :=
  if timeLostDue s then postAll { s with fab := { s.fab with synced := false } } (timeFns s) 0x0C 0xFFFF (payWords [1]) else s
def execTimeBaseLost (s : State) : Host.Outcome State Fault Refusal := .next (progress (timeLostOp s))
/-- The copy lies within 4 ns of the master's, which was heard within the last millisecond. -/
def timeBackDue (s : State) : Bool :=
  !s.fab.synced && s.fab.podNs < s.fab.lastTb + 1000000 && s.fab.lastTb ≤ s.fab.masterHeard + 4 && s.fab.masterHeard ≤ s.fab.lastTb + 4
/-- TIME_BASE_REGAINED (R48). -/
def timeBackOp (s : State) : State :=
  if timeBackDue s then postAll { s with fab := { s.fab with synced := true } } (timeFns s) 0x0C 0xFFFF (payWords [0]) else s
def execTimeBaseRegained (s : State) : Host.Outcome State Fault Refusal := .next (progress (timeBackOp s))

end Sys2Proof.Machine
end

