-- ==== Sys2Proof/Machine/Sync.lean ====
section
/-! DEFINITION. Fences, waypoints, sidings and waits (19). -/

namespace Sys2Proof.Machine

/-- The block a sync operation acts on: the warp's own, or block BLK of the stream's team; none where BLK is above BPT
(R358). -/
def syncBlock (s : State) (a : AgentId) (g : Agent) (blk : Nat) : Option (Nat × Block) :=
  if isStream a then s.blocks.find? (fun e => e.2.team = g.team && e.2.blockNo = blk)
  else (block s g.blk).map (fun k => (g.blk, k))
/-- Largest block number of the agent's team. -/
def bptOf (s : State) (g : Agent) : Nat := match s.sched.launches.find? (fun l => l.id = g.launch) with
  | some l => if g.task.isSome then 0 else l.bpt
  | none => 0
/-- Run on the named block, with the BLK check of R358; a block of the team that has exited has no state to act on. -/
def onBlock (f : FmtX) (body : State → AgentId → Agent → Nat → Block → Res) : State → AgentId → Agent → Res :=
  uniform f.c fun s a g =>
    let blk := wpBlk f.imm.toNat
    if isStream a && bptOf s g < blk then .trap s .bounds (BitVec.ofNat 64 blk)
    else match syncBlock s a g blk with
      | some (n, k) => body s a g n k
      | none => body s a g 0 { core := ⟨0, 0, 0⟩, launch := 0, team := 0, blockNo := 0, gteam := 0, ctx := 0, part := 0, shmem := 0, regs := 0, warps := 0, slots := [], nbr := 0, mem := [], poison := [], wps := [], sids := [], filters := [], halted := false, task := false }
/-- Store a block that still exists. -/
def putBlock (s : State) (n : Nat) (k : Block) : State := modBlock s n (fun _ => k)

/-- FENCE (R359): it acts whenever the warp executes it, whatever its guard (R335). -/
def fenceBody (f : FmtX) (s : State) (a : AgentId) (g : Agent) : Res :=
  let ord := nfld f.imm.toNat 15 14
  match g.fabErr with
  | some e => .trap s .fabric e
  | none =>
    if 2 ≤ ord && relWait s a g (nfld f.imm.toNat 13 11) then .wait s
    else if ord = 1 || ord = 3 then .next (setAgent s a { g with acqHold := memOut g })
    else .next s
def execFence (f : FmtX) : State → Host.Outcome State Fault Refusal := issue (.fence f) (fenceBody f)

/-! ## Waypoints (R362 to R365). -/

def wpUpdate (f : FmtX) (fn : AgentId → Agent → Wp → Wp) : State → AgentId → Agent → Res :=
  onBlock f fun s a g n k =>
    let i := wpNum f.imm.toNat
    .next (putBlock s n (setWp k i (fn a g (wpOf k i))))
def execWayreg (f : FmtX) : State → Host.Outcome State Fault Refusal :=
  issue (.wayreg f) (wpUpdate f fun a g w => wpCheck { w with sigs := setBit w.sigs (sigBit a g) true })
def execWayregNeed (f : FmtX) : State → Host.Outcome State Fault Refusal :=
  issue (.wayregNeed f) (wpUpdate f fun _ g w =>
    wpCheck { w with need := mset w.need (wpDir f.imm.toNat) ((sget g f.oa.toNat).extractLsb' 0 32) })
def execWaydrop (f : FmtX) : State → Host.Outcome State Fault Refusal :=
  issue (.waydrop f) (wpUpdate f fun a g w => wpDrop w (sigBit a g))
def execWaydropReset (f : FmtX) : State → Host.Outcome State Fault Refusal :=
  issue (.waydropReset f) (wpUpdate f fun _ _ w => { w with sigs := 0, arr := 0, need := [], got := [] })
/-- WAYARR on the issuer's own block (R363), after its release at team scope. -/
def execWayarr (f : FmtX) : State → Host.Outcome State Fault Refusal :=
  issue (.wayarr f) (onBlock f fun s a g n k =>
    let i := wpNum f.imm.toNat
    let w := wpOf k i
    let b := sigBit a g
    let reg := w.sigs.getLsbD b
    if (reg && w.arr.getLsbD b) || relWait s a g 2 then .wait s
    else
      let s := if reg then putBlock s n (setWp k i (wpCheck { w with arr := setBit w.arr b true })) else s
      .next (setAgent s a (sset g f.dst.toNat (w.phase.zeroExtend 64))))
/-- WAYARR toward a neighbour (R363): PERM where the direction is not marked or the neighbour has exited; it waits while
the neighbour is halted, and for its release at die scope where the cores lie in two clusters. -/
def execWayarrNeighbour (f : FmtX) : State → Host.Outcome State Fault Refusal :=
  issue (.wayarrNeighbour f) (uniform f.c fun s a g =>
    let d := wpDir f.imm.toNat
    let i := wpNum f.imm.toNat
    match block s g.blk with
    | none => .trap s .perm (BitVec.ofNat 64 d)
    | some k =>
      if !nbrMarked k d then .trap s .perm (BitVec.ofNat 64 d)
      else match nbrBlock s k d with
        | none => .trap s .perm (BitVec.ofNat 64 d)
        | some m => match block s m with
          | none => .trap s .perm (BitVec.ofNat 64 d)
          | some nk =>
            let same := k.core.x / 2 = nk.core.x / 2 && k.core.y / 2 = nk.core.y / 2
            if nk.halted || relWait s a g (if same then 2 else 3) then .wait s
            else .next (putBlock s m (setWp nk i (wpShare (wpOf nk i) (nbrOpp d) (fld (sget g f.oa.toNat) 31 0)))))
/-- WAYWAIT (R364): with `.cur` the phase captured at the first issue is kept while it waits. -/
def execWaywait (f : FmtX) : State → Host.Outcome State Fault Refusal :=
  issue (.waywait f) (onBlock f fun s a g _ k =>
    let w := wpOf k (wpNum f.imm.toNat)
    let p : W32 := if wpMode f.imm.toNat = 1 then g.wayCur.getD w.phase else (sget g f.oa.toNat).extractLsb' 0 32
    if wpDone w p then .next (setAgent s a { g with acqHold := g.acqHold || memOut g, wayCur := none })
    else .wait (setAgent s a { g with wayCur := if wpMode f.imm.toNat = 1 then some p else none }))
/-- WAYTEST (R364). -/
def execWaytest (f : FmtX) : State → Host.Outcome State Fault Refusal :=
  issue (.waytest f) (onBlock f fun s a g _ k =>
    let w := wpOf k (wpNum f.imm.toNat)
    if wpMode f.imm.toNat = 1 then .next (setAgent s a (sset g f.dst.toNat (w.phase.zeroExtend 64)))
    else
      let d := wpDone w ((sget g f.oa.toNat).extractLsb' 0 32)
      let g := sset g f.dst.toNat (if d then 1 else 0)
      .next (setAgent s a (if d then { g with acqHold := g.acqHold || memOut g } else g)))

/-! ## Sidings (R366 to R368). -/

def execYcfg (f : FmtX) : State → Host.Outcome State Fault Refusal :=
  issue (.ycfg f) (uniform f.c fun s _ g =>
    let v := sget g f.oa.toNat
    let dlog := fld v 27 24
    let base := fld v 17 0
    match block s g.blk with
    | none => .next s
    | some k =>
      if fld v 63 28 ≠ 0 || fld v 23 18 ≠ 0 || 10 < dlog then .trap s .illop (curWord g)
      else if base % 4 ≠ 0 then .trap s .align v
      else if k.shmem * 1024 < base + 4 * 2 ^ dlog then .trap s .bounds v
      else
        let y : Siding := if dlog = 0 then sidZero else ⟨base, dlog, 0, 0, [], []⟩
        .next (putBlock s g.blk (setSid k (nfld f.imm.toNat 3 0) y)))
/-- Others began to wait on the siding before the agent (R186). -/
def othersFirst (q : List AgentId) (a : AgentId) : Bool := match q with
  | [] => false
  | b :: _ => b ≠ a
def enq (q : List AgentId) (a : AgentId) : List AgentId := if q.contains a then q else q ++ [a]
/-- QPUSH (R367): with an allowance, and its turn, it waits for its release at block scope where it stands in the queue. -/
def execQpush (f : FmtX) : State → Host.Outcome State Fault Refusal :=
  issue (.qpush f) (onBlock f fun s a g n k =>
    let i := nfld f.imm.toNat 3 0
    let try_ := nfld f.imm.toNat 8 8 = 1
    let y := sidOf k i
    let d := 2 ^ y.dlog
    if y.dlog = 0 then .trap s .bounds (f.imm.zeroExtend 64)
    else if y.count = d && try_ then .next (setAgent s a (sset g f.dst.toNat 0))
    else if y.count = d || (!try_ && (othersFirst y.waitPush a || relWait s a g 1)) then
      .wait (putBlock s n (setSid k i { y with waitPush := enq y.waitPush a }))
    else if relWait s a g 1 then .wait s
    else
      let at_ := y.base + 4 * ((y.head + y.count) % d)
      let mem := writeBytes k.mem at_ (leBytes 4 (fld (sget g f.oa.toNat) 31 0))
      let y := { y with count := y.count + 1, waitPush := y.waitPush.filter (fun b => b ≠ a) }
      let s := putBlock (logBlock s n at_ 4) n (setSid { k with mem } i y)
      .next (setAgent s a (if try_ then sset g f.dst.toNat 1 else g)))
/-- QPOP (R367): a poisoned line of the ring is met as a load meets it (R326). -/
def execQpop (f : FmtX) : State → Host.Outcome State Fault Refusal :=
  issue (.qpop f) (onBlock f fun s a g n k =>
    let i := nfld f.imm.toNat 3 0
    let try_ := nfld f.imm.toNat 8 8 = 1
    let y := sidOf k i
    let d := 2 ^ y.dlog
    if y.dlog = 0 then .trap s .bounds (f.imm.zeroExtend 64)
    else if y.count = 0 && try_ then .next (setAgent s a (sset g f.dst.toNat 0))
    else if y.count = 0 || (!try_ && othersFirst y.waitPop a) then
      .wait (putBlock s n (setSid k i { y with waitPop := enq y.waitPop a }))
    else
      let at_ := y.base + 4 * y.head
      let bad := k.poison.contains (at_ / 64)
      let v := if bad then 0 else readNum k.mem at_ 4
      let y := { y with head := (y.head + 1) % d, count := y.count - 1, waitPop := y.waitPop.filter (fun b => b ≠ a) }
      let s := putBlock s n (setSid k i y)
      let g := sset g f.dst.toNat (BitVec.ofNat 64 (v + (if try_ then 2 ^ 32 else 0)))
      .next (setAgent s a { g with acqHold := g.acqHold || memOut g
                                   poison := if bad then some (g.poison.getD (BitVec.ofNat 64 at_)) else g.poison }))
/-- QLEN (R368, Table 19-10). -/
def execQlen (f : FmtX) : State → Host.Outcome State Fault Refusal :=
  issue (.qlen f) (onBlock f fun s a g _ k =>
    let y := sidOf k (nfld f.imm.toNat 3 0)
    let v := if y.dlog = 0 then 0 else 2 ^ 27 + (2 ^ y.dlog - y.count) * 2 ^ 16 + y.count
    .next (setAgent s a (sset g f.dst.toNat (BitVec.ofNat 64 v))))

/-! ## Counters and tags (R369 to R372). -/

/-- WAITC of a class and threshold, as a clause header makes it too (R229): a trap, a wait, or done. -/
inductive WaitC where
  | fabric (e : W64) | wait | done
  deriving DecidableEq, Repr
def waitCounter (g : Agent) (cls n : Nat) : WaitC :=
  match g.fabErr with
  | some e => .fabric e
  | none => if outcGet g cls ≤ n then .done else .wait
def execWaitc (f : FmtX) : State → Host.Outcome State Fault Refusal :=
  issue (.waitc f) (uniform f.c fun s _ g =>
    match waitCounter g (nfld f.imm.toNat 15 12) (nfld f.imm.toNat 9 0) with
    | .fabric e => .trap s .fabric e
    | .wait => .wait s
    | .done => .next s)
def execTwait (f : FmtX) : State → Host.Outcome State Fault Refusal :=
  issue (.twait f) (uniform f.c fun s a g =>
    let m := sget g f.oa.toNat
    let hit := g.tags &&& m
    if m = 0 || (if f.imm.toNat % 2 = 1 then hit = m else hit ≠ 0) then .next (setAgent s a (sset g f.dst.toNat hit))
    else .wait s)
def execTfind (f : FmtX) : State → Host.Outcome State Fault Refusal :=
  issue (.tfind f) (uniform f.c fun s a g =>
    match bitsOf (g.tags &&& sget g f.oa.toNat) 64 with
    | [] => .next (setAgent s a (sset g f.dst.toNat 64))
    | i :: _ =>
      let g := if f.imm.toNat % 2 = 1 then { g with tags := setBit g.tags i false } else g
      .next (setAgent s a (sset g f.dst.toNat (BitVec.ofNat 64 i))))
def execTclr (f : FmtX) : State → Host.Outcome State Fault Refusal :=
  issue (.tclr f) (uniform f.c fun s a g => .next (setAgent s a { g with tags := g.tags &&& ~~~ sget g f.oa.toNat }))

end Sys2Proof.Machine
end

