-- ==== Sys2Proof/Machine/Matrix.lean ====
section
/-! DEFINITION. Matrix operations, batches, the matrix engine's steps and the token ring (25). -/

namespace Sys2Proof.Machine

/-! ## Tiles (R420). -/

def tget (m : Mx) (t i j : Nat) : W32 := mget m.tiles (t * 16384 + i * 128 + j)
/-- The tile t replaced, element (i, j) from fn. -/
def tset (m : Mx) (t : Nat) (fn : Nat → Nat → W32) : Mx :=
  let lo := m.tiles.filter (fun e => e.1 < t * 16384)
  let hi := m.tiles.filter (fun e => (t + 1) * 16384 ≤ e.1)
  let mid := ((List.range 16384).map (fun n => (t * 16384 + n, fn (n / 128) (n % 128)))).filter (fun e => e.2 ≠ 0)
  { m with tiles := lo ++ mid ++ hi }

/-! ## Fragments (R422, Table 25-1). -/

/-- Registers of one fragment. -/
def fragRegs (t : Ty) : Nat := if t = .q4 then 52 else 64
/-- K elements of one step and of one K-group (R279). -/
def fragK (t : Ty) : Nat := if t = .q4 then 96 else if Ty.bits t = 8 then 64 else 32
def groupK (t : Ty) : Nat := fragK t / 4
/-- Byte o of the image that starts at a register: 128 bytes to a register, four to a lane. -/
def imgByte (g : Agent) (base o : Nat) : Nat := ((vget g (base + o / 128) ((o / 4) % 32)).toNat >>> (8 * (o % 4))) % 256
/-- Element (x, k) of a fragment as an exact value; xv is the extra value of the operand (R277). -/
def fragVal (t : Ty) (g : Agent) (base xv x k : Nat) : FVal :=
  if t = .q4 then
    let n := 4 * x + k / 24
    let i := k % 24
    let r := base + 3 * (n / 32) + (i / 2) / 4
    let byte := ((vget g r (n % 32)).toNat >>> (8 * ((i / 2) % 4))) % 256
    let code := if i % 2 = 0 then byte % 16 else byte / 16
    let sb := ((vget g (base + 48 + n / 128) ((n / 4) % 32)).toNat >>> (8 * (n % 4))) % 256
    q4val code sb xv
  else if Ty.bits t = 8 then
    let b := imgByte g base (64 * x + k)
    if t = .s8 then ofInt (sval 8 b) else fdec (specOf t) b
  else
    let o := 2 * (32 * x + k)
    fdec (specOf t) (imgByte g base o + 256 * imgByte g base (o + 1))

/-- The exact sum of a K-group (R279, R280): NaN operands make it NaN without NV, an exact zero is +0. -/
def groupSum (ps : List (FVal × FVal)) : FVal × FlagBits :=
  if ps.any (fun p => p.1 = .nan || p.2 = .nan) then (.nan, 0)
  else
    let (v, fl) := ps.foldl (fun (acc : FVal × FlagBits) p =>
      let (q, f1) := fmul p.1 p.2
      let (r, f2) := fadd .rn acc.1 q
      (r, acc.2 ||| f1 ||| f2)) (.fin false 0 0, 0)
    match v with
    | .fin _ 0 _ => (.fin false 0 0, fl)
    | x => (x, fl)
/-- One accumulator element through the K-groups of a step (R279): one rounding to FP32 a group. -/
def accumulate (c : W32) (groups : List (List (FVal × FVal))) : W32 × FlagBits :=
  groups.foldl (fun (acc : W32 × FlagBits) ps =>
    let (gs, f1) := groupSum ps
    let (v, f2) := fadd .rn (fdec spF32 acc.1.toNat) gs
    let (n, f3) := roundF spF32 .rn v 0
    (BitVec.ofNat 32 n, acc.2 ||| f1 ||| f2 ||| f3)) (c, 0)
/-- One step of an MMA over a tile: new elements row by row, and the flags (R427). -/
def mmaStep (t : Ty) (zero : Bool) (mx : Mx) (tile : Nat) (ga gb : Agent) (abase bbase xa xb : Nat) : (Nat → Nat → W32) × FlagBits :=
  let el (i j : Nat) : W32 × FlagBits :=
    let c := if zero then 0 else tget mx tile i j
    let gk := groupK t
    accumulate c ((List.range 4).map (fun q => (List.range gk).map (fun k =>
      (fragVal t ga abase xa i (q * gk + k), fragVal t gb bbase xb j (q * gk + k)))))
  (fun i j => (el i j).1,
   (List.range 16384).foldl (fun fl n => fl ||| (el (n / 128) (n % 128)).2) 0)

/-! ## Joining a batch (R421, R423, R424, R426). -/

/-- The feeder warp in a slot of a block of the stream's team (R421): one that has ended counts while its registers are kept. -/
def feeder (s : State) (g : Agent) (blk slot : Nat) : Option (AgentId × Agent) :=
  s.agents.find? (fun e => !isStream e.1 && e.2.team = g.team && e.2.blockNo = blk && slotOf e.1 = slot)
/-- Lowest register of a range outside an allocation or the file. -/
def rangeOut (g : Agent) (base n : Nat) : Option Nat :=
  if base + n ≤ min g.alloc 256 then none else some (max base (min g.alloc 256))
def batchOf (mx : Mx) (n : Nat) : Batch := (lkp mx.batches n).getD ⟨false, [], [], []⟩
/-- The feeders an operation names, with the first register and number of registers of each. -/
def feedersOf (op : Nat) (f : FmtC) : List (Nat × Nat × Nat) :=
  let rf := fragRegs f.ty * (f.nk.toNat + 1)
  let pan := if f.ty = .f32 then 128 else 64
  match op with
  | 0x240 => [(f.aslot.toNat, f.abase.toNat, rf), (f.bslot.toNat, f.bbase.toNat, rf)]
  | 0x241 => [(f.aslot.toNat, f.abase.toNat, rf), (f.bslot.toNat, f.bbase.toNat, rf)]
  | 0x243 => [(f.aslot.toNat, f.abase.toNat, pan)]
  | 0x244 => [(f.aslot.toNat, f.abase.toNat, pan)]
  | _ => []
/-- Add feeders the instance has not named before: MATX counts once per instance and warp (R424). -/
def addFeeders (s : State) (b : Batch) : List AgentId → State × Batch
  | [] => (s, b)
  | w :: r =>
    if b.feeders.contains w then addFeeders s b r
    else
      let (id, s) := fresh s
      let s := modAgent s w (fun g => outIssue g 2 id)
      addFeeders s { b with feeders := b.feeders ++ [w], opIds := b.opIds ++ [(w, id)] } r
/-- An operation joins the batch it names. -/
def joinBatch (op : Nat) (f : FmtC) : State → AgentId → Agent → Res :=
  uniform f.c fun s a g =>
    let fs := feedersOf op f
    let blk := f.sub.toNat
    let b := batchOf g.mx f.batch.toNat
    let go (ws : List AgentId) : Res :=
      if !b.closed && 32 ≤ b.ops.length then .trap s .bounds (BitVec.ofNat 64 (0x10000 + f.batch.toNat))
      else if b.closed then .wait s
      else if ws.any (fun w => match agent s w with
          | some h => outcGet h 2 ≥ 1023 && !b.feeders.contains w
          | none => false) then .wait s
      else
        let (s, b) := addFeeders s b ws
        .next (modAgent s a (fun g => { g with mx := { g.mx with
          batches := ins g.mx.batches f.batch.toNat { b with ops := b.ops ++ [⟨op, f, 0⟩] } } }))
    if fs = [] then go []
    else if bptOf s g < blk then .trap s .bounds (BitVec.ofNat 64 blk)
    else
      let hs := fs.map (fun x => (x, feeder s g blk x.1))
      match hs.find? (fun x => x.2 = none) with
      | some (x, _) => .trap s .bounds (BitVec.ofNat 64 x.1)
      | none =>
        let outs := hs.filterMap (fun x => x.2.bind (fun w => rangeOut w.2 x.1.2.1 x.1.2.2))
        match outs with
        | n :: _ => .trap s .bounds (BitVec.ofNat 64 n)
        | [] => go (hs.filterMap (fun x => x.2.map Prod.fst))
def execMma (f : FmtC) : State → Host.Outcome State Fault Refusal := issue (.mma f) (joinBatch 0x240 f)
def execMmat (f : FmtC) : State → Host.Outcome State Fault Refusal := issue (.mmat f) (joinBatch 0x241 f)
def execMzero (f : FmtC) : State → Host.Outcome State Fault Refusal := issue (.mzero f) (joinBatch 0x242 f)
def execMload (f : FmtC) : State → Host.Outcome State Fault Refusal := issue (.mload f) (joinBatch 0x243 f)
def execMdrain (f : FmtC) : State → Host.Outcome State Fault Refusal := issue (.mdrain f) (joinBatch 0x244 f)
def execMaddt (f : FmtC) : State → Host.Outcome State Fault Refusal := issue (.maddt f) (joinBatch 0x245 f)

/-- Close an OPEN instance; with no operations it is IDLE at once (R423, R430). -/
def closeBatch (mx : Mx) (n : Nat) : Mx :=
  match lkp mx.batches n with
  | none => mx
  | some b =>
    if b.closed then mx
    else if b.ops = [] then { mx with batches := del mx.batches n }
    else { mx with batches := ins mx.batches n { b with closed := true }, queue := mx.queue ++ [n] }
def execMfence (f : FmtC) : State → Host.Outcome State Fault Refusal :=
  issue (.mfence f) (uniform f.c fun s a g => .next (setAgent s a { g with mx := closeBatch g.mx f.batch.toNat }))
/-- MWAIT (R431). -/
def execMwait (f : FmtC) : State → Host.Outcome State Fault Refusal :=
  issue (.mwait f) (uniform f.c fun s a g =>
    let mx := closeBatch g.mx f.batch.toNat
    let s := setAgent s a { g with mx }
    if (lkp mx.batches f.batch.toNat).isSome then .wait s else .next s)

/-! ## The engine (R427 to R429, R432). -/

/-- One panel element's place: byte offset, register and lane (R429). -/
def panelReg (base o : Nat) : Nat × Nat := (base + o / 128, (o / 4) % 32)
/-- Write a panel to the feeder's registers (MDRAIN): lanes in order, flags gathered. -/
def drainPanel (t : Ty) (mx : Mx) (tile p base : Nat) (w : Agent) : Agent × FlagBits :=
  (List.range 4096).foldl (fun (acc : Agent × FlagBits) n =>
    let i := 32 * p + n / 128
    let j := n % 128
    let o := n * Ty.bytes t
    let (r, l) := panelReg base o
    let (v, fl) := roundF (specOf t) .rn (fdec spF32 (tget mx tile i j).toNat) 0
    if t = .f32 then (vset acc.1 r l (BitVec.ofNat 32 v), acc.2)
    else (vset acc.1 r l (BitVec.ofNat 32 (putElem16 (vget acc.1 r l).toNat ((o % 4) / 2) v)), acc.2 ||| fl)) (w, 0)
/-- An element of a panel as MLOAD reads it. -/
def loadPanel (t : Ty) (w : Agent) (base p i j : Nat) : W32 :=
  let o := (128 * (i - 32 * p) + j) * Ty.bytes t
  let (r, l) := panelReg base o
  if t = .f32 then vget w r l
  else BitVec.ofNat 32 (roundF spF32 .rn (fdec spBf16 (elem16 (vget w r l).toNat ((o % 4) / 2))) 0).1
/-- The feeder an operation reads or writes; an absent one reads as the stream's own registers, which are empty. -/
def opAgent (s : State) (g : Agent) (f : FmtC) (slot : Nat) : AgentId × Agent :=
  (feeder s g f.sub.toNat slot).getD (.stream g.die g.cluster, g)
/-- The registers as the engine reads them: results that have come are written first (R244, R355). -/
def opRegs (s : State) (g : Agent) (f : FmtC) (slot : Nat) : Agent := settle (opAgent s g f slot).2
/-- V registers a panel drain writes. -/
def drainRegs (f : FmtC) : List Nat := (List.range (if f.ty = .f32 then 128 else 64)).map (fun i => f.abase.toNat + i)
/-- The operation drains a panel whose registers have no room in the register log: the engine waits (R135). -/
def drainWaits (s : State) (g : Agent) : Bool := match g.mx.queue with
  | n :: _ => (batchOf g.mx n).ops.head?.any (fun o => o.op = 0x244 && !regRoom s [((opAgent s g o.f o.f.aslot.toNat).1, drainRegs o.f)])
  | [] => false
/-- One step of the operation at the head of the running instance: the new machine, and whether the operation is done. -/
def engineStep (s : State) (a : AgentId) (g : Agent) (o : MOp) : State × Bool :=
  let t := o.f.tile.toNat
  let put (mx : Mx) (fl : FlagBits) (s : State) : State := setAgent s a (addFlags { g with mx := mx } fl)
  match o.op with
  | 0x242 => (put (tset g.mx t (fun _ _ => 0)) 0 s, true)
  | 0x243 =>
    let w := opRegs s g o.f o.f.aslot.toNat
    let p := o.f.nk.toNat
    (put (tset g.mx t (fun i j => if i / 32 = p then loadPanel o.f.ty w o.f.abase.toNat p i j else tget g.mx t i j)) 0 s, true)
  | 0x244 =>
    let (wid, w) := opAgent s g o.f o.f.aslot.toNat
    let (w', fl) := drainPanel o.f.ty g.mx t o.f.nk.toNat o.f.abase.toNat w
    (put g.mx fl (if isStream wid then s else setAgent s wid (logRegs s w' (drainRegs o.f))), true)
  | 0x245 =>
    let src := o.f.abase.toNat
    let el (i j : Nat) : Nat × FlagBits := fElem 0x080 spF32 .rn (tget g.mx t i j).toNat (tget g.mx src i j).toNat 0 0
    (put (tset g.mx t (fun i j => BitVec.ofNat 32 (el i j).1))
      ((List.range 16384).foldl (fun fl n => fl ||| (el (n / 128) (n % 128)).2) 0) s, true)
  | _ =>
    let wa := opRegs s g o.f o.f.aslot.toNat
    let wb := opRegs s g o.f o.f.bslot.toNat
    let rf := fragRegs o.f.ty
    let (fn, fl) := mmaStep o.f.ty (o.op = 0x241 && o.step = 0) g.mx t wa wb
      (o.f.abase.toNat + o.step * rf) (o.f.bbase.toNat + o.step * rf)
      ((mget g.xv (fmtXA g.fmt)).toNat % 65536) ((mget g.xv (fmtXB g.fmt)).toNat % 65536)
    (put (tset g.mx t fn) fl s, o.step = o.f.nk.toNat)

/-- The next cluster of the ring (R433). -/
def ringNext (cs : List Nat) (c : Nat) : Nat := ((cs.find? (fun x => c < x)).getD (cs.headD c))
/-- The stream a cluster's engine runs batches of: an ended one whose closed batches are left, else the one its control core runs. A saved one keeps
its number, and its successor is numbered a multiple of 32 above it. -/
def streamAt (s : State) (die c : Nat) : AgentId :=
  let here := s.agents.filter (fun e => e.2.haltForm = .no && (match e.1 with
    | .stream d n => d = die && n % 32 = c
    | .warp _ _ => false))
  (((here.find? (fun e => e.2.ended)).or here.head?).map Prod.fst).getD (.stream die c)
/-- A closed instance is ready in the cluster's engine and none is running. -/
def instanceReady (s : State) (die c : Nat) : Bool := match agent s (streamAt s die c) with
  | some g => g.mx.queue ≠ [] && !g.mx.running && g.haltForm = .no
  | none => false
def holdsToken (s : State) (die c : Nat) : Bool := s.part.tokens.any (fun t => t.die = die && t.at_ = c && t.held)
/-- A count change is pending for the partition on the die (R434). -/
def changePending (s : State) (part die : Nat) : Bool := s.part.tokPend.any (fun t => t.1 = part && t.2.1 = die)
/-- Replace the first token that satisfies q. -/
def modToken (ts : List Token) (q : Token → Bool) (f : Token → Token) : List Token :=
  match ts with
  | [] => []
  | t :: r => if q t then f t :: r else t :: modToken r q f
/-- The engine's token is released and passes to the next cluster (R432, R433). -/
def passToken (s : State) (part die c : Nat) : State :=
  let nxt := ringNext (clustersOf s part die) c
  let q (t : Token) : Bool := t.part = part && t.die = die && t.at_ = c && t.held
  let ts := modToken s.part.tokens q (fun t => { t with at_ := nxt, held := false })
  { s with part := { s.part with tokens := ts } }
/-- A completed instance: the batch is IDLE, the feeders' MATX retires, the token passes, ended feeders go (R421, R423,
R424, R433). -/
def finishBatch (s : State) (a : AgentId) (g : Agent) (n : Nat) : State :=
  let b := batchOf g.mx n
  let s := setAgent s a { g with mx := { g.mx with batches := del g.mx.batches n, queue := g.mx.queue.drop 1, running := false } }
  let s := b.opIds.foldl (fun s w => modAgent s w.1 (fun h => outDone h 2 w.2)) s
  let s := reapEnded s
  passToken s g.part g.die g.cluster
/-- MATRIX_STEP_COMPLETE (R427): one step of the running instance of a cluster's engine. -/
def matrixStep (s : State) (die c : Nat) : State :=
  let a := streamAt s die c
  match agent s a with
  | none => s
  | some g =>
    if !g.mx.running || drainWaits s g then s
    else match g.mx.queue with
      | [] => s
      | n :: _ => match (batchOf g.mx n).ops with
        | [] => progress (finishBatch s a g n)
        | o :: r =>
          let (s, fin) := engineStep s a g o
          let s := modAgent s a (fun g =>
            let b := batchOf g.mx n
            let b := { b with ops := if fin then r else { o with step := o.step + 1 } :: r }
            { g with mx := { g.mx with batches := ins g.mx.batches n b } })
          match agent s a with
          | some g => progress (if fin && r = [] then finishBatch s a g n else s)
          | none => s
def execMatrixStepComplete (die cluster : Nat) (s : State) : Host.Outcome State Fault Refusal := .next (matrixStep s die cluster)

/-- BATCH_START (R433): a closed instance starts on a token its cluster holds. -/
def batchStartOp (s : State) (die c : Nat) : State :=
  match agent s (streamAt s die c) with
  | none => s
  | some g =>
    let q (t : Token) : Bool := t.part = g.part && t.die = die && t.at_ = c && !t.held
    if instanceReady s die c && !changePending s g.part die && s.part.tokens.any q then
      let ts := modToken s.part.tokens q (fun t => { t with held := true })
      let s := { s with part := { s.part with tokens := ts } }
      progress (setAgent s (streamAt s die c) { g with mx := { g.mx with running := true } })
    else s
def execBatchStart (die cluster : Nat) (s : State) : Host.Outcome State Fault Refusal := .next (batchStartOp s die cluster)
/-- A cluster keeps a token that arrives only to start a ready instance on it (R433). -/
def tokenUseful (s : State) (part die c : Nat) : Bool :=
  instanceReady s die c && !holdsToken s die c && !changePending s part die
/-- TOKEN_ARRIVAL (R433): a token no engine uses passes from the cluster before to this one. -/
def tokenArrivalOp (s : State) (part die c : Nat) : State :=
  let cs := clustersOf s part die
  let q (t : Token) : Bool := t.part = part && t.die = die && !t.held && ringNext cs t.at_ = c && !tokenUseful s part die t.at_
  if cs.contains c && s.part.tokens.any q then
    let ts := modToken s.part.tokens q (fun t => { t with at_ := c })
    progress { s with part := { s.part with tokens := ts } }
  else s
def execTokenArrival (part die cluster : Nat) (s : State) : Host.Outcome State Fault Refusal :=
  .next (tokenArrivalOp s part die cluster)

end Sys2Proof.Machine
end

