-- ==== Sys2Proof/Machine/Power.lean ====
section
/-! DEFINITION. The module: bring-up, presentation of the functions, service cores, scrub, heat and power loss (01 R13 to R23), and the
power tokens of a partition (25 R433, R434). -/

namespace Sys2Proof.Machine

/-! ## Power tokens (R433, R434). -/

/-- The count a partition has been given on a die: as TOKENS_SET named it, else its owned clusters. -/
def tokenCount (s : State) (p : Part) (die : Nat) : Nat :=
  if p.tokNamed then (lkp p.tok die).getD 0 else (clustersOf s p.part die).length
/-- The effective count, halved while a die is hot (R19). -/
def tokenEffective (s : State) (p : Part) (die : Nat) : Nat :=
  let c := tokenCount s p die
  if s.mod.halving && c ≠ 0 then max 1 (c / 2) else c
def tokKey (part die : Nat) (t : Nat × Nat × Nat) : Bool := t.1 = part && t.2.1 = die
/-- Ask for a count on a die: a changed one is pending until it takes effect; a placement afresh is asked for by again. -/
def askTokens (s : State) (part die c : Nat) (again : Bool) : State :=
  let now := ((s.part.tokEff.find? (tokKey part die)).map (fun t => t.2.2)).getD 0
  let rest := s.part.tokPend.filter (fun t => !tokKey part die t)
  { s with part := { s.part with tokPend := if now = c && !again then rest else rest ++ [(part, die, c)] } }
/-- Ask for the effective counts of a partition on every die. -/
def askAllTokens (s : State) (p : Part) (again : Bool) : State :=
  (List.range 4).foldl (fun s d => askTokens s p.part d (tokenEffective s p d) again) s
/-- Some engine of the partition on the die runs an instance. -/
def enginesRun (s : State) (part die : Nat) : Bool := s.agents.any (fun e => isStream e.1 && e.2.part = part && e.2.die = die && e.2.mx.running)
/-- Tokens of a ring as they are placed (R433). -/
def placeTokens (cs : List Nat) (part die t : Nat) : List Token :=
  if cs = [] then [] else (List.range t).map (fun k => ⟨part, die, cs.getD (k * cs.length / t) 0, false⟩)
/-- A TOKENS_SET whose counts are all in effect ends. -/
def tokenCmdEnd (s : State) (part : Nat) : State :=
  if s.part.tokPend.any (fun t => t.1 = part) then s
  else
    let done := s.part.tokCmd.filter (fun c => c.1 = part)
    let s := { s with part := { s.part with tokCmd := s.part.tokCmd.filter (fun c => c.1 ≠ part) } }
    done.foldl (fun s c => cmdEnd s c.2.1 c.2.2 0 0 []) s
/-- TOKEN_COUNT_EFFECT (R434). -/
def tokenEffectOp (s : State) (part die : Nat) : State :=
  match s.part.tokPend.find? (tokKey part die) with
  | none => s
  | some t =>
    if enginesRun s part die then s
    else
      let s := { s with part := { s.part with
        tokPend := s.part.tokPend.filter (fun x => !tokKey part die x)
        tokEff := (s.part.tokEff.filter (fun x => !tokKey part die x)) ++ [(part, die, t.2.2)]
        tokens := (s.part.tokens.filter (fun x => !(x.part = part && x.die = die))) ++ placeTokens (clustersOf s part die) part die t.2.2 } }
      tokenCmdEnd s part
def execTokenCountEffect (part die : Nat) (s : State) : Host.Outcome State Fault Refusal := .next (progress (tokenEffectOp s part die))

/-! ## Heat (R19). -/

def setHalving (s : State) (b : Bool) : State :=
  s.part.parts.foldl (fun s p => askAllTokens s p false) { s with mod := { s.mod with halving := b } }
/-- THERMAL_HIGH (R19): the counts are halved while any die is above 95 °C, and a record is posted to every function (Table 5-14).
DESIGN CHOICE (log 46): its payload is the die's number. -/
def execThermalHigh (die : Nat) (s : State) : Host.Outcome State Fault Refusal :=
  .next (progress (postAll (setHalving s true) (allFns s) 0x04 0xFFFF (payWords [die])))
/-- THERMAL_RESTORE (R19). -/
def execThermalRestore (s : State) : Host.Outcome State Fault Refusal := .next (progress (setHalving s false))
/-- The module without power (R23): only flash, its selection and the fuses keep what they held. -/
def powerOff (s : State) (p : Power) : State :=
  { State.reset with
    mod := { Mod.reset with power := p, flash := s.mod.flash, sel := s.mod.sel, rollback := s.mod.rollback }
    inbox := s.inbox, freeIx := s.freeIx, opSeq := s.opSeq }
/-- THERMAL_SHUTDOWN (R19): all work stops and the module removes its own power. -/
def execThermalShutdown (s : State) : Host.Outcome State Fault Refusal := .next (powerOff s .shutdown)
/-- MODULE_POWER_LOSS (R122, R23): the flash copy selected before stays selected. -/
def execModulePowerLoss (s : State) : Host.Outcome State Fault Refusal := .next (powerOff s .off)

/-! ## Patrol scrub and service cores (R13, R15). -/

/-- PATROL_SCRUB (R13): a correctable error is counted, an uncorrectable one marks the line. -/
def execPatrolScrub (line : Nat) (e : Ecc) (s : State) : Host.Outcome State Fault Refusal :=
  .next (match e with
    | .clean => s
    | .correctable => { s with mod := { s.mod with ceCount := s.mod.ceCount + 1 } }
    | .uncorrectable => setPoison s false line true)
/-- Stacks whose two service cores have failed. -/
def lostStacks (failed : BitVec 24) : BitVec 12 :=
  maskOf 12 ((List.range 12).filter (fun s => failed.getLsbD (2 * s) && failed.getLsbD (2 * s + 1)))
/-- The lowest-numbered command core that answers. -/
def leaderOf (failed : BitVec 24) : Option Nat := ((List.range 12).map (fun s => 2 * s + 1)).find? (fun c => !failed.getLsbD c)
/-- The service core that serves a function (R115): the leader the PF, command core SC(2s+1) with s = (v - 1) mod 12 VFv, and the memory core of that
stack when it has taken over (R15). DESIGN CHOICE (log 65): the leader, once both have failed. -/
def servedBy (m : Mod) (fn : Nat) : Option Nat :=
  let st := (fn - 1) % 12
  if fn = 0 then m.leader
  else if !m.scFailed.getLsbD (2 * st + 1) then some (2 * st + 1)
  else if !m.scFailed.getLsbD (2 * st) then some (2 * st)
  else m.leader
/-- A VF's view of what its partition owns on this device (Table 5-2); a change is signalled (R104). -/
def viewOf (s : State) (f : Func) (p : Option Part) : Func := match p with
  | some p =>
    { f with part := BitVec.ofNat 16 p.part, nwq := BitVec.ofNat 16 p.nwq, fports := p.fports, hbmu := BitVec.ofNat 16 p.hbmc.sum
             clusters := BitVec.ofNat 16 ((List.range 4).map (fun d => (clustersOf s p.part d).length)).sum }
  | none => { f with part := 0xFFFF, nwq := 0, fports := 0, hbmu := 0, clusters := 0 }
def syncFunc (s : State) (fn : Nat) : State := match func s fn with
  | some f =>
    let g := viewOf s f (s.part.parts.find? (fun p => (partVfs p).contains fn))
    if fn = 0 || g = f then s else cfgChange (setFunc s fn g) fn
  | none => s
def syncFuncs (s : State) : State := (allFns s).foldl syncFunc s
/-- Pages of claims and memory regions that lie in a stack. -/
def pinnedIn (s : State) (st : Nat) : List Range :=
  let here (p : Pin) : Bool := p.loc = .dev s.mod.poddev && p.pa / 0xC00000000 = st
  let of_ (ctx : Nat) (ps : List Pin) : List Range := (ps.filter here).map (fun p => ⟨ctx, p.va, p.size, false⟩)
  (s.eng.slots.flatMap (fun e => match e.2.claim with
    | some c => of_ c.ctx c.pins
    | none => [])) ++ s.net.mrs.flatMap (fun m => of_ m.ctx m.pins)
/-- A stack's memory is withdrawn from every partition: its units have no owner, no translation, no walk and no pin leads there (R15; DESIGN CHOICE of what
becomes of an access, log 65). -/
def withdrawStack (s : State) (st : Nat) : State :=
  let s := (pinnedIn s st).foldl (fun s q => netRevoke (netInval (invalClaims s q 1) q) q) s
  syncFuncs { s with
    xl := { s.xl with
      cache := s.xl.cache.filter (fun x => !(x.loc = .dev s.mod.poddev && x.pa / 0xC00000000 = st))
      wents := s.xl.wents.filter (fun w => !(w.fr < hbmEnd && w.fr / 0xC00000000 = st)) }
    mod := { s.mod with stackLost := setBit s.mod.stackLost st true }
    part := { s.part with
      units := s.part.units.filter (fun u => u.1 / 11 ≠ st)
      parts := s.part.parts.map (fun p => { p with hbmc := (List.range 12).map (fun i => if i = st then 0 else p.hbmc.getD i 0) }) } }
/-- SERVICE_CORE_TAKEOVER (R15): the other core of the stack takes over; when it has failed too, the stack is lost. DESIGN CHOICE (log 46): the
record's payload is the stack's number. DESIGN CHOICE (log 65): after the loss of the leader's stack the lowest-numbered command core that still
answers leads; and no record is posted where one core alone fails, though Table 5-14 names "stack or service-core loss": R15 reports the loss of
both. -/
def takeoverOp (s : State) (sc : Nat) : State :=
  let failed := setBit s.mod.scFailed sc true
  let st := sc / 2
  let other := if sc % 2 = 0 then sc + 1 else sc - 1
  let dead := failed.getLsbD other
  let leader := match s.mod.leader with
    | some l => if l = sc || failed.getLsbD l then (if dead then leaderOf failed else some other) else some l
    | none => none
  let s := { s with mod := { s.mod with scFailed := failed, leader := leader } }
  if dead then postAll (withdrawStack s st) (allFns s) 0x03 0xFFFF (payWords [st]) else s
def execServiceCoreTakeover (sc : Nat) (s : State) : Host.Outcome State Fault Refusal := .next (progress (takeoverOp s sc))

/-! ## Bring-up (R21, R22, R24). -/

/-- Bring-up failure cause, 0 when it succeeded: bit 0 the bundle, bit 1 a stack, bit 2 a compute die. -/
def failCause (b : BringUp) : W32 :=
  BitVec.ofNat 32 ((if b.bundleOk then 0 else 1) + (if b.stacksOk = 0xFFF then 0 else 2) + (if b.diesOk = 0xF then 0 else 4))
/-- Version of the flash copy selected. -/
def selVersion (s : State) : Nat := ((s.mod.flash.find? (fun f => f.1 = s.mod.sel)).map (fun f => f.2.1)).getD 0
/-- POWER_GOOD (R21): E1 to E7; memories and registers are clear, streams in reset form, the leader chosen, the bundle in force
and its version burnt into the fuses. -/
def powerGoodOp (s : State) (b : BringUp) : State :=
  if s.mod.power = .ready || s.mod.power = .presented then s
  else
    let failed := ~~~ b.scPass
    let s1 := powerOff s .ready
    { s1 with mod := { s1.mod with
        poddev := b.poddev, fwver := b.fwver, fault := failCause b, scFailed := failed, leader := leaderOf failed, stackLost := lostStacks failed
        inForce := s.mod.sel, rollback := if b.bundleOk then max s.mod.rollback (selVersion s) else s.mod.rollback } }
def execPowerGood (b : BringUp) (s : State) : Host.Outcome State Fault Refusal := .next (progress (powerGoodOp s b))
/-- A function as presented (Table 5-2). -/
def Func.fresh (failed : Bool) : Func :=
  { gen := 1, part := 0xFFFF, prev := 0xFFFF, nwq := 0, clusters := 0, hbmu := 0, stale := 0, evlost := 0, fports := 0, status := 0, needsReset := failed,
    resetSeen := false, features := 0, cfgGen := 0, config := [], reading := false, seq := 0, buffers := 0, held := [], lost := 0, vqs := [], isr := 0, bar0 := 4, msix := false }
/-- VIRTUAL_FUNCTION_PRESENTATION (R22): the PF and VF1 to VF32. -/
def presentOp (s : State) : State :=
  if s.mod.power = .ready then
    { s with mod := { s.mod with power := .presented }
             host := { s.host with funcs := (List.range 33).map (fun n => (n, Func.fresh (s.mod.fault ≠ 0))) } }
  else s
def execVirtualFunctionPresentation (s : State) : Host.Outcome State Fault Refusal := .next (progress (presentOp s))

end Sys2Proof.Machine
end

