-- ==== Sys2Proof/Machine/Tasks.lean ====
section
/-! DEFINITION. Tasks: SPAWN and JOIN (14 R295, R296), and the join counter of a record that exits (07 R157, R158). -/

namespace Sys2Proof.Machine

/-- WARPS + 1 warps of 32 + 16 REGS registers with SHMEM KiB fit an empty core (Table 7-6, check 4). -/
def fitsEmpty (warps regs shmem : Nat) : Bool :=
  warps + 1 ≤ 48 && (warps + 1) * (32 + 16 * regs) * 128 ≤ 524288 && shmem ≤ 256
/-- The shape word meets Table 14-6 and fits (R295). -/
def shapeOk (w : W64) : Bool :=
  fld w 63 18 = 0 && fld w 7 4 ≠ 15 && fitsEmpty (fld w 3 0) (fld w 7 4) (fld w 16 8)
  && (fld w 17 17 = 0 || (fld w 16 8 = 0 && fld w 3 0 = 0))
/-- Records of the queue of a partition, die and priority (R155). -/
def queueLen (s : State) (part die prio : Nat) : Nat :=
  (s.sched.conts.filter (fun c => c.part = part && c.die = die && c.prio = prio)).length
/-- The child record of one lane (R157, R295). -/
def childRec (s : State) (g : Agent) (f : FmtT) (id l : Nat) : Cont :=
  let w := sget g (f.oa.toNat + 1)
  { id, code := sget g f.oa.toNat, frame := if 2 ≤ f.sub.toNat then sget g f.ob.toNat else vget64 g f.ob.toNat l,
    join := sget g f.oc.toNat, ctx := g.ctx, gen := g.gen, part := g.part, fn := g.fn, launch := g.launch,
    kind := fld w 17 17 = 1, warps := fld w 3 0, regs := fld w 7 4, shmem := fld w 16 8, prio := g.prio,
    rank := g.rank, nrank := g.nrank, die := g.die, born := s.fab.podNs }
/-- Append the children as one group; each counts toward the launch (R157, R158). -/
def appendChildren (s : State) (g : Agent) (f : FmtT) (ls : List Nat) : State :=
  ls.foldl (fun s l =>
    let (n, s) := fresh s
    { s with sched := { s.sched with
        conts := s.sched.conts ++ [childRec s g f n l]
        launches := s.sched.launches.map (fun x => if x.id = g.launch then { x with liveRecs := x.liveRecs + 1 } else x) } }) s
/-- The one add to the join counter (R157), then the children. -/
def spawnAdd (s : State) (a : AgentId) (g : Agent) (f : FmtT) (cx : Ctx) (jp : Nat) (ls : List Nat) : Res :=
  if jp = 0 then .next (appendChildren s g f ls)
  else match agentIo a 0 cx jp .wr (.atom (.rmw 0 .z64 [ls.length])) true s with
    | (s, .val _ bad) =>
      let s := if bad then modAgent s a (fun g => { g with poison := some (g.poison.getD (BitVec.ofNat 64 jp)) }) else s
      .next (appendChildren (ioDrop s (.agent a)) g f ls)
    | (s, .wait) => .wait s
    | (s, .fault code) => .trap s (if code = 0x11 then .perm else if code = 0x30 then .fabric else .xlate) (BitVec.ofNat 64 jp)
    | (s, .failed) => .next (appendChildren (setFabErr (ioDrop s (.agent a)) a (BitVec.ofNat 64 jp)) g f ls)
/-- SPAWN (R295). -/
def spawnBody (f : FmtT) (s : State) (a : AgentId) (g : Agent) : Res :=
  let code := sget g f.oa.toNat
  let shape := sget g (f.oa.toNat + 1)
  let jp := (sget g f.oc.toNat).toNat
  let ls := if isStream a then (if uniformOk a g f.c then [0] else []) else lanes g f.c
  if !shapeOk shape then .trap s .bounds shape
  else if code.toNat % 8 ≠ 0 then .trap s .align code
  else if jp % 8 ≠ 0 then .trap s .align (BitVec.ofNat 64 jp)
  else match ctxOf s g.part g.ctx with
    | none => .trap s .xlate (BitVec.ofNat 64 jp)
    | some cx =>
      let (s, t) := if jp = 0 || (ioFind s (.agent a) 0).isSome then (s, Tr.ok ⟨0, 0, 0, .dev 0, 0, 0, true, true, true, true, false, 0⟩)
                    else translate s (.agent a) cx (cacheOf a) jp .wr
      match t with
      | .wait => .wait s
      | .fault code => .trap s (if code = 0x11 then .perm else if code = 0x30 then .fabric else .xlate) (BitVec.ofNat 64 jp)
      | .ok _ =>
        if relWait s a g 4 || (jp ≠ 0 && (ioFind s (.agent a) 0).isNone && overlaps s a g [jp / 8]) then .wait s
        else if ls = [] then .next s
        else if 65536 < queueLen s g.part g.die g.prio + ls.length then .wait s
        else spawnAdd s a g f cx jp ls
def execSpawn (f : FmtT) : State → Host.Outcome State Fault Refusal := issue (.spawn f) (spawnBody f)

/-- JOIN (R296): it waits until a read of the counter returns 0. The read is held like a load (R332, R340). -/
def joinBody (f : FmtT) (s : State) (a : AgentId) (g : Agent) : Res :=
  let v := sget g f.oa.toNat
  if v.toNat % 8 ≠ 0 then .trap s .align v
  else if (ioFind s (.agent a) 0).isNone && (acqWait g || overlaps s a g [v.toNat / 8]) then .wait s
  else match ctxOf s g.part g.ctx with
    | none => .trap s .xlate v
    | some cx => match agentIo a 0 cx v.toNat .rd (.read 8) g.joinAt.isNone s with
      | (s, .wait) => .wait s
      | (s, .fault code) => .trap s (if code = 0x11 then .perm else if code = 0x30 then .fabric else .xlate) v
      | (s, .failed) => .wait (setFabErr (modAgent s a (fun g => { g with joinAt := some s.fab.podNs })) a v)
      | (s, .val bs bad) =>
        if bad then .next (modAgent (ioDrop s (.agent a)) a (fun g => { g with joinAt := none, poison := some v }))
        else if leVal bs = 0 then .next (modAgent (ioDrop s (.agent a)) a (fun g => { g with joinAt := none, acqHold := memOut g }))
        else .wait (modAgent s a (fun g => { g with joinAt := some ((g.joinAt).getD s.fab.podNs) }))
def execJoin (f : FmtT) : State → Host.Outcome State Fault Refusal := issue (.join f) (uniform f.c (joinBody f))
/-- The read of a JOIN has come, and found no zero. -/
def joinRead (s : State) (a : AgentId) : Bool := (ioFind s (.agent a) 0).all (fun i => i.st ≠ .out)
/-- JOIN_POLL (R296): the counter of a waiting JOIN is read again. -/
def execJoinPoll (a : AgentId) (s : State) : Host.Outcome State Fault Refusal :=
  match agent s a with
  | some g =>
    if g.joinAt.isSome && joinRead s a then .next (progress (ioDrop (setAgent s a { g with joinAt := some s.fab.podNs }) (.agent a))) else .next s
  | none => .next s

/-! ## The join counter of an exited record (R158). -/

/-- The decrement cannot be made: a fault record, and the launch fails when it finishes. -/
def joinFault (s : State) (j : JoinDec) (cause : Nat) : State :=
  let r : FaultRec := { ctx := j.ctx % 65536, slot := j.slot, die := j.die, x := j.x, y := j.y, cause, inner := 0, tval := j.addr,
                        tpcx := 0, fn := j.fn }
  { s with sched := { s.sched with
      faults := s.sched.faults ++ [r]
      launches := s.sched.launches.map (fun l =>
        if l.id = j.launch && l.failed = none then { l with failed := some (0x80000000 + j.slot * 256 + cause) } else l) } }
/-- The agent of a birth runs still: here, or in the image of a tenant that does not run. One that a batch alone keeps has ended (R421). -/
def bornAlive (s : State) (born : Nat) : Bool :=
  let live (as : List (AgentId × Agent)) : Bool := as.any (fun e => e.2.born = born && !e.2.ended)
  live s.agents || s.ck.any (fun c => c.images.any (fun i => i.1 ≠ c.tenant && live i.2.agents))
/-- A load or atomic of an ended agent of the launch has not returned, or a far write of one has not been sent: the release of the decrement
waits for it (R158, Table 18-1). -/
def exitOut (s : State) (j : JoinDec) : Bool :=
  let mine (e : Entry) : Bool := e.launch = j.launch && (ownerAgent e.owner).isSome && !bornAlive s e.born
  let ofAgent (r : HostRead) : Bool := match r.act with
    | .load _ _ _ _ _ => true
    | .atomic _ _ _ _ _ => true
    | _ => false
  s.fab.entries.any (fun e => mine e && (match e.owner with
    | .store _ => false
    | _ => true))
  || (unsentEntries s).any mine || s.host.reads.any (fun r => ofAgent r && r.launch = j.launch && !bornAlive s r.born)
/-- Try the decrement of one exited record: none while it waits. -/
def joinTry (s : State) (j : JoinDec) : State × Bool :=
  if exitOut s j then (s, false) else
  let fin (s : State) : State := { ioDrop s (.join j.n) with
    sched := { (ioDrop s (.join j.n)).sched with joins := s.sched.joins.filter (fun x => x.n ≠ j.n) } }
  match ctxByKey s j.ctx with
  | none => (fin s, true)
  | some cx => match farIo (.join j.n) 0 cx j.addr.toNat .rw (.atom (.rmw 0 .z64 [2 ^ 64 - 1])) s with
    | (s, .val _ _) => (fin s, true)
    | (s, .wait) => (s, false)
    | (s, .fault code) => (fin (joinFault s j code), true)
    | (s, .failed) => (fin (joinFault s j 0x30), true)

end Sys2Proof.Machine
end

