-- ==== Sys2Proof/Machine/Sched.lean ====
section
/-! DEFINITION. Work queues, their packets, launches, dispatch, continuation queues and the graph walker (05 R109 to R112; 07 R140 to
R168; 09 R208, R209). -/

namespace Sys2Proof.Machine

/-! ## Rings (R109, R110, R140). -/

def ringAt (s : State) (fn q : Nat) : Option Ring := s.sched.rings.find? (fun r => r.fn = fn && r.q = q)
def setRing (s : State) (r : Ring) : State :=
  { s with sched := { s.sched with rings := s.sched.rings.map (fun x => if x.fn = r.fn && x.q = r.q then r else x) } }
def headReq (r : Ring) : Option WqReq := r.reqs[r.idx]?
/-- The header of the head packet and its body. -/
def headPkt (r : Ring) : Option (W64 × List W64) :=
  (headReq r).bind (fun x => match x.words.drop r.off with
    | h :: b => some (h, b.take (fld h 31 16 - 1))
    | [] => none)
/-- The tenant of a function runs: always in a dedicated partition; in its slices in a time-shared one, whose order lists each of its VFs
(R126). -/
def tenantRuns (s : State) (fn : Nat) : Bool := match (func s fn).bind (fun f => partOf s f.part.toNat) with
  | some p => if p.nten = 0 then partVfs p = [fn] else (partVfs p).all (fun v => p.order.contains v) && runVf s p.part = some fn
  | none => false
/-- The lengths of COUNT packets fill the words; a packet whose own length is wrong ends the walk. -/
def lensOk : Nat → List W64 → Bool
  | 0, ws => ws = []
  | _ + 1, [] => false
  | n + 1, h :: r => let k := fld h 31 16
    if k = 0 || 4096 < k || r.length + 1 < k then true else lensOk n (r.drop (k - 1))
/-- A request that is malformed as a whole (BADREQ). -/
def reqMalformed (x : WqReq) : Bool :=
  x.bad || x.hdr.code ≠ 0x0100 || x.hdr.count = 0 || 4096 < x.hdr.count.toNat || !lensOk x.hdr.count.toNat x.words
/-- The ring moves to its next request; a time-shared tenant's finished requests stay until a checkpoint commits (R138). -/
def ringNext_ (s : State) (r : Ring) : Ring :=
  let keep : Bool := match func s r.fn with
    | some f => timeShared s f.part.toNat
    | none => false
  { r with reqs := if keep then r.reqs else r.reqs.drop (r.idx + 1), idx := if keep then r.idx + 1 else 0,
           pkt := 0, off := 0, busy := false, since := s.fab.podNs, count := 0 }
/-- A request ends: its used element is written (R110). -/
def reqEnd (s : State) (r : Ring) (status done detail : Nat) : State :=
  match headReq r with
  | none => s
  | some x => postUsed (setRing s (ringNext_ s r)) ⟨r.fn, r.q + 2, x.hdr.cookie, status, done, detail, [], if x.bad then 0 else 16⟩
/-- The head packet has finished. -/
def pktEnd (s : State) (r : Ring) : State :=
  match headReq r, headPkt r with
  | some x, some (h, _) =>
    if x.hdr.count.toNat ≤ r.pkt + 1 then reqEnd s r 0 x.hdr.count.toNat 0
    else setRing s { r with pkt := r.pkt + 1, off := r.off + fld h 31 16, busy := false, since := s.fab.podNs, count := 0 }
  | _, _ => s
/-- The head packet is rejected: the packets after it are not performed. -/
def pktReject (s : State) (r : Ring) (status detail : Nat) : State := reqEnd (ioDrop s (.queue r.fn r.q)) r status r.pkt detail
/-- What is wrong with the head of a ring before any packet of a known type is performed. -/
def ringBad (s : State) (r : Ring) : Option State :=
  match headReq r with
  | none => none
  | some x =>
    if x.hdr.gen ≠ fnGen s r.fn then some (reqEnd (staleReq s r.fn x.hdr.gen) r 4 0 0)
    else if r.pkt = 0 && reqMalformed x then some (reqEnd s r 1 0 0)
    else match headPkt r with
      | none => some (reqEnd s r 1 r.pkt 0)
      | some (h, b) =>
        if fld h 15 8 ≠ 0 || fld h 31 16 = 0 || 4096 < fld h 31 16 || b.length + 1 ≠ fld h 31 16 || fld h 7 0 = 0 || 6 < fld h 7 0 then
          some (pktReject s r 2 0)
        else none
/-- A ring may act: a packet waits that is not in progress, its tenant runs, and bring-up succeeded (R22). -/
def ringReady (s : State) (r : Ring) : Bool :=
  !r.busy && (headReq r).isSome && tenantRuns s r.fn && s.mod.fault = 0 && s.mod.power = .presented

/-- How an attempt at a packet ends. -/
inductive PktR where
  | done | wait | bad (status detail : Nat) | go
  deriving DecidableEq, Repr
/-- Status of a fault in translating a packet's address. -/
def faultStatus (code : Nat) : Nat := if code = 0x11 then 8 else if code = 0x30 then 9 else 7
def ioStatus : IoRes → PktR
  | .fault code => .bad (faultStatus code) 0
  | .failed => .bad 9 0
  | _ => .wait
/-- Perform the head packet of a ring when it has the type; a ring that waits is not tried again before something has happened. -/
def withPkt (s : State) (fn q ty : Nat) (run : State → Ring → WqReq → W64 → List W64 → State × PktR) : State :=
  match ringAt s fn q with
  | none => s
  | some r =>
    if !ringReady s r then s
    else match ringBad s r with
      | some s' => progress s'
      | none => match headReq r, headPkt r with
        | some x, some (h, b) =>
          if fld h 7 0 ≠ ty then s
          else match run s r x h b with
            | (s, .done) => progress (pktEnd (ioDrop s (.queue fn q)) r)
            | (s, .wait) => stall s (.ring fn q)
            | (s, .bad st d) => progress (pktReject s r st d)
            | (s, .go) => progress (setRing (ioDrop s (.queue fn q)) { r with busy := true })
        | _, _ => s
/-- The context of a request's header, when it is one of the function's (R109). -/
def reqCtx (s : State) (fn : Nat) (x : WqReq) : Option Ctx := s.xl.ctxs.find? (fun c => c.fn = fn && c.ctxid = x.hdr.ctxid.toNat)

/-! ## SIGNAL, TIMER, LAYOUT (R112, R209). -/

/-- A SIGNAL's write for its owner. -/
def signalRun (who : IoWho) (cx : Ctx) (addr : W64) (n : Nat) (v : W64) (s : State) : State × PktR :=
  if addr.toNat % n ≠ 0 then (s, .bad 2 0)
  else match farIo who 0 cx addr.toNat .wr (.write (leBytes n v.toNat)) s with
    | (s, .val _ _) => (s, .done)
    | (s, r) => (s, ioStatus r)
def signalOp (s : State) (fn q : Nat) : State :=
  withPkt s fn q 5 fun s r x h b =>
    if fld h 31 16 ≠ 3 || fld h 63 33 ≠ 0 then (s, .bad 2 0)
    else match reqCtx s fn x with
      | none => (s, .bad 8 0)
      | some cx => signalRun (.queue r.fn r.q) cx (b.getD 0 0) (if bit h 32 then 8 else 4) (b.getD 1 0) s
def execSignalPacket (fn q : Nat) (s : State) : Host.Outcome State Fault Refusal := .next (signalOp s fn q)
def timerOp (s : State) (fn q : Nat) : State :=
  match ringAt s fn q with
  | none => s
  | some r =>
    if ringReady s r && (ringBad s r).isNone && (headPkt r).any (fun p => fld p.1 7 0 = 6 && fld p.1 31 16 = 1) && hasFeature s fn 13 then
      let p := ((headPkt r).map (fun p => fld p.1 63 32)).getD 0
      progress (pktEnd (setRing s { r with period := p }) { r with period := p })
    else withPkt s fn q 6 (fun s _ _ _ _ => (s, .bad 2 0))
def execTimerPacket (fn q : Nat) (s : State) : Host.Outcome State Fault Refusal := .next (timerOp s fn q)
/-- The record's checks (R209). -/
def layoutOk (r : BitVec 512) : Bool :=
  let q4 := fld r 95 88 = 0x10
  let es := if q4 then 12 else elemBytes (fld r 95 88)
  let rank := fld r 87 86
  let ext (i : Nat) : Nat := fld r (383 - 32 * i) (352 - 32 * i)
  let str (i : Nat) : Nat := fld r (295 - 40 * i) (256 - 40 * i)
  fld r 119 112 = 0 && fld r 99 96 = 0 && fld r 85 1 = 0 && fld r 135 120 = 0 && es ≠ 0 && fld r 103 100 ≤ 1
  && fld r 111 108 ≤ 7 && fld r 107 104 ≤ 7
  && (List.range 4).all (fun i => if i ≤ rank then ext i ≠ 0 else ext i = 0)
  && [1, 2, 3].all (fun i => str i % es = 0)
  && (if q4 then fld r 447 384 ≠ 0 else fld r 447 384 = 0)
/-- Words most significant first as one number. -/
def joinWords (ws : List W64) : Nat := ws.foldl (fun n w => n * 2 ^ 64 + w.toNat) 0
def layoutOp (s : State) (fn q : Nat) : State :=
  withPkt s fn q 4 fun s _ x h b =>
    if fld h 31 16 ≠ 9 || fld h 63 48 ≠ 0 || !hasFeature s fn 10 then (s, .bad 2 0)
    else match reqCtx s fn x with
      | none => (s, .bad 8 0)
      | some cx =>
        let r := BitVec.ofNat 512 (joinWords b)
        let hnd := fld h 47 32
        let put (v : BitVec 512) : State := { s with xl := { s.xl with ctxs := s.xl.ctxs.map (fun c =>
          if c.part = cx.part && c.ctxid = cx.ctxid then { c with layouts := mset c.layouts hnd v } else c) } }
        if !r.getLsbD 0 then (put 0, .done)
        else if layoutOk r then (put (setFld r 135 120 cx.ctxid), .done) else (s, .bad 2 0)
def execLayoutPacket (fn q : Nat) (s : State) : Host.Outcome State Fault Refusal := .next (layoutOp s fn q)

/-! ## FENCE (R142). -/

/-- The entry's comparison with the word read. -/
def fenceCmp (w : W64) (v : W64) (got : Nat) : Bool :=
  let n := if bit w 3 then 64 else 32
  let x := got % 2 ^ n
  let y := v.toNat % 2 ^ n
  match fld w 2 0 with
  | 0 => x = y
  | 1 => x ≠ y
  | 2 => y ≤ x
  | 3 => x < y
  | 4 => sval n y ≤ sval n x
  | _ => sval n x < sval n y
def fenceEntryOk (e : W64 × W64 × W64) : Bool :=
  fld e.2.2 63 4 = 0 && fld e.2.2 2 0 < 6 && (bit e.2.2 3 || fld e.2.1 63 32 = 0) && e.1.toNat % (if bit e.2.2 3 then 8 else 4) = 0
def groupsOf3 : List W64 → List (W64 × W64 × W64)
  | a :: b :: c :: r => (a, b, c) :: groupsOf3 r
  | _ => []
/-- One round: every word read in order; it passes, fails, waits, or meets a fault. -/
def fenceReads (who : IoWho) (cx : Ctx) : List (W64 × W64 × W64) → Nat → State → State × Except PktR Bool
  | [], _, s => (s, .ok true)
  | e :: r, i, s =>
    let n := if bit e.2.2 3 then 8 else 4
    match farIo who i cx e.1.toNat .rd (.read n) s with
    | (s, .val bs _) => match fenceReads who cx r (i + 1) s with
      | (s, .ok b) => (s, .ok (b && fenceCmp e.2.2 e.2.1 (leVal bs)))
      | (s, .error x) => (s, .error x)
    | (s, .failed) => match fenceReads who cx r (i + 1) s with
      | (s, .ok _) => (s, .ok false)
      | (s, .error x) => (s, .error x)
    | (s, x) => (s, .error (ioStatus x))
def setFence (s : State) (f : FencePk) : State :=
  { s with sched := { s.sched with fences := s.sched.fences.map (fun x => if x.fn = f.fn && x.q = f.q then f else x) } }
def dropFence (s : State) (fn q : Nat) : State :=
  { s with sched := { s.sched with fences := s.sched.fences.filter (fun x => !(x.fn = fn && x.q = q)) } }
/-- Run the round of a fence: pass, fail until the next round, wait, or reject. -/
def fenceTry (s : State) (r : Ring) (cx : Ctx) (f : FencePk) : State :=
  match fenceReads (.queue r.fn r.q) cx f.conds 0 s with
  | (s, .ok true) => progress (pktEnd (dropFence (ioDrop s (.queue r.fn r.q)) r.fn r.q) r)
  | (s, .ok false) => progress (setFence (ioDrop s (.queue r.fn r.q)) { f with going := false })
  | (s, .error (.bad st d)) => progress (pktReject (dropFence s r.fn r.q) r st d)
  | (s, .error _) => stall (setFence s { f with going := true }) (.ring r.fn r.q)
/-- FENCE_PACKET (R142): the checks, and the first round. -/
def fencePacketOp (s : State) (fn q : Nat) : State :=
  let s1 := withPkt s fn q 2 fun s _ x h b =>
    let n := fld h 63 32
    let es := groupsOf3 b
    if n = 0 || 12 < n || fld h 31 16 ≠ 1 + 3 * n || !es.all fenceEntryOk then (s, .bad 2 0)
    else match reqCtx s fn x with
      | none => (s, .bad 8 0)
      | some _ => ({ s with sched := { s.sched with fences := s.sched.fences ++ [⟨fn, q, es, s.fab.podNs, true⟩] } }, .go)
  match ringAt s1 fn q, s1.sched.fences.find? (fun f => f.fn = fn && f.q = q) with
  | some r, some f => match (headReq r).bind (reqCtx s1 fn) with
    | some cx => if r.busy && f.going then fenceTry s1 r cx f else s1
    | none => s1
  | _, _ => s1
def execFencePacket (fn q : Nat) (s : State) : Host.Outcome State Fault Refusal := .next (fencePacketOp s fn q)
/-- FENCE_ROUND (R142): at least 250 ns after the start of the last round. -/
def fenceRoundOp (s : State) (fn q : Nat) : State :=
  match ringAt s fn q, s.sched.fences.find? (fun f => f.fn = fn && f.q = q) with
  | some r, some f =>
    if !r.busy || !tenantRuns s fn || (!f.going && s.fab.podNs < f.at_ + 250) then s
    else match (headReq r).bind (reqCtx s fn) with
      | some cx =>
        let f := if f.going then f else { f with at_ := s.fab.podNs, going := true }
        fenceTry (setFence s f) r cx f
      | none => s
  | _, _ => s
def execFenceRound (fn q : Nat) (s : State) : Host.Outcome State Fault Refusal := .next (fenceRoundOp s fn q)

/-! ## LAUNCH (R144 to R151, R154). -/

/-- The fields of a LAUNCH body (Table 7-3), its checks of R145 and R147, and the table it names: rank, rank count, neighbours. -/
def pgroupOf (bs : List Byte) : List (Nat × List Nat) :=
  (List.range (byteFld bs 2 3)).map (fun k => (byteFld bs (16 + 16 * k + 15) (16 + 16 * k + 15),
    (List.range 8).map (fun i => byteFld bs (16 + 16 * k + i) (16 + 16 * k + i))))
def blankLaunch : Launch :=
  { id := 0, fn := 0, q := 0, node := none, ctx := 0, part := 0, gen := 0, code := 0, tcode := 0, frame := 0, map := [], joinp := 0, teams := 0,
    bpt := 0, wpb := 0, regs := 0, shmem := 0, prio := 0, gang := false, pgid := 0xFFFF, rank := 0, nrank := 1, nbrs := [], next := 0, liveRecs := 0,
    failed := none, halted := false }
def launchDesc (s : State) (cx : Ctx) (h : W64) (b : List W64) : Option Launch :=
  let w (i : Nat) : W64 := b.getD i 0
  let x := w 5
  let pg := fld x 25 10
  let tab := if pg = 0xFFFF then some [] else (lkp cx.pgroups pg).map pgroupOf
  let teams := fld x 63 48
  if fld h 31 16 ≠ 8 || fld h 63 32 ≠ 0 || teams = 0 || fld x 41 38 = 15 || 256 < fld x 37 29 || (w 0).toNat % 8 ≠ 0 || (w 1).toNat % 8 ≠ 0
     || fld x 9 0 ≠ 0 || w 6 ≠ 0 || (pg ≠ 0xFFFF && !hasFeature s cx.fn 8) then none
  else match tab with
    | none => none
    | some es =>
      let l := { blankLaunch with fn := cx.fn, ctx := cx.ctxid, part := cx.part, gen := ctxGen s cx, code := w 0, tcode := w 1, frame := w 2,
                                  joinp := w 4, teams := teams, bpt := fld x 47 46, wpb := fld x 45 42, regs := fld x 41 38, shmem := fld x 37 29,
                                  prio := fld x 28 27, gang := bit x 26, pgid := pg, nbrs := es }
      if pg = 0xFFFF then some l
      else match es.findIdx? (fun e => e.1 = s.mod.poddev) with
        | none => none
        | some r => if teams % es.length ≠ 0 then none else some { l with teams := teams / es.length, rank := r, nrank := es.length }

/-- Core of a placement map entry. -/
def mapCore (e : W64) : CoreId := ⟨fld e 19 18, fld e 17 14, fld e 13 11⟩
def clusterNo (c : CoreId) : Nat := c.y / 2 * 8 + c.x / 2
def blockOf (l : Launch) (b : Nat) : W64 := l.map.getD b 0
def regBytes (warps regs : Nat) : Nat := warps * (32 + 16 * regs) * 128
/-- Marks of an entry: bit 0 n, 1 s, 2 e, 3 w. -/
def mapNbr (e : W64) : BitVec 4 := maskOf 4 ((List.range 4).filter (fun d => bit e (31 - d)))
/-- The core next to c in a direction is on the die. -/
def nbrOnDie (c : CoreId) (d : Nat) : Bool := match d with
  | 0 => 0 < c.y | 1 => c.y < 7 | 2 => c.x < 15 | _ => 0 < c.x
/-- The six checks of Table 7-6 on block b. -/
def placeCheck (s : State) (l : Launch) (b : Nat) : Bool :=
  let e := blockOf l b
  let c := mapCore e
  let per := l.bpt + 1
  let t := b / per
  let team := (List.range per).map (fun i => blockOf l (t * per + i))
  let all := (List.range (l.teams * per)).map (fun i => (i, mapCore (blockOf l i)))
  let here := (all.filter (fun x => x.2 = c)).length
  let w := l.wpb + 1
  fld e 63 32 = 0 && fld e 27 20 = 0 && fld e 10 0 = 0
  && (clustersOf s l.part c.die).contains (clusterNo c)
  && team.all (fun x => (mapCore x).die = c.die && clusterNo (mapCore x) = clusterNo c)
  && (team.map mapCore).eraseDups.length = per
  && w ≤ 48 && regBytes w l.regs ≤ 524288 && l.shmem ≤ 256
  && (!l.gang || (here * w ≤ 48 && here * regBytes w l.regs ≤ 524288 && here * l.shmem ≤ 256
      && (l.tcode = 0 || all.all (fun x => x.1 / per = t || !(x.2.die = c.die && clusterNo x.2 = clusterNo c)))))
  && (mapNbr e = 0 || (l.gang && here ≤ 1 && (List.range 4).all (fun d => !(mapNbr e).getLsbD d
      || (nbrOnDie c d && (all.filter (fun x => x.2 = nbrCore c (d + 1))).length = 1))))
/-- Read n 4-byte map entries. -/
def mapReads (who : IoWho) (cx : Ctx) (base : Nat) : Nat → Nat → State → State × Except PktR (List W64)
  | 0, _, s => (s, .ok [])
  | n + 1, i, s => match farIo who (16 + i) cx (base + 4 * i) .rd (.read 4) s with
    | (s, .val bs _) => match mapReads who cx base n (i + 1) s with
      | (s, .ok r) => (s, .ok (BitVec.ofNat 64 (leVal bs) :: r))
      | (s, .error x) => (s, .error x)
    | (s, r) => (s, .error (ioStatus r))
/-- Records a launch creates on this device. -/
def launchRecs (l : Launch) : Nat := l.teams * (l.bpt + 1) + if l.tcode = 0 then 0 else l.teams
/-- A launch, from its header and body to its records, or why not yet (R145, R149, R154). Its JOINP add is access 2 of its owner, its map
reads are accesses 16 on. -/
def launchRun (who : IoWho) (q : Nat) (node : Option Nat) (cx : Ctx) (h : W64) (b : List W64) (s : State) : State × PktR :=
  match launchDesc s cx h b with
  | none => (s, .bad 2 0)
  | some l => match mapReads who cx (b.getD 3 0).toNat (l.teams * (l.bpt + 1)) 0 s with
    | (s, .error x) => (s, x)
    | (s, .ok m) =>
      let l := { l with map := m }
      match (List.range m.length).find? (fun i => !placeCheck s l i) with
      | some i => (s, .bad 6 i)
      | none =>
        let (s, r) : State × IoRes := if l.joinp = 0 then (s, .val [] false)
          else farIo who 2 cx l.joinp.toNat .wr (.atom (.rmw 0 .z64 [launchRecs l])) s
        match r with
        | .val _ _ =>
          let (n, s) := fresh s
          ({ s with sched := { s.sched with launches := s.sched.launches ++ [{ l with id := n, q := q, node := node, liveRecs := launchRecs l }] } }, .go)
        | r => (s, ioStatus r)
/-- LAUNCH_PACKET (R145). -/
def launchPacketOp (s : State) (fn q : Nat) : State :=
  withPkt s fn q 1 fun s r x h b => match reqCtx s fn x with
    | none => (s, .bad 8 0)
    | some cx => launchRun (.queue r.fn r.q) q none cx h b s
def execLaunchPacket (fn q : Nat) (s : State) : Host.Outcome State Fault Refusal := .next (launchPacketOp s fn q)

/-! ## Residence (R152, R153, R155). -/

/-- The warp or stream is saved by a pre-emption and takes no room. -/
def isSaved (s : State) (a : AgentId) : Bool := s.sched.pre.any (fun p => p.saved && p.agents.contains a)
/-- The warps that hold a slot and registers of a core: a warp gives them up when it ends, or when the last batch that names it has
completed (R183, R421). -/
def onCore (s : State) (c : CoreId) : List (AgentId × Agent) :=
  s.agents.filter (fun e => (match e.1 with
    | .warp d _ => d = c
    | .stream _ _ => false) && !isSaved s e.1)
/-- Warps, register bytes and shared KiB in use on a core. -/
def coreUse (s : State) (c : CoreId) : Nat × Nat × Nat :=
  ((onCore s c).length, ((onCore s c).map (fun e => e.2.alloc * 128)).sum,
   ((s.blocks.filter (fun e => e.2.core = c && !e.2.halted)).map (fun e => e.2.shmem)).sum)
/-- n more blocks of a shape fit a core. -/
def coreFits (s : State) (c : CoreId) (n warps regs shmem : Nat) : Bool :=
  let u := coreUse s c
  u.1 + n * warps ≤ 48 && u.2.1 + n * regBytes warps regs ≤ 524288 && u.2.2 + n * shmem ≤ 256
/-- The control core of a cluster runs no stream: one that has ended holds it no longer, though its engine still runs closed batches (R168). -/
def ctlFree (s : State) (die c : Nat) : Bool :=
  !s.agents.any (fun e => match e.1 with
    | .stream d n => d = die && n % 32 = c && !e.2.ended && !isSaved s e.1
    | .warp _ _ => false)
/-- The lowest free slots of a core. -/
def slotsFree (s : State) (c : CoreId) (n : Nat) : List Nat :=
  ((List.range 48).filter (fun k => !s.agents.any (fun e => (match e.1 with
    | .warp d m => d = c && m % 48 = k
    | .stream _ _ => false) && !isSaved s e.1))).take n
/-- No warp or stream, resident or saved, has the number. -/
def unusedId (s : State) (a : AgentId) : Bool :=
  (agent s a).isNone && !s.ck.any (fun c => c.cand.any (fun i => (lkp i.agents a).isSome) || c.images.any (fun e => (lkp e.2.agents a).isSome))
/-- The number of a warp in a slot: above the saved warps that had it. -/
def warpId (s : State) (c : CoreId) (k : Nat) : AgentId :=
  (((List.range 64).map (fun i => AgentId.warp c (k + 48 * i))).find? (unusedId s)).getD (.warp c k)
def streamId (s : State) (die c : Nat) : AgentId :=
  (((List.range 64).map (fun i => AgentId.stream die (c + 32 * i))).find? (unusedId s)).getD (.stream die c)
/-- A warp or stream as dispatched (Table 7-8). -/
def blankAgent : Agent :=
  { warpNo := 0, blockNo := 0, teamNo := 0, gteam := 0, rank := 0, nrank := 1, die := 0, x := 0, y := 0, cluster := 0, fn := 0, part := 0, ctx := 0,
    gen := 0, launch := 0, blk := 0, team := 0, task := none, prio := 0, alloc := 32, v := [], s := [], p := [], exm := BitVec.allOnes 32, live := 0,
    nest := [], lin := [], fmt := 0x10, xv := (List.range 4).map (fun i => (i, 0x7FC0)), lc := [], ls := [], le := [], tags := 0, outc := 0, k := [],
    recs := [], stack := [], tcause := 0, tval := 0, tpcx := 0, tvec := 0, posHdr := 0, posIdx := none, posCnt := 0, written := false, tprio := false,
    depthAt := 0, watch := [], suppress := false, nwin := 6, pc := 0, clause := none, idx := 0, waited := false, pend := [], outOps := [], fabErr := none,
    poison := none, wayCur := none, acqHold := false, chkptAt := none, arrived := false, joinAt := none, mpSt := .none, need := 0, needT := 0, resumed := false, logged := [], born := 0,
    waitSince := 0, yielded := false, promo := false, tried := 0, turn := 0, haltForm := .no, haltReq := none, ended := false, trapPend := none, mx := ⟨[], [], [], false⟩ }
/-- What records share: owner, shape and the position they start from. -/
structure Born where
  fn     : Nat
  part   : Nat
  ctx    : Nat
  gen    : BitVec 16
  launch : Nat
  task   : Option Nat
  prio   : Nat
  rank   : Nat
  nrank  : Nat
  teamNo : Nat
  gteam  : Nat
  team   : Nat
  frame  : W64
  join   : W64
  deriving DecidableEq, Repr
def bornAgent (s : State) (o : Born) (code : W64) : Agent :=
  { blankAgent with fn := o.fn, part := o.part, ctx := o.ctx, gen := o.gen, launch := o.launch, task := o.task, prio := o.prio, rank := o.rank,
                    nrank := o.nrank, teamNo := o.teamNo, gteam := o.gteam, team := o.team, s := mset (mset [] 0 o.frame) 1 o.join, pc := code,
                    waitSince := s.fab.cycles, tried := s.fab.cycles }
/-- A block becomes resident on a core (R153): its number, and the state. -/
def bornBlock (s : State) (o : Born) (code : W64) (c : CoreId) (blockNo warps regs shmem : Nat) (nbr : BitVec 4) : Nat × State :=
  let (n, s) := fresh s
  let slots := slotsFree s c warps
  let k : Block := { core := c, launch := o.launch, team := o.team, blockNo, gteam := o.gteam, ctx := o.ctx, part := o.part, shmem, regs, warps, slots,
                     nbr, mem := [], poison := [], wps := [], sids := [], filters := [], halted := false, task := o.task.isSome }
  let s := (List.range warps).foldl (fun s i =>
    let (b, s) := fresh s
    let g := bornAgent s o code
    let g := { g with born := b, warpNo := i, blockNo := blockNo, blk := n, die := c.die, x := c.x, y := c.y, cluster := clusterNo c, live := BitVec.allOnes 32,
                      alloc := 32 + 16 * regs }
    setAgent s (warpId s c (slots.getD i 0)) g) s
  (n, { s with blocks := s.blocks ++ [(n, k)] })
/-- A stream starts on a control core. -/
def bornStream (s : State) (o : Born) (code : W64) (die c : Nat) : AgentId × State :=
  let a := streamId s die c
  let (b, s) := fresh s
  let g := bornAgent s o code
  (a, setAgent s a { g with born := b, die := die, x := 2 * (c % 8), y := 2 * (c / 8), cluster := c })

/-! ## Dispatch of launches (R152). -/

/-- The cores of a team's blocks. -/
def teamCores (l : Launch) (t : Nat) : List CoreId := (List.range (l.bpt + 1)).map (fun i => mapCore (blockOf l (t * (l.bpt + 1) + i)))
/-- The cores the next dispatch of a launch needs: its next team's, or all of a GANG launch's. -/
def neededCores (l : Launch) : List CoreId :=
  if l.gang then (List.range l.teams).flatMap (teamCores l) else teamCores l l.next
/-- Two dispatches want one core, or the control core of one cluster. -/
def sameCores (l m : Launch) : Bool :=
  (neededCores l).any (fun c => (neededCores m).any (fun d => c = d || (l.tcode ≠ 0 && m.tcode ≠ 0 && c.die = d.die && clusterNo c = clusterNo d)))
/-- Another launch comes first on a core: higher priority, or the same and accepted earlier. -/
def outranked (s : State) (l : Launch) : Bool :=
  s.sched.launches.any (fun m => m.id ≠ l.id && m.next < m.teams && !m.halted && (l.prio < m.prio || (m.prio = l.prio && m.id < l.id))
    && tenantRuns s m.fn && sameCores l m)
/-- The context as a whole is pre-empted or held. -/
def ctxHeld (s : State) (part ctx : Nat) : Bool :=
  s.sched.pre.any (fun p => p.part = part && p.ctx = ctx && (match p.why with
    | .prio _ _ => false
    | _ => true)) || (partOf s part).any (fun p => p.hold)
/-- A team fits: its cores, and the control core when there are team streams. -/
def teamFits (s : State) (l : Launch) (t : Nat) : Bool :=
  let cs := teamCores l t
  let c := cs.headD ⟨0, 0, 0⟩
  cs.all (fun c => coreFits s c 1 (l.wpb + 1) l.regs l.shmem) && (l.tcode = 0 || ctlFree s c.die (clusterNo c))
/-- All teams of a GANG launch fit together. -/
def gangFits (s : State) (l : Launch) : Bool :=
  let cs := (List.range l.teams).flatMap (teamCores l)
  cs.eraseDups.all (fun c => coreFits s c (cs.filter (fun d => d = c)).length (l.wpb + 1) l.regs l.shmem
    && (l.tcode = 0 || ctlFree s c.die (clusterNo c)))
/-- The launch may dispatch its next team, or all of them. -/
def canDispatch (s : State) (l : Launch) : Bool :=
  l.next < l.teams && !l.halted && tenantRuns s l.fn && !ctxHeld s l.part l.ctx
  && !outranked s l
  && (if l.gang then gangFits s l else teamFits s l l.next)
def dispatchTeam (s : State) (l : Launch) (t : Nat) : State :=
  let (n, s) := fresh s
  let gt := l.rank * l.teams + t
  let o : Born := ⟨l.fn, l.part, l.ctx, l.gen, l.id, none, l.prio, l.rank, l.nrank, t, gt, n, l.frame, l.joinp⟩
  let (bs, s) := (List.range (l.bpt + 1)).foldl (fun (acc : List Nat × State) i =>
    let e := blockOf l (t * (l.bpt + 1) + i)
    let (k, s) := bornBlock acc.2 o l.code (mapCore e) i (l.wpb + 1) l.regs l.shmem (mapNbr e)
    (acc.1 ++ [k], s)) ([], s)
  let c := (teamCores l t).headD ⟨0, 0, 0⟩
  let (st, s) := if l.tcode = 0 then (none, s) else (fun (p : AgentId × State) => (some p.1, p.2)) (bornStream s o l.tcode c.die (clusterNo c))
  { s with sched := { s.sched with
      teams := s.sched.teams ++ [⟨n, l.id, gt, bs, st, clusterNo c, c.die, l.joinp⟩]
      launches := s.sched.launches.map (fun x => if x.id = l.id then { x with next := t + 1 } else x) } }
/-- TEAM_DISPATCH (R152). -/
def teamDispatchOp (s : State) (id : Nat) : State :=
  match s.sched.launches.find? (fun l => l.id = id) with
  | none => s
  | some l =>
    if !canDispatch s l then s
    else if l.gang then (List.range l.teams).foldl (fun s t => if l.next ≤ t then dispatchTeam s l t else s) s
    else dispatchTeam s l l.next
def execTeamDispatch (launch : Nat) (s : State) : Host.Outcome State Fault Refusal := .next (progress (teamDispatchOp s launch))

/-! ## Continuation queues (R155, R156). -/

/-- Dies in the order a core of a die looks at them (R10, R155). -/
def dieOrder (d : Nat) : List Nat := match d with
  | 0 => [0, 1, 2, 3] | 1 => [1, 0, 3, 2] | 2 => [2, 0, 3, 1] | _ => [3, 1, 2, 0]
def contQueue (s : State) (part die prio : Nat) : List Cont := s.sched.conts.filter (fun c => c.part = part && c.die = die && c.prio = prio)
/-- The reserved record of a die with its priority (R156). -/
def reservedOf (s : State) (part die : Nat) : List Cont :=
  s.sched.conts.filter (fun c => c.part = part && s.sched.resvs.contains (part, die, c.id))
/-- A record fits the site. -/
def contFits (s : State) (site : PopSite) (c : Cont) : Bool :=
  match site with
  | .core k => !c.kind && coreFits s k 1 (c.warps + 1) c.regs c.shmem
  | .ctl die cl => c.kind && ctlFree s die cl
def siteDie : PopSite → Nat
  | .core k => k.die | .ctl d _ => d
def siteCluster : PopSite → Nat
  | .core k => clusterNo k | .ctl _ c => c
/-- The partition that owns a cluster. -/
def clusterOwner (s : State) (die c : Nat) : Option Nat := (s.part.parts.find? (fun p => p.cgrp.getLsbD (4 * die + c / 8))).map Part.part
/-- A reservation of the die forbids the record: younger of its priority, or of a lower one. -/
def reservedOut (s : State) (part die : Nat) (c : Cont) : Bool :=
  (reservedOf s part die).any (fun r => r.id ≠ c.id && (c.prio < r.prio || (c.prio = r.prio && r.id < c.id)))
/-- The record a site pops: the oldest that fits, from the highest priority, its own die first. -/
def popChoice (s : State) (site : PopSite) : Option Cont :=
  match clusterOwner s (siteDie site) (siteCluster site) with
  | none => none
  | some part =>
    ((dieOrder (siteDie site)).flatMap (fun d => [3, 2, 1, 0].flatMap (fun p => contQueue s part d p))).find? (fun c =>
      tenantRuns s c.fn && !ctxHeld s part c.ctx && contFits s site c && !reservedOut s part (siteDie site) c)
/-- A record leaves its queue. -/
def takeCont (s : State) (c : Cont) : State :=
  { s with sched := { s.sched with
      conts := keepConts s (fun x => x.id ≠ c.id)
      resvs := s.sched.resvs.filter (fun r => r.2.2 ≠ c.id) } }
/-- CONTINUATION_POP (R155): a record of an older generation is discarded. -/
def popOp (s : State) (site : PopSite) : State :=
  match popChoice s site with
  | none => s
  | some c =>
    let s := takeCont s c
    if genCmp c.gen.toNat (fnGen s c.fn).toNat ≠ .current then s
    else
      let (n, s) := fresh s
      let o : Born := ⟨c.fn, c.part, c.ctx, c.gen, c.launch, some c.id, c.prio, c.rank, c.nrank, 0, 0, n, c.frame, c.join⟩
      let tm : Team := ⟨n, c.launch, 0, [], none, siteCluster site, siteDie site, c.join⟩
      match site with
      | .core k =>
        let (b, s) := bornBlock s o c.code k 0 (c.warps + 1) c.regs c.shmem 0
        { s with sched := { s.sched with teams := s.sched.teams ++ [{ tm with blocks := [b] }] } }
      | .ctl die cl =>
        let (a, s) := bornStream s o c.code die cl
        { s with sched := { s.sched with teams := s.sched.teams ++ [{ tm with stream := some a }] } }
def execContinuationPop (at_ : PopSite) (s : State) : Host.Outcome State Fault Refusal := .next (progress (popOp s at_))
/-- The oldest record of a queue has stood 20 µs (R156). -/
def reserveDue (s : State) (part die prio : Nat) : Option Cont :=
  match contQueue s part die prio with
  | c :: _ => if c.born + 20000 ≤ s.fab.podNs && !s.sched.resvs.contains (part, die, c.id) then some c else none
  | [] => none
/-- QUEUE_RESERVATION (R156). -/
def queueReserveOp (s : State) (part die prio : Nat) : State :=
  match reserveDue s part die prio with
  | none => s
  | some c => { s with sched := { s.sched with resvs := s.sched.resvs ++ [(part, die, c.id)] } }
def execQueueReservation (part die prio : Nat) (s : State) : Host.Outcome State Fault Refusal := .next (progress (queueReserveOp s part die prio))

/-! ## The end of a launch (R141). -/

def someClaim (s : State) (q : Claim → Bool) : Bool := s.eng.slots.any (fun e => match e.2.claim with
  | some c => q c
  | none => false)
/-- Everything Table 7-1 asks of a finished launch. -/
def launchDone (s : State) (l : Launch) : Bool :=
  l.liveRecs = 0 && l.teams ≤ l.next
  && !s.agents.any (fun e => e.2.launch = l.id)
  && !s.sched.conts.any (fun c => c.launch = l.id) && !s.sched.joins.any (fun j => j.launch = l.id)
  && !someClaim s (fun c => c.launch = l.id)
  && !s.net.qps.any (fun q => q.sq.any (fun w => w.launch = l.id))
  && !(allEntries s).any (fun e => e.launch = l.id)
  && !s.host.reads.any (fun r => r.launch = l.id)
def dropLaunch (s : State) (id : Nat) : State := { s with sched := { s.sched with launches := s.sched.launches.filter (fun l => l.id ≠ id) } }
/-- LAUNCH_FINISH (R141): the packet finishes, or completes as a rejected one where a warp ended by fault or a HALT ended the launch
(R378, R383). -/
def launchFinishOp (s : State) (fn q : Nat) : State :=
  match ringAt s fn q, s.sched.launches.find? (fun l => l.fn = fn && l.q = q && l.node = none) with
  | some r, some l =>
    if !r.busy || !launchDone s l then s
    else
      let s := dropLaunch s l.id
      match l.failed with
      | none => pktEnd s r
      | some d => pktReject s r 9 d
  | _, _ => s
def execLaunchFinish (fn q : Nat) (s : State) : Host.Outcome State Fault Refusal := .next (progress (launchFinishOp s fn q))

/-! ## GRAPH (R160 to R163). -/

def graphAt (s : State) (fn q : Nat) : Option Graph := s.sched.graphs.find? (fun g => g.fn = fn && g.q = q)
def setGraph (s : State) (g : Graph) : State :=
  { s with sched := { s.sched with graphs := s.sched.graphs.map (fun x => if x.fn = g.fn && x.q = g.q then g else x) } }
/-- Words of a node, word 0 its first 8 bytes. -/
def nodeW (g : Graph) (n i : Nat) : W64 := (g.nodes.getD n []).getD i 0
def nodeType (g : Graph) (n : Nat) : Nat := fld (nodeW g n 7) 7 0
def nodePred (g : Graph) (n : Nat) : Nat := max (fld (nodeW g n 7) 23 8) 1
def nodeNext (g : Graph) (n i : Nat) : Nat := fld (nodeW g n 0) (16 * i + 15) (16 * i)
/-- The field checks of a node (R161): ARGS words 6, 5, 4 from the top. -/
def nodeOk (ns : List (List W64)) (w : List W64) : Bool :=
  let x (i : Nat) : W64 := w.getD i 0
  fld (x 7) 63 24 = 0 && x 1 = 0 && x 2 = 0 && x 3 = 0
  && 1 ≤ fld (x 7) 7 0 && fld (x 7) 7 0 ≤ 5
  && (List.range 4).all (fun i => let t := fld (x 0) (16 * i + 15) (16 * i)
      t = 0xFFFF || t < ns.length)
  && (fld (x 7) 7 0 ≠ 2 || (x 4 ≠ 0 && (x 4).toNat ≤ 0x100000))
def arrivals (g : Graph) (n : Nat) : Nat := (lkp g.arrive n).getD 0
def isRunning (g : Graph) (n : Nat) : Bool := g.running.any (fun r => r.1 = n)
/-- Start ready nodes in ascending number, at most 16 at once (R162). -/
def startReady (g : Graph) : Graph :=
  if g.failed.isSome then g
  else (List.range g.nodes.length).foldl (fun g n =>
    if g.running.length < 16 && !isRunning g n && nodePred g n ≤ arrivals g n then
      { g with running := g.running ++ [(n, none)], arrive := ins g.arrive n (arrivals g n - nodePred g n) }
    else g) g
/-- One arrival at each successor listed. -/
def sendArrivals (g : Graph) (ts : List Nat) : Graph :=
  ts.foldl (fun g t => if t = 0xFFFF then g else { g with arrive := ins g.arrive t (arrivals g t + 1) }) g
/-- GRAPH_PACKET (R160, R161). -/
def graphPacketOp (s : State) (fn q : Nat) : State :=
  withPkt s fn q 3 fun s _ x h b =>
    let a := (b.getD 0 0).toNat
    let n := (b.getD 1 0).toNat
    if fld h 31 16 ≠ 3 || fld h 63 32 ≠ 0 || a % 64 ≠ 0 || n = 0 || 4096 < n || !hasFeature s fn 9 then (s, .bad 2 0)
    else match reqCtx s fn x with
      | none => (s, .bad 8 0)
      | some cx => match farIoWords (.queue fn q) cx (8 * n) 0 a s with
        | (s, .error r) => (s, ioStatus r)
        | (s, .ok ws) =>
          let ns := (List.range n).map (fun i => (ws.drop (8 * i)).take 8)
          if !ns.all (nodeOk ns) then (s, .bad 2 0)
          else
            let g : Graph := ⟨fn, q, cx.ctxid, ns, [], [], none⟩
            let g := { g with arrive := ((List.range n).filter (fun i => fld (nodeW g i 7) 23 8 = 0)).map (fun i => (i, 1)) }
            let g := startReady g
            if g.running = [] then (s, .done) else ({ s with sched := { s.sched with graphs := s.sched.graphs ++ [g] } }, .go)
def execGraphPacket (fn q : Nat) (s : State) : Host.Outcome State Fault Refusal := .next (graphPacketOp s fn q)
/-- The walker's cluster (R160). -/
def walkerAt (s : State) (part : Nat) : Nat × Nat :=
  match (List.range 4).find? (fun d => clustersOf s part d ≠ []) with
  | some d => (d, (clustersOf s part d).headD 0)
  | none => (0, 0)
/-- A COPY node: a transient claim of the walker's engine, claimed, then flowing (R163). -/
def copyNode (s : State) (cx : Ctx) (g : Graph) (n : Nat) (cl : Option (ClaimId × Nat)) : State × Option (ClaimId × Nat) × PktR :=
  let (die, cluster) := walkerAt s cx.part
  let ag := { blankAgent with die := die, cluster := cluster, part := cx.part, ctx := cx.ctxid, fn := cx.fn, gen := ctxGen s cx }
  match cl with
  | some (id, op) => match claimAt s id with
    | some c =>
      if c.opId ≠ op then (s, cl, .done)
      else if c.st = .flowing then (s, cl, .wait)
      else match claimPhase s ag id c with
        | (s, .wait) => (s, cl, .wait)
        | (s, .trap x _) => (freeSlot s id, cl, .bad (if x = .perm then 8 else if x = .xlate then 7 else 9) 0)
        | (s, .ready) => match claimAt s id with
          | none => (s, cl, .wait)
          | some c =>
            let (s, w) := flowWaits s ag id c 1
            if w then (s, cl, .wait)
            else (startFlow s id c 0 0 (min 65536 (nfld (descAt c 2) 20 0)), cl, .wait)
    | none => (s, cl, .done)
  | none => match freeSlotOf s ag false with
    | none => (s, none, .wait)
    | some id =>
      let (op, s) := fresh s
      let w := BitVec.ofNat 64 ((nodeW g n 4).toNat + 7 * 2 ^ 21 + 7 * 2 ^ 24)
      let c := { newClaim (.stream 4 op) ag .copy [nodeW g n 6, nodeW g n 5, w] with opId := op }
      (putClaim s id c, some (id, op), .wait)
/-- Try a running node: its claim, and how it stands. -/
def nodeTry (s : State) (cx : Ctx) (g : Graph) (n : Nat) (cl : Option (ClaimId × Nat)) : State × Option (ClaimId × Nat) × PktR :=
  let who : IoWho := .node g.fn g.q n
  match nodeType g n with
  | 1 => match s.sched.launches.find? (fun l => l.fn = g.fn && l.q = g.q && l.node = some n) with
    | some l =>
      if !launchDone s l then (s, cl, .wait)
      else (dropLaunch s l.id, cl, if l.failed = none then .done else .bad 9 0)
    | none => match farIoWords who cx 8 4 (nodeW g n 6).toNat s with
      | (s, .error r) => (s, cl, ioStatus r)
      | (s, .ok ws) =>
        if fld (ws.headD 0) 7 0 ≠ 1 || fld (ws.headD 0) 15 8 ≠ 0 then (s, cl, .bad 2 0)
        else match launchRun who g.q (some n) cx (ws.headD 0) (ws.drop 1) s with
          | (s, .go) => (s, cl, .wait)
          | (s, r) => (s, cl, r)
  | 2 => copyNode s cx g n cl
  | 3 => match signalRun who cx (nodeW g n 6) (if bit (nodeW g n 4) 0 then 8 else 4) (nodeW g n 5) s with
    | (s, r) => (s, cl, r)
  | _ => match farIo who 0 cx (nodeW g n 6).toNat .rd (.read 4) s with
    | (s, .val bs _) => (s, cl, if leVal bs = 0 then .bad 0 1 else .done)
    | (s, r) => (s, cl, ioStatus r)
/-- No node is running and none is ready: the packet finishes (R162, R163). -/
def graphCheck (s : State) (g : Graph) : State :=
  if g.running ≠ [] then setGraph s g
  else
    let s := { s with sched := { s.sched with graphs := s.sched.graphs.filter (fun x => !(x.fn = g.fn && x.q = g.q)) } }
    match ringAt s g.fn g.q, g.failed with
    | some r, none => pktEnd s r
    | some r, some (st, n) => pktReject s r st n
    | none, _ => s
/-- GRAPH_NODE_FINISH (R162): a running node is tried; when it has finished it sends its arrivals and newly ready nodes start. A
condition node whose word is zero answers as status 0 with mark 1. -/
def graphNodeOp (s : State) (fn q n : Nat) : State :=
  match graphAt s fn q with
  | none => s
  | some g => match g.running.find? (fun r => r.1 = n), s.xl.ctxs.find? (fun c => c.fn = fn && c.ctxid = g.ctx) with
    | some (_, cl), some cx =>
      if !tenantRuns s fn then s
      else
        let (s, cl', r) := nodeTry s cx g n cl
        let rest := g.running.filter (fun x => x.1 ≠ n)
        let fin (ts : List Nat) : State :=
          progress (graphCheck (ioDrop s (.node fn q n)) (startReady (sendArrivals { g with running := rest } ts)))
        let two (a b : Nat) : List Nat := [nodeNext g n a, nodeNext g n b]
        match r with
        | .done => if nodeType g n ≤ 3 then fin (two 0 1 ++ two 2 3) else fin (two 0 1)
        | .bad 0 _ => fin (two 2 3)
        | .bad st _ => progress (graphCheck (ioDrop s (.node fn q n)) { g with running := rest, failed := match g.failed with
            | some x => some x
            | none => some (st, n) })
        | _ =>
          let s' := setGraph s { g with running := g.running.map (fun x => if x.1 = n then (n, cl') else x) }
          if cl' ≠ cl || s.sched.launches.length ≠ s'.sched.launches.length then progress s' else stall s' (.graph fn q n)
    | _, _ => s
def execGraphNodeFinish (fn q node : Nat) (s : State) : Host.Outcome State Fault Refusal := .next (graphNodeOp s fn q node)

end Sys2Proof.Machine
end

