-- ==== Sys2Proof/Machine/Preempt.lean ====
section
/-! DEFINITION. Pre-empting a context: the request, the halt of each warp and stream, the save, and the resumption (06 R131 to R133; 07
R159; 11 R245, R253; 22 Table 22-5; 24 R416). -/

namespace Sys2Proof.Machine

/-- Agents of a context that meet a condition on where they are. -/
def ctxAgents (s : State) (part ctx : Nat) (at_ : AgentId → Agent → Bool) : List AgentId :=
  (s.agents.filter (fun e => e.2.part = part && e.2.ctx = ctx && at_ e.1 e.2)).map Prod.fst
/-- Ask the agents to halt: each is marked with the time of the request, and its claims park (Table 22-5). -/
def requestHalt (s : State) (as : List AgentId) : State :=
  as.foldl (fun s a => parkClaims (modAgent s a (fun g => { g with haltReq := match g.haltReq with
    | some t => some t
    | none => some s.fab.podNs })) a false) s
/-- Pre-empt a context, or the part of it that a condition picks. -/
def preempt (s : State) (part ctx : Nat) (why : PreWhy) (at_ : AgentId → Agent → Bool) : State :=
  let as := ctxAgents s part ctx at_
  let s := requestHalt s as
  { s with sched := { s.sched with pre := s.sched.pre ++ [⟨part, ctx, why, as, false, s.fab.podNs⟩] } }

/-! ## The halt (R132). -/

/-- Clear every entry of a map whose register is not kept. -/
def keepOnly {w : Nat} (m : Map w) (keep : Nat → Bool) : Map w := m.filter (fun e => keep e.1)
/-- The registers a halt at a safe point saves; the others read zero afterwards (R253). Pending registers are always saved. -/
def saveLive (g : Agent) (l : LiveSet) : Agent :=
  let pends (file n : Nat) : Bool := g.pend.any (fun p => p.dst.any (fun r => r.file = file && r.num = n))
  let v := keepOnly g.v (fun k => l.vlive.getLsbD (k / 32) || pends 0 (k / 32))
  let s := keepOnly g.s (fun k => l.slive.getLsbD k || pends 1 k)
  let p := keepOnly g.p (fun k => l.plive.testBit k || pends 2 k)
  { g with v := v, s := s, p := p }
/-- What a waiting agent has queued is withdrawn: a milepost flit, an arrival at a RESAMPLE, a place at a siding (R132, R469, R443). After the
commit of its RESAMPLE it waits for the copies still (R449). -/
def withdraw (s : State) (a : AgentId) : State :=
  let s := mpWithdraw s a
  let leavePop (o : PopObj) : PopObj := { o with arrivals := o.arrivals.filter (fun r => r.agent ≠ a) }
  let s := leaveSidings { s with pop := s.pop.map (fun o => (o.1, leavePop o.2)) } a
  let copying : Bool := s.pop.any (fun o => o.2.copy.any (fun c => c.arrivals.any (fun r => r.agent = a)))
  modAgent s a (fun g => { g with arrived := copying })
/-- An agent that may stand at a safe point: a warp before an instruction of a checked clause. -/
def atWord (a : AgentId) (g : Agent) : Bool := !isStream a && g.clause.isSome && g.waited
/-- The live set of the safe point an agent stands at. -/
def safeHere (s : State) (a : AgentId) (g : Agent) : Option LiveSet :=
  if !atWord a g then none
  else match (sideHere s a g 0).2 with
    | .found l => some l
    | _ => none
/-- The table that tells is still to be read. -/
def sideOut (s : State) (a : AgentId) (g : Agent) : Bool :=
  atWord a g && g.haltForm = .no && !g.ended && (match (sideHere s a g 0).2 with
    | .wait => true
    | _ => false)
/-- The window for a safe point is over: 600 ns, at once for a stream, which halts at its next boundary. -/
def haltDue (s : State) (a : AgentId) (g : Agent) : Bool := match g.haltReq with
  | some t => isStream a || t + 600 ≤ s.fab.podNs
  | none => false
/-- The agent halts where it stands. A clause not begun is fetched again on resumption (R229); a stream's engine stops after the step in
progress and gives its token up (R432). A trap that waited for results in flight is dropped: the instruction executes again (R232). A claim it has used since the request parks now (Table 22-5).
What an instruction it did not execute has begun is asked for anew (R65, R132), but for a SPAWN whose add has left. -/
def haltNow (s : State) (a : AgentId) (g : Agent) (l : Option LiveSet) : State :=
  let g := match l with
    | some l => { saveLive g l with haltForm := .safe }
    | none => { g with haltForm := .boundary }
  let g := match g.trapPend with
    | some (c, v, _) => { g with trapPend := none, poison := if c = Cause.poison.code then some v else g.poison }
    | none => g
  let g := if g.waited then g else { g with clause := none }
  let s := if g.mx.running then passToken s g.part g.die g.cluster else s
  let s := if spawnBegun s a (((decodeIn s g (curWord g)).bind opcode).getD 0) then forgetAsker (ioDrop s (.side a)) (.side a) else abandon s a
  parkClaims (withdraw (setAgent s a { g with mx := { g.mx with running := false }, promo := false }) a) a true
/-- Nothing of the agent runs any more: it has ended, and its engine has no closed batch. -/
def atRest (g : Agent) : Bool := g.ended && g.mx.queue = []
/-- WARP_HALT (R132). -/
def warpHaltOp (s : State) (a : AgentId) : State :=
  match agent s a with
  | none => s
  | some g =>
    if g.haltReq.isNone || g.haltForm ≠ .no || atRest g then s
    else match safeHere s a g with
      | some l => haltNow s a g (some l)
      | none => if haltDue s a g then haltNow s a g none else s
def execWarpHalt (a : AgentId) (s : State) : Host.Outcome State Fault Refusal := .next (progress (warpHaltOp s a))

/-! ## The save (R133, R416). -/

/-- A halt is complete: the agent is halted or has ended. -/
def isHalted (s : State) (a : AgentId) : Bool := match agent s a with
  | some g => g.haltForm ≠ .no || atRest g
  | none => true
/-- Nothing of a claim moves: a held one has parked or been revoked, or none of a halo's paths runs (R407); a transient one has ended its flows, or
its COLL waits for other ranks. -/
def claimRests (id : ClaimId) (c : Claim) : Bool :=
  if id.slot < 48 then c.st = .parked || c.st = .revoked || c.st = .faulted || haloIdle c
  else c.st ≠ .flowing || (c.work = .coll && !running c)
/-- Every flow of the claims a pre-emption concerns has ended (R416): those of its agents, and of its whole context where it takes all of it. -/
def claimsAtRest (s : State) (p : Pre) : Bool :=
  let all : Bool := match p.why with
    | .prio _ _ => false
    | _ => true
  s.eng.slots.all (fun e => match e.2.claim with
    | some c => !(p.agents.contains c.owner || (all && c.ctx = ckey p.part p.ctx)) || claimRests e.1 c
    | none => true)
/-- The pre-emption may be saved. -/
def saveReady (s : State) (p : Pre) : Bool := !p.saved && p.agents.all (isHalted s) && claimsAtRest s p
/-- The record is saved: its blocks leave their cores. -/
def saveOne (s : State) (p : Pre) : State :=
  let mine (b : Nat) : Bool := s.agents.any (fun x => x.2.blk = b && p.agents.contains x.1 && !isStream x.1)
  let off (b : Nat) (k : Block) : Block := if mine b then { k with halted := true } else k
  let s := { s with blocks := s.blocks.map (fun (e : Nat × Block) => (e.1, off e.1 e.2)) }
  { s with sched := { s.sched with pre := s.sched.pre.map (fun x => if x = p then { p with saved := true } else x) } }
/-- CONTEXT_SAVE (R416): every pre-emption of the context whose halt is complete is saved. -/
def contextSaveOp (s : State) (part ctx : Nat) : State :=
  (s.sched.pre.filter (fun p => p.part = part && p.ctx = ctx && saveReady s p)).foldl saveOne s
/-- A PART_SET with HOLD completes when every context of the partition is saved (R125). -/
def holdDone (s : State) (part : Nat) : Bool :=
  s.sched.pre.all (fun p => !(p.part = part && p.why = .hold) || p.saved)

/-! ## The resumption (R133, R159). -/

/-- The reason for a pre-emption is over: HOLD released, or the team's records have left the cores. -/
def preOver (s : State) (p : Pre) : Bool :=
  match p.why with
  | .hold => !(partOf s p.part).any (fun x => x.hold)
  | .destroy _ _ => false
  | .prio l t => match s.sched.launches.find? (fun x => x.id = l) with
    | none => true
    | some x => (x.halted || t < x.next) && !s.agents.any (fun e => e.2.launch = l && e.2.task.isNone && (x.gang || e.2.teamNo = t))
/-- The blocks a pre-emption has halted that would run again with it. -/
def preBlocks (s : State) (p : Pre) : List (Nat × Block) :=
  s.blocks.filter (fun b => b.2.halted && s.agents.any (fun e => e.2.blk = b.1 && p.agents.contains e.1 && !isStream e.1))
/-- No other pre-emption holds the agent. -/
def onlyPre (s : State) (p : Pre) (a : AgentId) : Bool := s.sched.pre.all (fun x => x = p || !x.agents.contains a)
/-- The cores, slots and control cores the record's agents had are free. -/
def roomFor (s : State) (p : Pre) : Bool :=
  let bs := (preBlocks s p).map Prod.snd
  let ws := s.agents.filter (fun e => p.agents.contains e.1 && !isStream e.1)
  bs.all (fun b =>
    let same := ws.filter (fun e => coreOf e.1 = some b.core)
    let u := coreUse s b.core
    u.1 + same.length ≤ 48 && u.2.1 + (same.map (fun e => e.2.alloc * 128)).sum ≤ 524288
      && u.2.2 + ((bs.filter (fun x => x.core = b.core)).map Block.shmem).sum ≤ 256
      && same.all (fun e => (slotsFree s b.core 48).contains (slotOf e.1)))
  && p.agents.all (fun a => match a with
    | .stream d c => (agent s a).isNone || ctlFree s d (c % 32)
    | .warp _ _ => true)
/-- The pre-emption may end. -/
def resumeReady (s : State) (p : Pre) : Bool :=
  p.saved && preOver s p && roomFor s p && (p.agents = [] || match ctxOf s p.part p.ctx with
    | some c => tenantRuns s c.fn
    | none => true)
/-- The record ends; agents no other record holds run again, and their halos' flows go on. -/
def resumeOne (s : State) (p : Pre) : State :=
  let free := p.agents.filter (onlyPre s p)
  let bs := ((preBlocks s p).map Prod.fst).filter (fun b => s.agents.all (fun e => !(e.2.blk = b && !isStream e.1) || free.contains e.1 || e.2.ended))
  let go (a : AgentId) (g : Agent) : Agent := if free.contains a then { g with
      haltForm := .no, haltReq := none, waitSince := s.fab.cycles, tried := s.fab.cycles, resumed := g.tprio && g.clause.isNone } else g
  let back (b : Nat) (k : Block) : Block := if bs.contains b then { k with halted := false } else k
  let s : State := { s with
    agents := s.agents.map (fun e => (e.1, go e.1 e.2))
    blocks := s.blocks.map (fun e => (e.1, back e.1 e.2))
    sched := { s.sched with pre := s.sched.pre.filter (fun x => x ≠ p) } }
  let halo (s : State) (e : ClaimId × Slot) : State := match e.2.claim with
    | some c => if c.work = .halo && c.st = .flowing && free.contains c.owner then haloSeat (putClaim s e.1 { c with park := false }) e.1 else s
    | none => s
  s.eng.slots.foldl halo s
/-- CONTEXT_RESUME (R133). -/
def contextResumeOp (s : State) (part ctx : Nat) : State :=
  match s.sched.pre.find? (fun p => p.part = part && p.ctx = ctx && resumeReady s p) with
  | some p => resumeOne s p
  | none => s
def execContextResume (part ctx : Nat) (s : State) : Host.Outcome State Fault Refusal := .next (progress (contextResumeOp s part ctx))

/-! ## Pre-emption for priority (R159). -/

/-- The launch at the head of a queue. -/
def headLaunch (s : State) (fn q : Nat) : Option Launch := s.sched.launches.find? (fun l => l.fn = fn && l.q = q && l.node = none)
/-- An agent takes room the dispatch needs: on one of its cores, or the control core of its cluster when it has team streams. -/
def inTheWay (l : Launch) (a : AgentId) (g : Agent) : Bool :=
  let cs := neededCores l
  match a with
  | .warp c _ => cs.contains c
  | .stream d n => l.tcode ≠ 0 && cs.any (fun c => c.die = d && clusterNo c = n % 32) && g.part = l.part
/-- Agents that stand in the way. -/
def blockers (s : State) (l : Launch) : List (AgentId × Agent) := s.agents.filter (fun e => inTheWay l e.1 e.2 && !isSaved s e.1)
/-- The machine without some agents and their blocks, as a dispatch would find it. -/
def without (s : State) (as : List AgentId) : State :=
  let gone : List Nat := (s.agents.filter (fun e => as.contains e.1 && !isStream e.1)).map (fun e => e.2.blk)
  { s with agents := s.agents.filter (fun e => !as.contains e.1), blocks := s.blocks.filter (fun b => !gone.contains b.1) }
/-- The team has waited 100 µs for room that launches of priority 1 or 0 of the same partition hold, without whom it would have it: their
contexts. -/
def prioDue (s : State) (fn q : Nat) : Option (Launch × List Nat) :=
  match ringAt s fn q, headLaunch s fn q with
  | some r, some l =>
    let bs := (blockers s l).filter (fun e => e.2.part = l.part && e.2.prio ≤ 1)
    if l.prio ≠ 3 || l.halted || l.teams ≤ l.next || !r.busy || s.fab.podNs < r.since + 100000 || canDispatch s l || bs = []
       || ctxHeld s l.part l.ctx || !tenantRuns s fn
       || !canDispatch (without s (bs.map Prod.fst)) l
       || s.sched.pre.any (fun p => p.why = .prio l.id l.next) then none
    else some (l, (bs.map (fun e => e.2.ctx)).eraseDups)
  | _, _ => none
/-- PRIORITY_PREEMPTION (R159). -/
def prioOp (s : State) (fn q : Nat) : State :=
  match prioDue s fn q with
  | none => s
  | some (l, cs) => cs.foldl (fun s c => preempt s l.part c (.prio l.id l.next) (fun a g => inTheWay l a g && g.prio ≤ 1)) s
def execPriorityPreemption (fn q : Nat) (s : State) : Host.Outcome State Fault Refusal := .next (progress (prioOp s fn q))

end Sys2Proof.Machine
end

