-- ==== Sys2Proof/Machine/Reset.lean ====
section
/-! DEFINITION. Resets of functions and tenants, reset marks between the devices of a partition, and the queue watchdog (05 R118 to R120; 06
R130, R139; 04 R101). -/

namespace Sys2Proof.Machine

/-! ## Checkpoint marks (Table 6-5). -/

def markPayload (ctick ckno op ten ngen : Nat) : BitVec 256 :=
  BitVec.ofNat 256 (ctick % 2 ^ 48 * 2 ^ 208 + ckno % 2 ^ 32 * 2 ^ 160 + op * 2 ^ 152 + ten * 2 ^ 144 + ngen * 2 ^ 128)
def markTick (f : Flit) : Nat := fld f.payload 255 208
def markCkno (f : Flit) : Nat := fld f.payload 191 160
def markOp (f : Flit) : Nat := fld f.payload 159 152
def markTen (f : Flit) : Nat := fld f.payload 151 144
def markNgen (f : Flit) : BitVec 16 := f.payload.extractLsb' 128 16
/-- Queue a mark to devices. -/
def sendMark (s : State) (part : Nat) (gen : BitVec 16) (dest : List Nat) (p : BitVec 256) : State :=
  if dest = [] then s else mpEnqueue s ⟨mkFlit s part gen (maskOf 144 dest) 4 p, none⟩

/-! ## The tenant reset (R130). -/

/-- Context keys of a function. -/
def keysOf (s : State) (fn : Nat) : List Nat := (s.xl.ctxs.filter (fun c => c.fn = fn)).map ctxKey
/-- The partition a function belongs to. -/
def partOfFn (s : State) (fn : Nat) : Nat := ((func s fn).map (fun f => f.part.toNat)).getD 0xFFFF
/-- A far write, atomic or compare-and-swap of one of the contexts is outstanding (step 4). -/
def writesOut (s : State) (keys : List Nat) : Bool :=
  (allEntries s).any (fun e => keys.contains e.ctx && e.pkt.kind ≠ 0x10 && (match e.owner with
    | .inval _ => false
    | .grant _ => false
    | .resv _ _ => false
    | _ => true))
  || s.host.reads.any (fun r => keys.contains r.ctx && (match r.act with
      | .atomic _ _ _ _ _ => true
      | .ioAtom _ _ => true
      | _ => false))
/-- The read tags of a tenant's halted agents, claims and translations are released: what still answers finds none (R80, R475). -/
def dropTags (s : State) (fn : Nat) : State :=
  let mine (e : Entry) : Bool := e.fn = fn && (match e.ref with
    | .tag _ => true
    | .seq _ _ _ => false)
  let dead (e : Entry) : Option (BitVec 24 × Nat × Nat) := match e.ref with
    | .tag t => if e.fn = fn then some (t, e.pkt.tgt.toNat, fn) else none
    | .seq _ _ _ => none
  { s with fab := { s.fab with entries := s.fab.entries.filter (fun e => !mine e), deadTags := s.fab.entries.filterMap dead ++ s.fab.deadTags } }
/-- Steps 1 and 2: warps, streams, blocks and every queued record of the tenant go; nothing is saved. -/
def dropWork (s : State) (fn : Nat) : State :=
  let gone := (s.agents.filter (fun e => e.2.fn = fn)).map Prod.fst
  let s := dropTokens s (fun g => g.fn = fn)
  let s := gone.foldl (fun s a => withdraw (popLeave s a (fun _ => true)) a) s
  let ls := (s.sched.launches.filter (fun l => l.fn = fn)).map Launch.id
  let keys := keysOf s fn
  let qs := (s.net.qps.filter (fun q => q.fn = fn)).map Qp.qpn
  let ops := (s.net.inops.filter (fun o => qs.contains o.qpn)).map InOp.n
  let js := (s.sched.joins.filter (fun j => j.fn = fn)).map JoinDec.n
  let dead (w : IoWho) : Bool := match w with
    | .queue f _ => f = fn
    | .node f _ _ => f = fn
    | .join n => js.contains n
    | .agent a => gone.contains a
    | .qp n => qs.contains n
    | .back n => qs.contains n
    | .inop n => ops.contains n
    | .side a => gone.contains a
    | .claim id => (claimAt s id).any (fun c => keys.contains c.ctx)
    | .reg f _ => f = fn
    | .peer => false
  let conts := keepConts s (fun c => c.fn ≠ fn)
  let s := dropTags s fn
  { s with
    agents := s.agents.filter (fun e => e.2.fn ≠ fn)
    blocks := s.blocks.filter (fun e => !keys.contains (ckey e.2.part e.2.ctx))
    waiting := s.waiting.filter (fun a => !gone.contains a)
    net := { s.net with inops := s.net.inops.filter (fun o => !qs.contains o.qpn)
                        qps := s.net.qps.map (fun q => if q.fn = fn then qpReset q else q) }
    sched := { s.sched with
      rings := s.sched.rings.filter (fun r => r.fn ≠ fn)
      launches := s.sched.launches.filter (fun l => l.fn ≠ fn)
      teams := s.sched.teams.filter (fun t => !ls.contains t.launch)
      conts := conts
      resvs := s.sched.resvs.filter (fun r => conts.any (fun c => c.id = r.2.2))
      graphs := s.sched.graphs.filter (fun g => g.fn ≠ fn)
      fences := s.sched.fences.filter (fun f => f.fn ≠ fn)
      faults := s.sched.faults.filter (fun f => f.fn ≠ fn)
      joins := s.sched.joins.filter (fun j => j.fn ≠ fn)
      ios := s.sched.ios.filter (fun i => !dead i.who)
      pre := s.sched.pre.filter (fun p => !keys.contains (ckey p.part p.ctx)) } }
/-- Step 3: every claim of the contexts is released (Table 22-5). -/
def dropClaims (s : State) (keys : List Nat) : State :=
  s.eng.slots.foldl (fun s (id, sl) => match sl.claim with
    | some c => if keys.contains c.ctx then freeSlot s id else s
    | none => s) s
/-- Held exports, images and undo logs of a tenant go. -/
def dropTenantCk (s : State) (part fn : Nat) : State :=
  modCk s part (fun c => { c with
    exports := c.exports.filter (fun e => e.2.1 ≠ fn), undo := c.undo.filter (fun u => u.1 ≠ fn), images := c.images.filter (fun i => i.1 ≠ fn),
    cand := if c.tenant = fn then none else c.cand, undoWait := c.undoWait.filter (fun w => w.1 ≠ fn) })
/-- Step 5: the yard slices of the partition's clusters, when the tenant ran there. -/
def clearYard (s : State) (part : Nat) : State :=
  let keep (k : Nat) : Bool := (List.range 4).all (fun d => !(clustersOf s part d).any (fun c => yardKey d c 0 ≤ k && k < yardKey d (c + 1) 0))
  { s with mem := { s.mem with yard := s.mem.yard.filter (fun e => keep e.1), poison := s.mem.poison.filter (fun p => !p.2 || keep (64 * p.1)) } }
/-- Step 6: contexts with their tables, translations, populations, notice groups and regions. -/
def dropObjects (s : State) (fn : Nat) (keys : List Nat) : State :=
  let s := invalsForget s fn
  { s with
    xl := { s.xl with
      ctxs := s.xl.ctxs.filter (fun c => c.fn ≠ fn), cache := s.xl.cache.filter (fun x => !keys.contains x.ctx), wents := s.xl.wents.filter (fun x => !keys.contains x.ctx)
      walks := s.xl.walks.filter (fun w => !keys.contains w.ctx), faults := s.xl.faults.filter (fun f => !keys.contains f.ctx)
      grants := s.xl.grants.filter (fun r => !keys.contains r.ctx), dir := s.xl.dir.filter (fun d => !keys.contains d.ctx)
      fwds := s.xl.fwds.filter (fun f => !keys.contains f.q.ctx), migs := s.xl.migs.filter (fun m => !keys.contains m.ctx) }
    pop := s.pop.filter (fun p => !keys.contains p.1.1)
    ntc := { s.ntc with groups := s.ntc.groups.filter (fun g => g.fn ≠ fn) }
    net := { s.net with mrs := s.net.mrs.filter (fun m => m.fn ≠ fn) } }
/-- Steps 1 to 3 of the tenant reset of R130 on this device. -/
def tenantReset (s : State) (fn : Nat) : State :=
  dropTenantCk (dropClaims (dropWork s fn) (keysOf s fn)) (partOfFn s fn) fn
/-- Steps 5 and 6, once the tenant's writes have ended. When its slice has ended meanwhile, the yard is the next tenant's already. -/
def tenantClear (s : State) (r : ResetOp) : State :=
  dropObjects (if r.ran && runVf s r.part = some r.fn then clearYard s r.part else s) r.fn r.ctxs

/-! ## Function resets (R118, R119). -/

/-- The number of no function: what completes nowhere. -/
def noFn : Nat := 0x10000

def sat32n (x : W32) (n : Nat) : W32 := BitVec.ofNat 32 (min (x.toNat + n) 0xFFFFFFFF)
/-- What a function's commands in progress still do is done, but they complete nowhere (R119): no later command of the same cookie is
taken for one of them. -/
def forgetCmds (s : State) (fn : Nat) : State :=
  let what (w : InvalFor) : InvalFor := match w with
    | .cmd f c m => .cmd (if f = fn then noFn else f) c m
    | .home f c p es => .home (if f = fn then noFn else f) c p es
    | w => w
  let why (w : PreWhy) : PreWhy := match w with
    | .destroy f c => .destroy (if f = fn then noFn else f) c
    | w => w
  { s with
    xl := { s.xl with invals := s.xl.invals.map (fun i => { i with what := what i.what })
                      migs := s.xl.migs.map (fun m => if m.fn = fn then { m with fn := noFn } else m) }
    sched := { s.sched with pre := s.sched.pre.map (fun p => { p with why := why p.why }) }
    part := { s.part with tokCmd := s.part.tokCmd.filter (fun t => t.2.1 ≠ fn), holdCmd := if fn = 0 then [] else s.part.holdCmd }
    host := { s.host with resets := if fn = 0 then s.host.resets.map (fun r => { r with cmd := none }) else s.host.resets } }
/-- The function reads its queues no longer, and requests already read complete nowhere. -/
def stopQueues (s : State) (fn : Nat) : State :=
  let s := forgetCmds (modFunc s fn (fun f => { f with reading := false })) fn
  { s with host := { s.host with ctlQ := s.host.ctlQ.filter (fun c => c.1 ≠ fn), busy := s.host.busy.filter (fun b => b.1 ≠ fn) } }
/-- Step 1: the records held for the function are discarded and counted as well. -/
def stopReading (s : State) (fn : Nat) : State :=
  modFunc (stopQueues s fn) fn (fun f => { f with evlost := sat32n f.evlost f.held.length, held := [], lost := 0 })
/-- Step 2: the next generation (R129). -/
def nextGen (s : State) (fn : Nat) : State := cfgChange (modFunc s fn (fun f => { f with gen := genNext f.gen })) fn
/-- Step 4: the device status reads 0, and the driver may begin again. After a bring-up that failed DEVICE_NEEDS_RESET stays set (R22; DESIGN
CHOICE, log 23: R119 says 0 of every reset). -/
def statusZero (s : State) (fn : Nat) : State :=
  modFunc s fn (fun f => { f with status := 0, needsReset := s.mod.fault ≠ 0, resetSeen := false, features := 0, seq := 0, buffers := 0, config := [], vqs := [], isr := 0 })
/-- Send the RESET mark of a reset to the devices that have not answered (R120). -/
def sendReset (s : State) (r : ResetOp) : State :=
  match func s r.fn with
  | some f => sendMark s f.part.toNat r.old r.wait (markPayload 0 0 5 r.fn r.ngen.toNat)
  | none => s
/-- Begin a reset that carries a new generation: steps 2 and 3, and its marks. -/
def beginReset (s : State) (fn : Nat) (cmd : Option W64) (quiet : Bool) : State :=
  match func s fn with
  | none => s
  | some f =>
    let keys := keysOf s fn
    let r : ResetOp := ⟨fn, cmd, otherDevs s f.part.toNat, none, f.gen, genNext f.gen, keys, s.fab.podNs, quiet, f.part.toNat, tenantRuns s fn⟩
    let s := tenantReset (nextGen s fn) fn
    sendReset { s with host := { s.host with resets := s.host.resets ++ [r] } } r
/-- A driver reset after a received RESET mark: no new generation, and no mark (R120). -/
def beginLocalReset (s : State) (fn : Nat) : State :=
  let r : ResetOp := ⟨fn, none, [], none, fnGen s fn, fnGen s fn, keysOf s fn, s.fab.podNs, false, partOfFn s fn, tenantRuns s fn⟩
  let s := tenantReset s fn
  { s with host := { s.host with resets := s.host.resets ++ [r] } }
/-- A reset of the PF: steps 1, 2 and 4 (R119). -/
def resetPf (s : State) : State := statusZero (nextGen (stopReading s 0) 0) 0
/-- Writing 0 to the device status (R118). -/
def driverReset (s : State) (fn : Nat) : State :=
  match func s fn with
  | none => s
  | some f =>
    if fn = 0 then resetPf s
    else
      let s := stopReading s fn
      if f.needsReset && f.resetSeen then beginLocalReset s fn else beginReset s fn none false
/-- DEVICE_STATUS_RESET (R118). -/
def execDeviceStatusReset (fn : Nat) (s : State) : Host.Outcome State Fault Refusal := .next (progress (driverReset s fn))
/-- FUNCTION_LEVEL_RESET (R118): the PCI configuration returns to its reset values as well. -/
def flrOp (s : State) (fn : Nat) : State := driverReset (modFunc s fn (fun f => { f with bar0 := 4, msix := false })) fn
def execFunctionLevelReset (fn : Nat) (s : State) : Host.Outcome State Fault Refusal := .next (progress (flrOp s fn))

/-! ## The end of a reset. -/

/-- Nothing more is waited for: every other device has answered, and the tenant's writes have ended. -/
def resetDone (s : State) (r : ResetOp) : Bool := r.wait = [] && !writesOut s r.ctxs
/-- The reset ends: steps 5 and 6 of R130, then the mark is answered, the watchdog's function needs a reset, or the status reads 0 and the command completes. -/
def resetEnd (s : State) (r : ResetOp) : State :=
  let s := tenantClear { s with host := { s.host with resets := s.host.resets.filter (fun x => x ≠ r) } } r
  match func s r.fn with
  | none => s
  | some f => match r.answer with
    | some d => sendMark s f.part.toNat r.ngen [d] (markPayload 0 0 2 r.fn r.ngen.toNat)
    | none =>
      if r.quiet then modFunc s r.fn (fun f => { f with needsReset := true, resetSeen := false })
      else
        let s := statusZero s r.fn
        match r.cmd with
        | some c => cmdEnd s 0 c 0 0 []
        | none => s
/-- Every reset that can end does. -/
def resetsEnd (s : State) : State := (s.host.resets.filter (resetDone s)).foldl resetEnd s

/-! ## Marks received (R120). -/

/-- RESET_MARK (R120). -/
def resetMarkOp (s : State) (f : Flit) : State :=
  let fn := markTen f
  let ng := markNgen f
  let dev := f.src.toNat
  match func s fn with
  | none => s
  | some x =>
    if f.kind ≠ 4 || markOp f ≠ 5 || fn = 0 || x.part ≠ f.part then s
    else if genCmp ng.toNat x.gen.toNat = .newer then
      let r : ResetOp := ⟨fn, none, [], some dev, x.gen, ng, keysOf s fn, s.fab.podNs, true, x.part.toNat, tenantRuns s fn⟩
      let s := cfgChange (modFunc (stopReading s fn) fn (fun y => { y with gen := ng })) fn
      let s := modFunc (tenantReset s fn) fn (fun y => { y with needsReset := true, resetSeen := true })
      resetsEnd { s with host := { s.host with resets := s.host.resets ++ [r] } }
    else if s.host.resets.any (fun r => r.fn = fn && r.answer = some dev && r.ngen = ng) then s
    else sendMark s f.part.toNat ng [dev] (markPayload 0 0 2 fn ng.toNat)
def execResetMark (f : Flit) (s : State) : Host.Outcome State Fault Refusal := .next (progress (resetMarkOp s f))
/-- A DONE mark that answers a RESET: counted once for each device (R120). -/
def resetAnswered (s : State) (f : Flit) : State :=
  resetsEnd { s with host := { s.host with resets := s.host.resets.map (fun r =>
    if r.fn = markTen f && r.ngen = markNgen f then { r with wait := r.wait.filter (fun d => d ≠ f.src.toNat) } else r) } }
/-- A mark of a function is to be sent again: 10 µs have passed. -/
def resendDue (s : State) (r : ResetOp) : Bool := r.wait ≠ [] && r.sentAt + 10000 ≤ s.fab.podNs
/-- RESET_MARK_RESEND (R120). -/
def resetResendOp (s : State) (fn : Nat) : State :=
  let due := s.host.resets.filter (fun r => r.fn = fn && resendDue s r)
  let s := { s with host := { s.host with resets := s.host.resets.map (fun r => if due.contains r then { r with sentAt := s.fab.podNs } else r) } }
  due.foldl sendReset s
def execResetMarkResend (fn : Nat) (s : State) : Host.Outcome State Fault Refusal := .next (progress (resetResendOp s fn))

/-! ## The watchdog (R139). -/

/-- Nanoseconds the head packet of a ring has been unfinished, in its tenant's slices. -/
def ringCount (s : State) (r : Ring) : Nat := r.count + if tenantRuns s r.fn then s.fab.podNs - r.since else 0
def expired (s : State) (r : Ring) : Bool := r.period ≠ 0 && (headReq r).isSome && tenantRuns s r.fn && r.period * 1000 ≤ ringCount s r
/-- The record of step 1: one and the same to the PF and to the owning VF (R476), which is written before the VF stops reading and is held
for no commit (R114). -/
def watchdogRecord (s : State) (fn : Nat) (r : EvRec) : State := takeEvent (takeEvent s { r with fn := 0 }) { r with fn := fn }
/-- WATCHDOG_EXPIRY (R139). -/
def watchdogOp (s : State) (fn q : Nat) : State :=
  match ringAt s fn q with
  | none => s
  | some r =>
    if !expired s r then s
    else
      let ctx := ((headReq r).map (fun x => x.hdr.ctxid.toNat)).getD 0xFFFF
      let s := watchdogRecord s fn ⟨fn, 0x09, 0, (fnGen s fn).toNat, ctx, s.fab.podNs, payWords [q + r.pkt * 65536]⟩
      resetsEnd (beginReset (stopQueues s fn) fn none true)
def execWatchdogExpiry (fn q : Nat) (s : State) : Host.Outcome State Fault Refusal := .next (progress (watchdogOp s fn q))

end Sys2Proof.Machine
end

