-- ==== Sys2Proof/Machine/Ckpt.lean ====
section
/-! DEFINITION. Checkpoints of time-shared partitions: cuts, commits, slice ends and rollback (06 R134 to R138; 04 R97). -/

namespace Sys2Proof.Machine

/-! ## Devices of a partition. -/

/-- The partition's leader: the lowest device of DEVS (R124). -/
def leaderDev (p : Part) : Nat := ((List.range 144).find? (fun d => p.devs.getLsbD d)).getD 0
def isLeader (s : State) (p : Part) : Bool := leaderDev p = s.mod.poddev
/-- The cut announced has been performed on this device. -/
def cutMade (c : Ck) : Bool := c.cand.any (fun i => i.ckno = c.ckno)
/-- A cut of the agent's tenant has come to its tick and is not made yet. -/
def cutCome (s : State) (g : Agent) : Bool := match ckOf s g.part with
  | some c => c.cutTen = c.tenant && !cutMade c && c.ctick.any (fun t => t ≤ podTick s)
  | none => false
/-- An agent stands still for a cut whose tick has come: at a safe point it reaches within 600 ns, else at its next instruction boundary; a
stream at once (R132, R136). -/
def cutStop (s : State) (a : AgentId) (g : Agent) : Bool := match ckOf s g.part with
  | some c => c.cutTen = c.tenant && !cutMade c && c.ctick.any (fun t => t ≤ podTick s &&
      (isStream a || 125 * t + 600 ≤ s.fab.podNs || (safeHere s a g).isSome))
  | none => false
/-- Send a mark in two successive opportunities (R136). -/
def markTwice (s : State) (p : Part) (ten : Nat) (dest : List Nat) (m : BitVec 256) : State :=
  let send (s : State) : State := sendMark s p.part (fnGen s ten) dest m
  send (send s)

/-! ## Images. -/

/-- Keys of a partition's yard slices. -/
def inYard (s : State) (part k : Nat) : Bool :=
  (List.range 4).any (fun d => (clustersOf s part d).any (fun c => yardKey d c 0 ≤ k && k < yardKey d (c + 1) 0))
/-- An access belongs to the tenant's own state. -/
def ioOf (s : State) (fn : Nat) (w : IoWho) : Bool := match w with
  | .queue f _ => f = fn
  | .node f _ _ => f = fn
  | .join n => s.sched.joins.any (fun j => j.n = n && j.fn = fn)
  | .agent a => (agent s a).any (fun g => g.fn = fn)
  | .side a => (agent s a).any (fun g => g.fn = fn)
  | _ => false
def blankSnap (tick : Nat) : Snap :=
  { ckno := 0, tick := tick, iv := 0, agents := [], blocks := [], yard := [], pop := [], slots := [], rings := [], launches := [], teams := [],
    conts := [], graphs := [], fences := [], joins := [], ios := [], rqs := [], cqs := [] }
/-- The places a tenant's receive and completion queues have reached. -/
def netPlaces (s : State) (fn : Nat) : List (Nat × Nat) := (s.net.qps.filter (fun q => q.fn = fn)).map (fun q => (q.qpn, q.rqHead))
def cqPlaces (s : State) (fn : Nat) : List (Nat × Nat) := (s.net.cqs.filter (fun c => c.fn = fn)).map (fun c => (c.cq, c.tail))
/-- The image of a tenant's state as it stands (R136). -/
def snapOf (s : State) (part fn ckno tick iv : Nat) : Snap :=
  let keys := keysOf s fn
  let ls := (s.sched.launches.filter (fun l => l.fn = fn)).map Launch.id
  { ckno, tick, iv,
    agents := s.agents.filter (fun e => e.2.fn = fn), blocks := s.blocks.filter (fun e => keys.contains (ckey e.2.part e.2.ctx)),
    yard := s.mem.yard.filter (fun e => inYard s part e.1), pop := s.pop.filter (fun p => keys.contains p.1.1),
    slots := s.eng.slots.filter (fun e => e.2.claim.any (fun c => keys.contains c.ctx)),
    rings := s.sched.rings.filter (fun r => r.fn = fn), launches := s.sched.launches.filter (fun l => l.fn = fn),
    teams := s.sched.teams.filter (fun t => ls.contains t.launch), conts := s.sched.conts.filter (fun c => c.fn = fn),
    graphs := s.sched.graphs.filter (fun g => g.fn = fn), fences := s.sched.fences.filter (fun f => f.fn = fn),
    joins := s.sched.joins.filter (fun j => j.fn = fn), ios := s.sched.ios.filter (fun i => ioOf s fn i.who)
    rqs := netPlaces s fn, cqs := cqPlaces s fn }
def isPrio : PreWhy → Bool
  | .prio _ _ => true
  | _ => false
/-- The tenant's state leaves the device; its rings keep their requests. A pre-emption for priority ends with it. -/
def dropLive (s : State) (part fn : Nat) : State :=
  let gone := (s.agents.filter (fun e => e.2.fn = fn)).map Prod.fst
  let keys := keysOf s fn
  let ls := (s.sched.launches.filter (fun l => l.fn = fn)).map Launch.id
  let conts := keepConts s (fun c => c.fn ≠ fn)
  let ios := s.sched.ios.filter (fun i => !ioOf s fn i.who)
  let s := gone.foldl withdraw (dropTokens s (fun g => g.fn = fn))
  let s := dropClaims s keys
  { s with
    agents := s.agents.filter (fun e => e.2.fn ≠ fn)
    blocks := s.blocks.filter (fun e => !keys.contains (ckey e.2.part e.2.ctx))
    pop := s.pop.filter (fun p => !keys.contains p.1.1)
    mem := { s.mem with yard := s.mem.yard.filter (fun e => !inYard s part e.1) }
    sched := { s.sched with
      launches := s.sched.launches.filter (fun l => l.fn ≠ fn), teams := s.sched.teams.filter (fun t => !ls.contains t.launch)
      conts := conts, resvs := s.sched.resvs.filter (fun r => conts.any (fun c => c.id = r.2.2))
      graphs := s.sched.graphs.filter (fun g => g.fn ≠ fn), fences := s.sched.fences.filter (fun f => f.fn ≠ fn)
      joins := s.sched.joins.filter (fun j => j.fn ≠ fn), ios := ios
      pre := (s.sched.pre.filter (fun p => !(keys.contains (ckey p.part p.ctx) && isPrio p.why))).map (fun p =>
        { p with agents := p.agents.filter (fun a => !gone.contains a) }) } }
/-- A claim as it is restored: buffers and routes are gone, a ready or flowing one is parked (R138). -/
def restoreClaim (c : Claim) : Claim :=
  let c := { c with routed := false, queued := false, denied := false }
  if c.st = .ready || c.st = .flowing then { c with st := .parked, legs := [] } else c
/-- A warp or stream as it is restored: FARW counts the writes still outstanding, and no engine runs. -/
def restoreAgent (s : State) (a : AgentId) (g : Agent) : Agent :=
  let n := ((allEntries s).filter (fun e => isWriteEntry e && ownerAgent e.owner = some a && e.born = g.born)).length
  { farwSet g n with haltForm := .no, haltReq := none, logged := [], waitSince := s.fab.cycles, tried := s.fab.cycles, mpSt := if g.mpSt = .queued then .none else g.mpSt, mx := { g.mx with running := false } }
/-- An access of an image whose answer can still come, or has. -/
def ioLives (s : State) (i : Io) : Bool :=
  i.st ≠ .out || (allEntries s).any (fun e => match e.owner with
    | .io n _ => n = i.n
    | _ => false) || s.host.reads.any (fun r => match r.act with
    | .io n => n = i.n
    | .ioAtom n _ => n = i.n
    | _ => false)
/-- A ring at the position of an image; one the image lacks starts from its first request. -/
def ringBack (i : Snap) (r : Ring) : Ring :=
  match i.rings.find? (fun x => x.q = r.q) with
  | some x => { r with idx := x.idx, pkt := x.pkt, off := x.off, busy := x.busy, period := x.period,
                       count := if x.idx = r.idx && x.pkt = r.pkt then r.count else x.count }
  | none => { r with idx := 0, pkt := 0, off := 0, busy := false, period := 0, count := 0 }
/-- A tenant's image becomes its state. -/
def loadSnap (s : State) (fn : Nat) (i : Snap) : State :=
  let put (m : List (ClaimId × Slot)) (e : ClaimId × Slot) : List (ClaimId × Slot) := ins m e.1 ⟨e.2.gen, e.2.claim.map restoreClaim⟩
  { s with
    agents := s.agents ++ i.agents.map (fun e => (e.1, restoreAgent s e.1 e.2))
    blocks := s.blocks ++ i.blocks.map (fun b => (b.1, { b.2 with halted := false }))
    pop := s.pop ++ i.pop
    mem := { s.mem with yard := i.yard.foldl (fun m e => mset m e.1 e.2) s.mem.yard }
    eng := { s.eng with slots := i.slots.foldl put s.eng.slots }
    sched := { s.sched with
      rings := s.sched.rings.map (fun r => if r.fn = fn then { r with since := s.fab.podNs } else r)
      launches := s.sched.launches ++ i.launches, teams := s.sched.teams ++ i.teams, conts := s.sched.conts ++ i.conts
      graphs := s.sched.graphs ++ i.graphs, fences := s.sched.fences ++ i.fences, joins := s.sched.joins ++ i.joins
      ios := s.sched.ios ++ i.ios.filter (ioLives s) } }

/-! ## Releasing exports (R137). -/

/-- A held write or atomic toward this device's host is made (R347). -/
def hostExport (s : State) (e : Entry) : State :=
  let pasid := ((ctxByKey s e.ctx).map Ctx.pasid).getD 0
  match e.owner, e.pkt.body with
  | .store a, .write accs => farwDec (accs.foldl (fun s x => hostPost s pasid (x.1 - hostTag) x.2) s) a e
  | .io n _, .write accs => ioSet (ioEnd (accs.foldl (fun s x => hostPost s pasid (x.1 - hostTag) x.2) s) e) n (.got [] false)
  | .atomic a id ls o q, b => match pktReq b with
    | some (pa, _, _) => hostRead (farwDec s a e) e.ctx pasid (pa - hostTag) (Ty.bytes (reqTy q)) e.vas (.atomic a id ls o q) (e.born, e.launch)
    | none => s
  | .io n _, b => match pktReq b with
    | some (pa, _, q) => let s := ioEnd s e; { s with host := { s.host with reads := s.host.reads ++ [⟨n, e.ctx, pasid, pa - hostTag, Ty.bytes (reqTy q), .ioAtom n q, e.vas, [], e.born, e.launch⟩] } }
    | none => s
  | _, _ => s
def release (s : State) (x : Export) : State :=
  match x with
  | .pkt e => if e.pkt.tgt = selfDev s then hostExport s e else sendSeq s e
  | .used u => if (func s u.fn).any (fun f => f.reading) then putUsed s u else s
  | .event r => if r.kind = 0x0B then lostRelease s r else takeEvent s r
  | .flit m => mpEnqueue s m
  | .net w => { s with net := { s.net with wire := s.net.wire ++ [w] } }

/-! ## Commit (R136). -/

/-- A ring without the requests that finished before a cut. -/
def trimRing (i : Snap) (r : Ring) : Ring :=
  match i.rings.find? (fun x => x.q = r.q) with
  | some x => { r with reqs := r.reqs.drop x.idx, idx := r.idx - x.idx }
  | none => r
/-- The cut with a number commits on this device: older logs go, and the exports before its tick take effect. -/
def commitCut (s : State) (part ckno : Nat) : State :=
  match ckOf s part with
  | none => s
  | some c => match c.cand with
    | none => s
    | some i =>
      if i.ckno ≠ ckno then s
      else
        let ten := c.cutTen
        let (out, rest) := c.exports.partition (fun x => x.2.1 = ten && x.1 < i.tick)
        let img := { i with rings := i.rings.map (fun x => { x with reqs := [], idx := 0 }) }
        let s := { s with sched := { s.sched with rings := s.sched.rings.map (fun r => if r.fn = ten && ten = c.tenant then trimRing i r else r) } }
        let s := modCk s part (fun c => { c with
          ctick := none, cand := none, doneDev := [], images := ins c.images ten img, exports := rest
          undo := c.undo.filter (fun u => !(u.1 = ten && u.2.1 < i.iv)), lines := c.lines.filter (fun u => !(u.1 = ten && u.2.1 < i.iv))
          askAt := c.askAt.filter (fun t => i.tick ≤ t) })
        out.foldl (fun s x => release s x.2.2) s
/-- Every device is done: the leader commits. -/
def tryCommit (s : State) (part : Nat) : State :=
  match partOf s part, ckOf s part with
  | some p, some c =>
    let others := otherDevs s part
    if isLeader s p && c.ctick.isSome && cutMade c && others.all (fun d => c.doneDev.contains d) then
      commitCut (markTwice s p c.cutTen others (markPayload (c.ctick.getD 0) c.ckno 3 c.cutTen 0)) part c.ckno
    else s
  | _, _ => s

/-! ## Cuts (R136). -/

/-- Flows of the tenant have ended, and its far writes to owned memory are acknowledged or abandoned. -/
def cutQuiet (s : State) (fn : Nat) : Bool :=
  let keys := keysOf s fn
  !s.eng.slots.any (fun e => e.2.claim.any (fun c => keys.contains c.ctx && running c))
  && !(s.fab.entries ++ s.fab.waitQ).any (fun e => keys.contains e.ctx && e.pkt.kind ≠ 0x10 && e.pkt.tgt.toNat < 144
    && (isWriteEntry e || (match e.owner with
      | .io _ _ => true
      | _ => false))
    && (match e.pkt.body with
      | .write accs => accs.any (fun x => x.1 < hostTag)
      | b => (pktReq b).any (fun r => r.1 < hostTag)))
/-- Announce a cut of a tenant. -/
def announce (s : State) (p : Part) (ten ctick : Nat) : State :=
  let n := ((ckOf s p.part).map Ck.ckno).getD 0 + 1
  let s := modCk s p.part (fun c => { c with ckno := n, ctick := some ctick, cutTen := ten, doneDev := [] })
  markTwice s p ten (otherDevs s p.part) (markPayload ctick n 1 ten 0)
/-- The tick of the next cut: CKPT µs after the last one, or sooner on a request (R136). -/
def cutTickFor (s : State) (p : Part) (c : Ck) : Nat :=
  let periodic := c.lastCut + 8 * p.ckpt
  let t := match c.askAt with
    | some a => min periodic (max (a + 4) (c.lastCut + 160))
    | none => periodic
  max t (podTick s + 4)
/-- A log of the running tenant on this device is seven-eighths full (R135). -/
def logHigh (s : State) (c : Ck) : Bool :=
  7 * undoRoom s c.part ≤ 8 * c.lines.length || s.agents.any (fun e => e.2.part = c.part && 57344 ≤ regLogUsed s e.1)
/-- The leader is to schedule a cut: one is asked for, a log is nearly full, or the period ends within 8 ticks. -/
def cutDue (s : State) (part : Nat) : Bool := match partOf s part, ckOf s part with
  | some p, some c => isLeader s p && s.fab.synced && c.ctick.isNone && (c.askAt.isSome || logHigh s c || c.lastCut + 8 * p.ckpt ≤ podTick s + 8)
  | _, _ => false
/-- CHECKPOINT_SCHEDULE (R136): where nothing is due here, another device's request arrives. -/
def scheduleOp (s : State) (part : Nat) : State :=
  match partOf s part, ckOf s part with
  | some p, some c =>
    if !isLeader s p || c.ctick.isSome || !s.fab.synced then s
    else
      let c := if cutDue s part && !logHigh s c then c else { c with askAt := some (c.askAt.getD (podTick s)) }
      announce s p c.tenant (cutTickFor s p c)
  | _, _ => s
def execCheckpointSchedule (part : Nat) (s : State) : Host.Outcome State Fault Refusal := .next (progress (scheduleOp s part))
/-- A tenant that is not running holds exports of this device. -/
def heldBy (c : Ck) (fn : Nat) : Option Nat := (c.exports.find? (fun x => x.2.1 = fn)).map Prod.fst
/-- The tick of a background cut of a tenant: 4 ticks after its first held export, and 20 µs after the latest such cut (R97). -/
def backTick (s : State) (c : Ck) (fn : Nat) : Nat :=
  max (max (((heldBy c fn).getD (podTick s)) + 4) (((lkp c.backs fn).map (· + 160)).getD 0)) (podTick s + 4)
def backgroundDue (s : State) (part fn : Nat) : Bool := match partOf s part, ckOf s part with
  | some p, some c => isLeader s p && s.fab.synced && c.ctick.isNone && fn ≠ c.tenant && !undoOpen s part fn && (heldBy c fn).isSome && p.order.contains fn
  | _, _ => false
/-- BACKGROUND_CUT (R97). -/
def backgroundOp (s : State) (part fn : Nat) : State :=
  match partOf s part, ckOf s part with
  | some p, some c =>
    if !isLeader s p || c.ctick.isSome || fn = c.tenant || !p.order.contains fn || !s.fab.synced then s
    else announce s p fn (backTick s c fn)
  | _, _ => s
def execBackgroundCut (part fn : Nat) (s : State) : Host.Outcome State Fault Refusal := .next (progress (backgroundOp s part fn))
/-- CUT_MARK (R136). -/
def cutMarkOp (s : State) (f : Flit) : State :=
  let part := f.part.toNat
  match partOf s part, ckOf s part with
  | some p, some c =>
    if f.kind ≠ 4 || markOp f ≠ 1 || isLeader s p || markCkno f = c.ckno || !p.order.contains (markTen f) then s
    else modCk s part (fun c => { c with ckno := markCkno f, ctick := some (markTick f), cutTen := markTen f })
  | _, _ => s
def execCutMark (f : Flit) (s : State) : Host.Outcome State Fault Refusal := .next (progress (cutMarkOp s f))
/-- The cut can be made: its tick has come, the tenant's agents stand still and its flows and writes have ended; nothing of the tenant is
still to be undone (R138). -/
def cutReady (s : State) (c : Ck) : Bool :=
  !cutMade c && c.ctick.any (fun t => t ≤ podTick s) && c.undoWait.all (fun w => w.1 ≠ c.cutTen)
  && (c.cutTen ≠ c.tenant || (cutQuiet s c.tenant && s.agents.all (fun e => e.2.fn ≠ c.tenant || e.2.ended || e.2.haltForm ≠ .no || cutStop s e.1 e.2)))
/-- CUT_TICK (R136, R97): the image is taken and new logs begin; a background cut renews the saved image. What was read of safe-point tables for it goes. -/
def cutTickOp (s : State) (part : Nat) : State :=
  match partOf s part, ckOf s part with
  | some p, some c =>
    if !cutReady s c then s
    else
      let t := c.ctick.getD 0
      let iv := c.cutNo + 1
      let img := if c.cutTen = c.tenant then snapOf s part c.tenant c.ckno t iv
                 else { (lkp c.images c.cutTen).getD (blankSnap t) with ckno := c.ckno, tick := t, iv := iv, rqs := netPlaces s c.cutTen, cqs := cqPlaces s c.cutTen }
      let s := modCk s part (fun c => { c with
        cand := some img, cutNo := iv, lastCut := if c.cutTen = c.tenant then t else c.lastCut
        backs := if c.cutTen = c.tenant then c.backs else ins c.backs c.cutTen t })
      let fresh_ (e : AgentId × Agent) : AgentId × Agent := if e.2.fn = c.cutTen then (e.1, { e.2 with logged := [] }) else e
      let side (i : Io) : Bool := match i.who with
        | .side _ => true
        | _ => false
      let s := { s with agents := s.agents.map fresh_, sched := { s.sched with ios := s.sched.ios.filter (fun i => !side i) } }
      if isLeader s p then tryCommit s part
      else sendMark s p.part (fnGen s c.cutTen) [leaderDev p] (markPayload t c.ckno 2 c.cutTen 0)
  | _, _ => s
def execCutTick (part : Nat) (s : State) : Host.Outcome State Fault Refusal := .next (progress (cutTickOp s part))
/-- DONE_MARK (R136, R120): a device is done with a cut, or answers a RESET. -/
def doneMarkOp (s : State) (f : Flit) : State :=
  if f.kind ≠ 4 || markOp f ≠ 2 then s
  else if markNgen f ≠ 0 then resetAnswered s f
  else
    let part := f.part.toNat
    tryCommit (modCk s part (fun c => if c.ctick.isSome && c.ckno = markCkno f then { c with doneDev := c.doneDev ++ [f.src.toNat] } else c)) part
def execDoneMark (f : Flit) (s : State) : Host.Outcome State Fault Refusal := .next (progress (doneMarkOp s f))
/-- COMMIT_MARK (R137). -/
def commitMarkOp (s : State) (f : Flit) : State :=
  if f.kind ≠ 4 || markOp f ≠ 3 then s else commitCut s f.part.toNat (markCkno f)
def execCommitMark (f : Flit) (s : State) : Host.Outcome State Fault Refusal := .next (progress (commitMarkOp s f))
def cutLate (s : State) (c : Ck) : Bool := c.ctick.any (fun t => t + 160 ≤ podTick s)
/-- CUT_TIMEOUT (R136): 20 µs after CTICK the interval simply continues. -/
def cutTimeoutOp (s : State) (part : Nat) : State := modCk s part (fun c => if cutLate s c then { c with ctick := none, doneDev := [] } else c)
def execCutTimeout (part : Nat) (s : State) : Host.Outcome State Fault Refusal := .next (progress (cutTimeoutOp s part))

/-! ## Slice ends (R138). -/

/-- A tenant has queued packets or resident work on this device. -/
def hasWork (s : State) (c : Ck) (fn : Nat) : Bool :=
  s.sched.rings.any (fun r => r.fn = fn && (headReq r).isSome)
  || (lkp c.images fn).any (fun i => i.agents ≠ [] || i.blocks ≠ [] || i.conts ≠ [] || i.launches ≠ [] || i.graphs ≠ [])
/-- The tenant whose turn is next: the first after the running one in ORDER that has work. -/
def nextTenant (s : State) (p : Part) (c : Ck) : Option Nat :=
  let i := (p.order.findIdx? (fun v => v = c.tenant)).getD 0
  ((p.order.drop (i + 1)) ++ p.order.take i).find? (hasWork s c)
/-- The slice is over, and the next tenant may begin: its memory is undone (R138) and no background cut of it is under way (R97). -/
def sliceOver (s : State) (p : Part) (c : Ck) : Bool :=
  p.nten ≠ 0 && c.sliceEnd ≤ podTick s && (nextTenant s p c).all (fun t => !(c.ctick.isSome && t = c.cutTen) && c.undoWait.all (fun w => w.1 ≠ t))
/-- Notices of the tenant posted after a tick are withdrawn while pending. -/
def dropNotices (s : State) (part fn tick : Nat) : State :=
  let of_ (g : NGroup) (m : NMember) : Bool := m.part = part && (match ctxByKey s (ckey m.part m.ctx) with
    | some c => c.fn = fn
    | none => g.fn = fn)
  let mine (g : NGroup) (n : Notice) : Bool := (g.members[n.rank]?).any (of_ g) && n.out = 1 && tick < n.itick
  { s with ntc := { s.ntc with groups := s.ntc.groups.map (fun g => { g with notices := g.notices.filter (fun n => !mine g n) }) } }
/-- Undo a tenant's logged bytes of the intervals before a bound, newest first. -/
def undoBytes (s : State) (part ten bound : Nat) : State :=
  match ckOf s part with
  | none => s
  | some c =>
    let (back, rest) := c.undo.partition (fun u => u.1 = ten && u.2.1 < bound)
    let s := back.reverse.foldl (fun s u => hbmPut s u.2.2.1 [u.2.2.2]) s
    modCk s part (fun c => { c with undo := rest, lines := c.lines.filter (fun u => !(u.1 = ten && u.2.1 < bound))
                                    undoWait := c.undoWait.filter (fun w => w ≠ (ten, bound)) })
/-- A far write that another device sent for the tenant before its slice ended may still arrive (R38, R39). -/
def lateWrites (s : State) (c : Ck) (fn : Nat) : Bool :=
  otherDevs s c.part ≠ [] && c.before.any (fun b => b.1 = fn && s.fab.podNs ≤ 125 * b.2 + 46000)
/-- Step 6: once the tenant's writes have ended, its HBM lines are undone. -/
def undoNext (s : State) (c : Ck) : Option (Nat × Nat) := c.undoWait.find? (fun w => !writesOut s (keysOf s w.1) && !lateWrites s c w.1)
def undoReady (s : State) (c : Ck) : Bool := (undoNext s c).isSome
def undoStep (s : State) (part : Nat) : State :=
  match (ckOf s part).bind (undoNext s) with
  | some w => undoBytes s part w.1 w.2
  | none => s
/-- The network objects of a tenant go back with it: incoming requests not yet answered end (R96), and the receive and completion queues
return to their places at the image, but not before a requester completion, which survives (R135; DEDUCED, log 62). -/
def netRollback (s : State) (fn : Nat) (i : Snap) : State :=
  let s := dropInops s ((s.net.qps.filter (fun q => q.fn = fn)).map Qp.qpn)
  let rq (q : Qp) : Qp := if q.fn = fn then
      { q with sq := q.sq.take q.sent ++ (q.sq.drop q.sent).filter (fun w => w.tick < i.tick), rqHead := (lkp i.rqs q.qpn).getD q.rqHead } else q
  let cq (c : Cq) : Cq := if c.fn = fn then { c with tail := max c.keep ((lkp i.cqs c.cq).getD c.tail) } else c
  { s with net := { s.net with qps := s.net.qps.map rq, cqs := s.net.cqs.map cq } }
/-- Contexts of a partition under HOLD stay halted when their tenant's image is loaded (R125). -/
def holdLoaded (s : State) (part : Nat) : State :=
  (s.sched.pre.filter (fun p => p.part = part && p.why = .hold)).foldl (fun s p =>
    let as := ctxAgents s p.part p.ctx (fun _ _ => true)
    let s := as.foldl (fun s a => modAgent s a (fun g => { g with haltForm := .boundary, haltReq := some s.fab.podNs })) s
    let q := { p with agents := as }
    saveOne { s with sched := { s.sched with pre := s.sched.pre.map (fun x => if x = p then q else x) } } q) s
/-- The outgoing tenant rolls back and the incoming one is loaded. -/
def switchTenant (s : State) (p : Part) (c : Ck) (inc : Nat) : State :=
  let out := c.tenant
  let next := c.sliceEnd + 8 * p.slice
  let img := (lkp c.images out).getD (blankSnap 0)
  let stop (r : Ring) : Ring := if r.fn = out then ringBack img { r with count := ringCount s r } else r
  let s := { s with sched := { s.sched with rings := s.sched.rings.map stop } }
  let s := dropNotices (dropLive s p.part out) p.part out img.tick
  let s := modCk s p.part (fun c => { c with
    exports := c.exports.filter (fun x => x.2.1 ≠ out), ctick := none, cand := none, doneDev := [], askAt := none, cutNo := c.cutNo + 1
    undoWait := c.undoWait ++ [(out, c.cutNo + 1)], backs := c.backs.filter (fun b => b.1 ≠ out), tenant := inc, before := some (out, c.sliceEnd), sliceEnd := next })
  let s := loadSnap (netRollback s out img) inc ((lkp c.images inc).getD (blankSnap 0))
  undoStep (if p.hold then holdLoaded s p.part else s) p.part
/-- SLICE_END (R138): on the leader; with no other tenant that has work the slice goes on. -/
def sliceEndOp (s : State) (part : Nat) : State :=
  match partOf s part, ckOf s part with
  | some p, some c =>
    if !isLeader s p || !sliceOver s p c then s
    else match nextTenant s p c with
      | none => modCk s part (fun c => { c with sliceEnd := c.sliceEnd + 8 * p.slice })
      | some inc =>
        let s := markTwice s p c.tenant (otherDevs s part) (markPayload c.sliceEnd (commNoOf c c.tenant) 4 c.tenant 0)
        switchTenant s p c inc
  | _, _ => s
def execSliceEnd (part : Nat) (s : State) : Host.Outcome State Fault Refusal := .next (progress (sliceEndOp s part))
/-- The tenant after the running one in ORDER. -/
def turnAfter (p : Part) (c : Ck) : Nat :=
  let i := (p.order.findIdx? (fun v => v = c.tenant)).getD 0
  ((p.order.drop (i + 1)) ++ p.order).headD c.tenant
/-- SLICEEND_MARK (R138): every device of the partition makes the switch; the mark names no incoming tenant, so a device that has no work
for another takes the next of ORDER (DEDUCED, log 62). A mark that names a cut this device has made but seen no COMMIT of commits it: the leader restores that checkpoint. -/
def sliceMarkOp (s : State) (f : Flit) : State :=
  let part := f.part.toNat
  match partOf s part, ckOf s part with
  | some p, some c =>
    if f.kind ≠ 4 || markOp f ≠ 4 || isLeader s p || markTen f ≠ c.tenant || c.seen.contains (markCkno f, markTick f) then s
    else
      let s := commitCut (modCk s part (fun c => { c with seen := [(markCkno f, markTick f)] })) part (markCkno f)
      let c := { (ckOf s part).getD c with sliceEnd := markTick f }
      switchTenant s p c ((nextTenant s p c).getD (turnAfter p c))
  | _, _ => s
def execSliceendMark (f : Flit) (s : State) : Host.Outcome State Fault Refusal := .next (progress (sliceMarkOp s f))

end Sys2Proof.Machine
end

