-- ==== Sys2Proof/Machine/Commands.lean ====
section
/-! DEFINITION. Control commands on contexts, translation, the network, tables and attestation (05 R117, R121, R122; 03 R56 to R79; 04 R82 to
R94; 07 R146; 11 R247; 28 R456). -/

namespace Sys2Proof.Machine

/-! ## The common checks of a command (R109, R117). -/

/-- Who may issue a command (Table 5-6). -/
inductive Issuer where
  | any | vf | pf
  deriving DecidableEq, Repr
/-- The command ends with a status and no payload. -/
def fail (s : State) (q : CmdReq) (status : Nat) : State := cmdEnd s q.fn q.hdr.cookie status 0 []
/-- The command ends well; a response its chain has no room for ends it with BADREQ (log 23). -/
def ok (s : State) (q : CmdReq) (detail : Nat) (data : List Byte) : State :=
  if data ≠ [] && q.room < 16 + data.length then fail s q 1 else cmdEnd s q.fn q.hdr.cookie 0 detail data
/-- The payload bytes COUNT gives, where the manual lays the payload out in bytes. -/
def rawOf (q : CmdReq) : Option (List Byte) := match q.args with
  | .raw bs => if bs.length = q.hdr.count.toNat then some bs else none
  | _ => none
def payNum (bs : List Byte) : Nat := leVal bs
/-- The first status of the checks common to all commands, if one fails. free marks a command a VF of no partition may issue. -/
def cmdGate (s : State) (q : CmdReq) (who : Issuer) (free : Bool) : Option Nat :=
  match func s q.fn with
  | none => some 1
  | some f =>
    if q.hdr.gen ≠ f.gen then some 4
    else if q.hdr.count.toNat ≠ q.len then some 1
    else if who = .pf && q.fn ≠ 0 then some 3
    else if who = .vf && q.fn = 0 then some 1
    else if q.fn ≠ 0 && f.part = 0xFFFF && !free then some 5
    else none
/-- Perform a command: its request is in progress until its used element is written. -/
def command (who : Issuer) (free : Bool) (body : State → CmdReq → State) (q : CmdReq) (s : State) : Host.Outcome State Fault Refusal :=
  let s := { s with host := { s.host with busy := s.host.busy.filter (fun b => b ≠ (q.fn, q.hdr.cookie)) ++ [(q.fn, q.hdr.cookie)] } }
  .next (progress (match cmdGate s q who free with
    | some st => fail (if st = 4 then staleReq s q.fn q.hdr.gen else s) q st
    | none => body s q))
/-- The context a command acts for: of the issuing VF, or, for the PF, of the VF named. -/
def ctxFor (s : State) (q : CmdReq) (vf : Nat) : Except Nat Ctx :=
  let own := if q.fn = 0 then vf else q.fn
  let id := q.hdr.ctxid.toNat
  if q.fn ≠ 0 && vf ≠ 0 && vf ≠ q.fn then .error 8
  else match s.xl.ctxs.find? (fun c => c.fn = own && c.ctxid = id) with
    | some c => .ok c
    | none =>
      let part := ((func s q.fn).map (fun f => f.part.toNat)).getD 0xFFFF
      .error (if q.fn ≠ 0 && s.xl.ctxs.any (fun c => c.part = part && c.ctxid = id) then 8 else 1)
def modCtx (s : State) (c : Ctx) (f : Ctx → Ctx) : State :=
  { s with xl := { s.xl with ctxs := s.xl.ctxs.map (fun x => if x.part = c.part && x.ctxid = c.ctxid then f x else x) } }

/-! ## Reports (R104, R108, R117, R435). -/

/-- The device-specific configuration of a function (Table 5-2). -/
def config52 (s : State) (fn : Nat) : Nat :=
  match func s fn with
  | none => 0
  | some f =>
    s.mod.fwver.toNat * 2 ^ 224 + f.gen.toNat * 2 ^ 208 + f.part.toNat * 2 ^ 192 + s.mod.poddev % 256 * 2 ^ 184 + fn % 256 * 2 ^ 176
    + f.nwq.toNat % 256 * 2 ^ 168 + f.clusters.toNat * 2 ^ 144 + f.hbmu.toNat * 2 ^ 128 + s.mod.fault.toNat * 2 ^ 96 + f.stale.toNat * 2 ^ 64
    + f.evlost.toNat * 2 ^ 32 + f.fports.toNat
/-- Feature bits offered to a function: Tables 5-4 and 5-5; of the Celnan bits those its firmware and partition support (R108), and none after a
failed bring-up (R22). -/
def offered (s : State) (fn : Nat) : W64 :=
  let own := Config.celnanBits (((func s fn).map (fun f => f.part.toNat)).getD 0xFFFF)
  maskOf 64 ((if s.mod.fault = 0 then (List.range 16).filter (fun b => own.getLsbD b) else []) ++ [28, 29, 32, 33, 34, 36, 38] ++ (if fn = 0 then [37] else []))
/-- IDENTIFY (R117). -/
def execIdentify (q : CmdReq) : State → Host.Outcome State Fault Refusal :=
  command .any true (fun s q => ok s q 0 (leBytes 32 (config52 s q.fn) ++ leBytes 8 (offered s q.fn).toNat)) q
def faultBytes (f : FaultRec) : List Byte :=
  leBytes 2 f.ctx ++ leBytes 2 f.slot ++ leBytes 1 f.die ++ leBytes 1 f.x ++ leBytes 1 f.y ++ leBytes 1 f.cause ++ leBytes 1 f.inner
    ++ leBytes 7 0 ++ leBytes 8 f.tval.toNat ++ leBytes 8 f.tpcx.toNat
/-- A network work-queue entry in the layout of Table 4-3. -/
def wqeBytes (w : NetWq) : List Byte :=
  let (ck, ca) := match w.compl with
    | .none => (0, 0)
    | .tag n => (1, n)
    | .wp n => (2, n)
    | .status n => (3, n)
  leBytes 64 (w.wrid.toNat * 2 ^ 448 + w.raddr.toNat * 2 ^ 384 + w.laddr.toNat * 2 ^ 320 + w.opa.toNat * 2 ^ 256 + w.opb.toNat * 2 ^ 192
    + w.rkey.toNat * 2 ^ 160 + w.len % 2 ^ 32 * 2 ^ 128 + w.gen.toNat * 2 ^ 96 + ck * 2 ^ 70 + ca % 256 * 2 ^ 56 + (if w.fence then 256 else 0) + w.op)
/-- DIAG (R117): the bring-up cause, the replay counters of the ports, the function's work-queue entries and fault records; for the PF the
owner of every HBM unit, 0xFFFF where none, and the notice discard count. -/
def diagBytes (s : State) (fn : Nat) : List Byte :=
  let port (p : PortId) : List Byte := leBytes 4 ((lkp s.fab.replays p).getD 0)
  let qs := s.net.qps.filter (fun x => x.fn = fn)
  leBytes 4 s.mod.fault.toNat ++ (List.range 18).flatMap (fun j => port (.fab j)) ++ (List.range 8).flatMap (fun e => port (.eth e))
    ++ leBytes 4 (qs.map (fun x => x.sq.length)).sum ++ qs.flatMap (fun x => x.sq.flatMap wqeBytes)
    ++ leBytes 4 (s.sched.faults.filter (fun f => f.fn = fn)).length ++ (s.sched.faults.filter (fun f => f.fn = fn)).flatMap faultBytes
    ++ (if fn = 0 then (List.range 132).flatMap (fun u => leBytes 2 ((lkp s.part.units u).getD 0xFFFF)) ++ leBytes 4 s.ntc.disc.toNat else [])
def execDiag (q : CmdReq) : State → Host.Outcome State Fault Refusal :=
  command .any true (fun s q => ok s q 0 (diagBytes s q.fn)) q
/-- Cycles the clusters of a partition on a die have waited for tokens (R435). -/
def tokenWaits (s : State) (part die : Nat) : Nat :=
  ((s.part.tokWait.filter (fun t => t.1 = die && (clustersOf s part die).contains t.2.1)).map (fun t => t.2.2)).sum
def effOf (s : State) (part die : Nat) : Nat := ((s.part.tokEff.find? (tokKey part die)).map (fun t => t.2.2)).getD 0
/-- Draw a free value of 8 bytes. -/
def drawBytes (s : State) (n : Nat) : List Byte × State :=
  ((List.range n).flatMap (fun i => leBytes 8 (Config.free (s.freeIx + i)).toNat), { s with freeIx := s.freeIx + n })
/-- TELEMETRY (R20, R435): six die temperatures; with feature 12 also the power, and for each partition and die of the caller's (the PF:
every) partition its number, the waits and the effective count. -/
def telemetryOp (s : State) (q : CmdReq) : State :=
  let (temps, s) := drawBytes s 6
  if !hasFeature s q.fn 12 then ok s q 0 temps
  else
    let (power, s) := drawBytes s 1
    let part := ((func s q.fn).map (fun f => f.part.toNat)).getD 0xFFFF
    let ps := (s.part.parts.filter (fun p => q.fn = 0 || p.part = part)).map Part.part
    let one (p d : Nat) : List Byte := leBytes 2 p ++ leBytes 2 d ++ leBytes 4 (effOf s p d) ++ leBytes 8 (tokenWaits s p d)
    ok s q 0 (temps ++ power ++ ps.flatMap (fun p => (List.range 4).flatMap (one p)))
def execTelemetry (q : CmdReq) : State → Host.Outcome State Fault Refusal := command .any true telemetryOp q

/-! ## Contexts (R56, R131). -/

def blankCtx (id fn part : Nat) : Ctx :=
  { ctxid := id, fn, part, stage1 := 0, stage2 := 0, homemap := 0, hostpt := 0, pasid := 0, thresh := 256, decode := none, layouts := [], pgroups := [] }
/-- CTX_CREATE (R56): the lowest identifier from 1 free in the partition, returned as DETAIL (log 16). -/
def ctxCreateOp (s : State) (q : CmdReq) : State :=
  let part := ((func s q.fn).map (fun f => f.part.toNat)).getD 0xFFFF
  let used := (s.xl.ctxs.filter (fun c => c.part = part)).map Ctx.ctxid
  match ((List.range (used.length + 1)).map (· + 1)).find? (fun i => !used.contains i) with
  | some id =>
    if 0xFFFF ≤ id then fail s q 5
    else ok { s with xl := { s.xl with ctxs := s.xl.ctxs ++ [blankCtx id q.fn part] } } q id []
  | none => fail s q 5
def execCtxCreate (q : CmdReq) : State → Host.Outcome State Fault Refusal := command .vf false ctxCreateOp q
/-- CTX_DESTROY (R131): the context is pre-empted first. -/
def ctxDestroyOp (s : State) (q : CmdReq) : State :=
  match ctxFor s q 0 with
  | .error st => fail s q st
  | .ok c => preempt s c.part c.ctxid (.destroy q.fn q.hdr.cookie) (fun _ _ => true)
def execCtxDestroy (q : CmdReq) : State → Host.Outcome State Fault Refusal := command .vf false ctxDestroyOp q
/-- A destroyed context in the image of its tenant. -/
def snapWithout (c : Ctx) (i : Snap) : Snap :=
  let key := ctxKey c
  let ls := (i.launches.filter (fun l => l.ctx = c.ctxid)).map Launch.id
  { i with
    agents := i.agents.filter (fun e => e.2.ctx ≠ c.ctxid), blocks := i.blocks.filter (fun e => e.2.ctx ≠ c.ctxid),
    pop := i.pop.filter (fun p => p.1.1 ≠ key), slots := i.slots.filter (fun e => !e.2.claim.any (fun x => x.ctx = key)),
    launches := i.launches.filter (fun l => l.ctx ≠ c.ctxid), teams := i.teams.filter (fun t => !ls.contains t.launch),
    conts := i.conts.filter (fun x => x.ctx ≠ c.ctxid), graphs := i.graphs.filter (fun g => g.ctx ≠ c.ctxid),
    joins := i.joins.filter (fun j => j.ctx ≠ key) }
/-- The context's work ends, its claims and queue pairs are released, and it is gone. Packets in progress in it are rejected. -/
def ctxGone (s : State) (c : Ctx) : State :=
  let key := ctxKey c
  let gone := (s.agents.filter (fun e => e.2.fn = c.fn && e.2.ctx = c.ctxid)).map Prod.fst
  let s := dropTokens s (fun g => g.fn = c.fn && g.ctx = c.ctxid)
  let s := gone.foldl (fun s a => withdraw (popLeave s a (fun _ => true)) a) s
  let ls := (s.sched.launches.filter (fun l => l.fn = c.fn && l.ctx = c.ctxid)).map Launch.id
  let js := (s.sched.joins.filter (fun j => j.ctx = key)).map JoinDec.n
  let qs := (s.net.qps.filter (fun q => q.ctx = key)).map Qp.qpn
  let dead (w : IoWho) : Bool := match w with
    | .join n => js.contains n
    | .agent a => gone.contains a
    | .side a => gone.contains a
    | .qp n => qs.contains n
    | .back n => qs.contains n
    | _ => false
  let conts := keepConts s (fun x => !(x.fn = c.fn && x.ctx = c.ctxid))
  let s := dropClaims s [key]
  let img (e : Nat × Snap) : Nat × Snap := (e.1, if e.1 = c.fn then snapWithout c e.2 else e.2)
  let ck1 (k : Ck) : Ck := if k.part = c.part then { k with cand := k.cand.map (snapWithout c), images := k.images.map img } else k
  let s : State := { s with
    agents := s.agents.filter (fun e => !gone.contains e.1)
    blocks := s.blocks.filter (fun e => !(e.2.part = c.part && e.2.ctx = c.ctxid))
    waiting := s.waiting.filter (fun a => !gone.contains a)
    pop := s.pop.filter (fun p => p.1.1 ≠ key)
    ntc := { s.ntc with groups := s.ntc.groups.filter (fun g => g.ctx ≠ key) }
    net := { s.net with qps := s.net.qps.filter (fun q => q.ctx ≠ key), mrs := s.net.mrs.filter (fun m => m.ctx ≠ key)
                        inops := s.net.inops.filter (fun o => !qs.contains o.qpn) }
    ck := s.ck.map ck1
    xl := { s.xl with
      ctxs := s.xl.ctxs.filter (fun x => !(x.part = c.part && x.ctxid = c.ctxid)), cache := s.xl.cache.filter (fun x => x.ctx ≠ key), wents := s.xl.wents.filter (fun x => x.ctx ≠ key)
      walks := s.xl.walks.filter (fun w => w.ctx ≠ key), faults := s.xl.faults.filter (fun f => f.ctx ≠ key)
      grants := s.xl.grants.filter (fun r => r.ctx ≠ key), dir := s.xl.dir.filter (fun d => d.ctx ≠ key), fwds := s.xl.fwds.filter (fun f => f.q.ctx ≠ key)
      migs := s.xl.migs.filter (fun m => m.ctx ≠ key) }
    sched := { s.sched with
      launches := s.sched.launches.filter (fun l => !ls.contains l.id), teams := s.sched.teams.filter (fun t => !ls.contains t.launch)
      conts := conts, resvs := s.sched.resvs.filter (fun r => conts.any (fun x => x.id = r.2.2))
      graphs := s.sched.graphs.filter (fun g => !(g.fn = c.fn && g.ctx = c.ctxid))
      joins := s.sched.joins.filter (fun j => j.ctx ≠ key), ios := s.sched.ios.filter (fun i => !dead i.who)
      faults := s.sched.faults.filter (fun f => !(f.fn = c.fn && f.ctx = c.ctxid))
      pre := s.sched.pre.filter (fun p => !(p.part = c.part && p.ctx = c.ctxid)) } }
  (s.sched.rings.filter (fun r => r.fn = c.fn && r.busy && (headReq r).any (fun x => x.hdr.ctxid.toNat = c.ctxid))).foldl (fun s r =>
    pktReject (dropFence s r.fn r.q) r 9 0) s
/-- PART_SETs with HOLD end when every context is saved, and those without when the held ones run again (R125). -/
def holdOver (s : State) (h : Nat × W64) : Bool :=
  if (partOf s h.1).any (fun p => p.hold) then holdDone s h.1 else !s.sched.pre.any (fun p => p.part = h.1 && p.why = .hold)
def holdEnds (s : State) : State :=
  let (out, rest) := s.part.holdCmd.partition (holdOver s)
  out.foldl (fun s h => cmdEnd s 0 h.2 0 0 []) { s with part := { s.part with holdCmd := rest } }
/-- CONTEXT_SAVE (R416): the save, and what waits for it: CTX_DESTROY goes on, PART_SET ends. -/
def contextSaveEnd (s : State) (part ctx : Nat) : State :=
  let s := contextSaveOp s part ctx
  let dying := s.sched.pre.filterMap (fun p => match p.why with
    | .destroy fn ck => if p.part = part && p.ctx = ctx && p.saved then some (fn, ck) else none
    | _ => none)
  let s := match dying, ctxOf s part ctx with
    | (_ :: _), some c => dying.foldl (fun s d => cmdEnd s d.1 d.2 0 0 []) (ctxGone s c)
    | _, _ => s
  holdEnds s
def execContextSave (part ctx : Nat) (s : State) : Host.Outcome State Fault Refusal := .next (progress (contextSaveEnd s part ctx))
/-- XLATE_SET (R56): STAGE2 and HOMEMAP from the PF only. A host page table named here has its entries as reset leaves them (Table 3-6). -/
def xlateSetOp (s : State) (q : CmdReq) : State :=
  match q.args with
  | .xlate vf s1 s2 hm hp pas th =>
    if q.fn ≠ 0 && (s2.isSome || hm.isSome) then fail s q 3
    else if [s1, s2, hm, hp].any (fun x => x.any (fun v => 2 ^ 52 ≤ v)) || pas.any (fun v => 2 ^ 20 ≤ v) || th.any (fun v => 2 ^ 16 ≤ v) then fail s q 1
    else match ctxFor s q vf with
      | .error st => fail s q st
      | .ok c =>
        let c' : Ctx := { c with
          stage1 := s1.getD c.stage1, stage2 := s2.getD c.stage2, homemap := hm.getD c.homemap, hostpt := hp.getD c.hostpt,
          pasid := pas.getD c.pasid, thresh := th.getD c.thresh }
        let s := modCtx { s with xl := { s.xl with wents := s.xl.wents.filter (fun w => w.ctx ≠ ctxKey c) } } c (fun _ => c')
        ok (if hp.isSome then hostReset s c' 0 (hostList s c').length
            else if hm.isSome then hostMove (hostList s c) (hostList s c') s s c' else s) q 0 []
  | _ => fail s q 1
def execXlateSet (q : CmdReq) : State → Host.Outcome State Fault Refusal := command .any false xlateSetOp q

/-! ## Pages (R59, R64, R70, R79). -/

/-- INVAL_PAGE (R70): a far range of a context, or from the PF a guest-physical range of a VF; it ends when every holder has
acknowledged. -/
def invalPageOp (s : State) (q : CmdReq) : State :=
  match q.args with
  | .inval vf addr size why gpa moved =>
    if size = 0 then fail s q 1
    else if gpa then
      if q.fn ≠ 0 then fail s q 3
      else if vf = 0 || (func s vf).isNone then fail s q 1
      else match s.xl.ctxs.filter (fun c => c.fn = vf) with
        | [] => ok s q 0 []
        | cs => cs.foldl (fun s c => invalBegin s ⟨ctxKey c, addr, size, true⟩ why (.cmd q.fn q.hdr.cookie moved)) s
    else match ctxFor s q vf with
      | .error st => fail s q st
      | .ok c => invalBegin s ⟨ctxKey c, addr, size, false⟩ why (.cmd q.fn q.hdr.cookie moved)
  | _ => fail s q 1
def execInvalPage (q : CmdReq) : State → Host.Outcome State Fault Refusal := command .any false invalPageOp q
/-- MIGRATE (R79): WB is set and the page's grants and host translations are taken back. A page that is migrating or has migrated is ABORTED
(DESIGN CHOICE, log 70). -/
def migrateOp (s : State) (q : CmdReq) : State :=
  match q.args with
  | .migrate vf va frame => match ctxFor s q vf with
    | .error st => fail s q st
    | .ok c =>
      if !hasFeature s c.fn 11 then fail s q 2
      else if va % 4096 ≠ 0 || frame % 4096 ≠ 0 || homeOf s c va ≠ .at_ (.host s.mod.poddev) then fail s q 1
      else if hbmOwner s frame ≠ some c.part then fail s q 8
      else if s.xl.migs.any (fun m => m.ctx = ctxKey c && m.va = va) || bit (BitVec.ofNat 64 (hostPte s c va)) 1 then fail s q 9
      else
        let (n, s) := xlNext s
        let s := setHostPte s c va (pteWith (hostPte s c va) true false none)
        let s := { s with xl := { s.xl with migs := s.xl.migs ++ [⟨n, q.fn, q.hdr.cookie, ctxKey c, va, frame, 0, s.fab.podNs⟩] } }
        invalBegin s ⟨ctxKey c, va, 4096, false⟩ .migrate (.migr n)
  | _ => fail s q 1
def execMigrate (q : CmdReq) : State → Host.Outcome State Fault Refusal := command .any false migrateOp q
/-- S2_ANSWER (R64, R80): RETRY repeats the walks that wait, DENY faults them; an answer to an older generation is discarded. -/
def s2AnswerOp (s : State) (q : CmdReq) : State :=
  match q.args with
  | .s2 idx retry => match s.xl.s2.find? (fun r => r.idx = idx) with
    | none => fail s q 1
    | some r =>
      let s := { s with xl := { s.xl with s2 := s.xl.s2.filter (fun x => x.idx ≠ idx) } }
      if fnGen s r.fn ≠ r.gen then ok (modFunc s r.fn (fun f => { f with stale := sat32 f.stale })) q 0 []
      else
        let ws := s.xl.walks.filter (fun w => w.s2 = some idx)
        if retry then
          let s := { s with xl := { s.xl with walks := s.xl.walks.map (fun w => if w.s2 = some idx then { w with s2 := none } else w) } }
          ok s q 0 []
        else ok (serveGrants (ws.foldl (fun s w => dropWalk (failWalk s w 0x10) w.n) s)) q 0 []
  | _ => fail s q 1
def execS2Answer (q : CmdReq) : State → Host.Outcome State Fault Refusal := command .pf false s2AnswerOp q
/-- HOMEMAP_SET (R59): the granules' grants are taken back before the entries are written. A granule with no leaf table in a directory of the
partition, or a partition none of whose contexts names a directory, is BADREQ (DESIGN CHOICE, log 73: R59 makes no table). -/
def homemapSetOp (s : State) (q : CmdReq) : State :=
  match q.args with
  | .homemap part es =>
    let cs := s.xl.ctxs.filter (fun c => c.part = part)
    if (partOf s part).isNone || es.any (fun e => 2 ^ 27 ≤ e.1 || cs = [] || (homemapsOf s part).any (fun d => (leafAt s d e.1).isNone)) then fail s q 1
    else
      if es = [] then ok s q 0 []
      else cs.foldl (fun s c => es.foldl (fun s e =>
        invalBegin s ⟨ctxKey c, e.1 * 2 ^ 30, 2 ^ 30, false⟩ .unmap (.home q.fn q.hdr.cookie part es)) s) s
  | _ => fail s q 1
def execHomemapSet (q : CmdReq) : State → Host.Outcome State Fault Refusal := command .pf false homemapSetOp q

/-! ## Network objects (R82 to R84, R94). -/

/-- A command of the network needs feature bit 4 (Table 5-5); BADPKT is the status of a capability not accepted (Table 5-9). -/
def netCmd (body : State → CmdReq → State) (s : State) (q : CmdReq) : State := if hasFeature s q.fn 4 then body s q else fail s q 2
def powerOf2 (n lo hi : Nat) : Bool := lo ≤ n && n ≤ hi && (List.range 17).any (fun k => n = 2 ^ k)
/-- QP_CREATE (R83, R84): the lowest free number, returned as DETAIL. -/
def qpCreateOp (s : State) (q : CmdReq) : State :=
  match q.args with
  | .qpCreate port mtu sd rd rb cq cb cd ack ret rnr => match ctxFor s q 0 with
    | .error st => fail s q st
    | .ok c =>
      let old := s.net.cqs.find? (fun x => x.fn = q.fn && x.cq = cq)
      if 8 ≤ port || !powerOf2 mtu 256 4096 || !powerOf2 sd 16 16384 || !powerOf2 rd 16 16384 || (old.isNone && !powerOf2 cd 64 65536)
         || old.any (fun x => x.ctx ≠ ctxKey c) || ack = 0 || 32 ≤ ack || 8 ≤ ret || 8 ≤ rnr then fail s q 1
      else match (List.range 4096).find? (fun n => (qpAt s n).isNone) with
        | none => fail s q 5
        | some n =>
          let qp : Qp := { qpn := n, fn := q.fn, ctx := ctxKey c, port, mtu, sqDepth := sd, rqDepth := rd, rqBase := BitVec.ofNat 64 rb, cq,
                           ackTimeout := ack, retries := ret, rnr, st := .reset, sq := [], sent := 0, sentAt := 0, fetch := [], back := [], resps := [],
                           tries := 0, rnrTries := 0, rnrWait := none, rqHead := 0, rate := 65536, since := 0, rxq := [] }
          let cqs := if old.isSome then s.net.cqs else s.net.cqs ++ [⟨q.fn, ctxKey c, cq, BitVec.ofNat 64 cb, cd, 0, 0⟩]
          ok { s with net := { s.net with qps := s.net.qps ++ [qp], cqs := cqs } } q n []
  | _ => fail s q 1
def execQpCreate (q : CmdReq) : State → Host.Outcome State Fault Refusal := command .vf false (netCmd qpCreateOp) q
/-- The queue pair a command names: it must exist and be of a context of the function. -/
def qpFor (s : State) (q : CmdReq) (n : Nat) : Except Nat Qp := match qpAt s n with
  | none => .error 1
  | some x => if x.fn = q.fn then .ok x else .error 8
/-- QP_MODIFY (R83, R100): states 0 Reset, 1 Init, 2 Ready to Receive, 3 Ready to Send, 4 Error. DESIGN CHOICE (log 60): the move to Reset discards
posted requests without completions and leaves their posters' counts, as R101 says of a function reset. -/
def qpModifyOp (s : State) (q : CmdReq) : State :=
  match q.args with
  | .qpModify n st => match qpFor s q n with
    | .error e => fail s q e
    | .ok x =>
      let move (t : QpState) : State := ok (setQp s { x with st := t }) q 0 []
      match st, x.st with
      | 0, _ => ok (dropInops (qpIoDrop (setQp s (qpReset x)) n) [n]) q 0 []
      | 1, .reset => move .init
      | 1, .init => move .init
      | 2, .init => move .rtr
      | 3, .rtr => move .rts
      | 3, .rts => move .rts
      | 4, _ => ok (qpError s x (fun _ => 7)) q 0 []
      | _, _ => fail s q 1
  | _ => fail s q 1
def execQpModify (q : CmdReq) : State → Host.Outcome State Fault Refusal := command .vf false (netCmd qpModifyOp) q
/-- QP_DESTROY (R83): in Reset or Error only. -/
def qpDestroyOp (s : State) (q : CmdReq) : State :=
  match q.args with
  | .obj n => match qpFor s q n with
    | .error e => fail s q e
    | .ok x =>
      if x.st ≠ .reset && x.st ≠ .error then fail s q 1
      else
        let rest := s.net.qps.filter (fun y => y.qpn ≠ n)
        let cqs := s.net.cqs.filter (fun k => rest.any (fun y => y.fn = k.fn && y.cq = k.cq))
        ok (dropInops { s with net := { s.net with qps := rest, cqs := cqs } } [n]) q 0 []
  | _ => fail s q 1
def execQpDestroy (q : CmdReq) : State → Host.Outcome State Fault Refusal := command .vf false (netCmd qpDestroyOp) q
/-- The command at hand cannot end yet and is tried again first, once something has happened. -/
def tryAgain (s : State) (q : CmdReq) : State :=
  { s with host := { s.host with busy := s.host.busy.filter (fun b => b ≠ (q.fn, q.hdr.cookie)), ctlQ := (q.fn, q, .ok) :: s.host.ctlQ } }
/-- The region's pages, pinned for its rights: read and write together where it is written or takes atomics (R61, R94). -/
def regPins (s : State) (who : IoWho) (c : Ctx) (base len : Nat) (rd w at_ : Bool) : State × List Pin × PinR :=
  let all (s : State) (wr : Bool) : State × List Pin × PinR := pinAll who c agentDie (len / 4096 + 2) [⟨0, wr, base, len⟩] (len / 4096 + 3) s []
  if rd || at_ || !w then match all s false with
    | (s, ps, .done) => if w || at_ then all s true else (s, ps, .done)
    | r => r
  else all s true
/-- MR_REG (R94): the region's pages are pinned for its rights. -/
def mrRegOp (s : State) (q : CmdReq) : State × Bool :=
  match q.args with
  | .mrReg key base len rd w at_ => match ctxFor s q 0 with
    | .error st => (fail s q st, true)
    | .ok c =>
      if !hasFeature s q.fn 4 then (fail s q 2, true)
      else if len = 0 || s.net.mrs.any (fun m => m.fn = q.fn && m.key = key) then (fail s q 1, true)
      else if 16384 ≤ s.net.mrs.length then (fail s q 5, true)
      else match regPins s (.reg q.fn q.hdr.cookie) c base len rd w at_ with
        | (s, pins, .done) =>
          (ok { s with net := { s.net with mrs := s.net.mrs ++ [⟨q.fn, ctxKey c, key, base, len, rd, w, at_, pins, false⟩] } } q 0 [], true)
        | (s, _, .fault code va) => (fail (takeFault s (.reg q.fn q.hdr.cookie) (ctxKey c) va) q (faultStatus code), true)
        | (s, _, .full _) => (fail s q 5, true)
        | (s, _, .wait) => (tryAgain s q, false)
  | _ => (fail s q 1, true)
def execMrReg (q : CmdReq) (s : State) : Host.Outcome State Fault Refusal :=
  let s := { s with host := { s.host with busy := s.host.busy.filter (fun b => b ≠ (q.fn, q.hdr.cookie)) ++ [(q.fn, q.hdr.cookie)] } }
  .next (match cmdGate s q .vf false with
    | some st => progress (fail (if st = 4 then staleReq s q.fn q.hdr.gen else s) q st)
    | none => match mrRegOp s q with
      | (s, true) => progress s
      | (s, false) => stall s (.cmd q.fn))
/-- MR_DEREG (R94). -/
def mrDeregOp (s : State) (q : CmdReq) : State :=
  match q.args with
  | .obj key =>
    if s.net.mrs.any (fun m => m.fn = q.fn && m.key.toNat = key) then
      ok { s with net := { s.net with mrs := s.net.mrs.filter (fun m => !(m.fn = q.fn && m.key.toNat = key)) } } q 0 []
    else fail s q 1
  | _ => fail s q 1
def execMrDereg (q : CmdReq) : State → Host.Outcome State Fault Refusal := command .vf false (netCmd mrDeregOp) q
/-- NET_ADDR (R82). -/
def netAddrOp (s : State) (q : CmdReq) : State :=
  match q.args with
  | .netAddr port mac gids =>
    if 8 ≤ port || gids.any (fun g => 256 ≤ g.1) then fail s q 1
    else
      let put (t : List (Nat × Nat × BitVec 128)) (g : Nat × BitVec 128) : List (Nat × Nat × BitVec 128) :=
        t.filter (fun x => !(x.1 = q.fn && x.2.1 = port * 256 + g.1)) ++ [(q.fn, port * 256 + g.1, g.2)]
      ok { s with host := { s.host with macs := ins s.host.macs q.fn mac, gids := gids.foldl put s.host.gids } } q 0 []
  | _ => fail s q 1
def execNetAddr (q : CmdReq) : State → Host.Outcome State Fault Refusal := command .vf false (netCmd netAddrOp) q

/-! ## Tables (R146, R247, R456). -/

/-- TYPEs of the packets in a request's words from an offset on. -/
def pktTypes : Nat → List W64 → List Nat
  | 0, _ => []
  | _ + 1, [] => []
  | n + 1, h :: r => fld h 7 0 :: pktTypes n (r.drop (fld h 31 16 - 1))
/-- A ring holds an unfinished LAUNCH or GRAPH packet of a context. -/
def packetLeft (r : Ring) (ctx : Nat) : Bool :=
  (List.range r.reqs.length).any (fun i => r.idx ≤ i && (r.reqs[i]?).any (fun x => x.hdr.ctxid.toNat = ctx
    && (pktTypes 4096 (x.words.drop (if i = r.idx then r.off else 0))).any (fun t => t = 1 || t = 3)))
/-- The context has resident or queued work, or an unfinished LAUNCH or GRAPH packet (R247). -/
def ctxBusy (s : State) (c : Ctx) : Bool :=
  s.agents.any (fun e => e.2.fn = c.fn && e.2.ctx = c.ctxid) || s.sched.conts.any (fun x => x.fn = c.fn && x.ctx = c.ctxid)
  || s.sched.rings.any (fun r => r.fn = c.fn && packetLeft r c.ctxid)
  || s.sched.launches.any (fun l => l.fn = c.fn && l.ctx = c.ctxid) || s.sched.graphs.any (fun g => g.fn = c.fn && g.ctx = c.ctxid)
  || s.ck.any (fun k => (lkp k.images c.fn).any (fun i => i.agents.any (fun e => e.2.ctx = c.ctxid) || i.launches.any (fun l => l.ctx = c.ctxid)
    || i.conts.any (fun x => x.ctx = c.ctxid) || i.graphs.any (fun g => g.ctx = c.ctxid)))
/-- DECODE_LOAD (R247). -/
def decodeLoadOp (s : State) (q : CmdReq) : State :=
  match ctxFor s q 0, rawOf q with
  | .error st, _ => fail s q st
  | .ok _, none => fail s q 1
  | .ok c, some bs =>
    let es := (List.range 1024).map (fun k => BitVec.ofNat 32 (byteFld bs (4 * k) (4 * k + 3)))
    if !hasFeature s q.fn 6 then fail s q 1
    else if bs = [] then if ctxBusy s c then fail s q 9 else ok (modCtx s c (fun c => { c with decode := none })) q 0 []
    else if bs.length ≠ 4096 || es.any (fun e => fld e 30 10 ≠ 0 || (bit e 31 && !assigned (fld e 9 0))) then fail s q 1
    else if ctxBusy s c then fail s q 9
    else ok (modCtx s c (fun c => { c with decode := some es })) q 0 []
def execDecodeLoad (q : CmdReq) : State → Host.Outcome State Fault Refusal := command .vf false decodeLoadOp q
/-- PGROUP_SET (R146). -/
def pgroupSetOp (s : State) (q : CmdReq) : State :=
  match ctxFor s q 0, rawOf q with
  | .error st, _ => fail s q st
  | .ok _, none => fail s q 1
  | .ok c, some bs =>
    let h := byteFld bs 0 1
    let n := byteFld bs 2 3
    let es := pgroupOf bs
    let devs := es.map Prod.fst
    if bs.length ≠ 16 + 16 * n || 255 < h || n = 0 || 144 < n || byteFld bs 4 15 ≠ 0
       || (List.range n).any (fun k => byteFld bs (16 + 16 * k + 8) (16 + 16 * k + 14) ≠ 0) then fail s q 1
    else if devs.any (fun d => 144 ≤ d || !ownsDev s c.part d) then fail s q 8
    else if devs.eraseDups.length ≠ n || es.any (fun e => e.2.any (fun b => b ≠ 0xFF && n ≤ b)) then fail s q 1
    else ok (modCtx s c (fun c => { c with pgroups := ins c.pgroups h bs })) q 0 []
def execPgroupSet (q : CmdReq) : State → Host.Outcome State Fault Refusal := command .vf false pgroupSetOp q
/-- Members of a notice group (Table 28-1). -/
def membersOf (bs : List Byte) (n : Nat) : List NMember :=
  (List.range n).map (fun k =>
    let e := byteFld bs (16 + 32 * k) (16 + 32 * k + 31)
    ⟨BitVec.ofNat 64 (nfld e 255 192), nfld e 191 184, nfld e 183 168, nfld e 167 152, nfld e 151 136, nfld e 135 134⟩)
/-- A member of this device has its board homed here and writable. -/
def boardOk (s : State) (m : NMember) : State × Bool :=
  if m.board.toNat % 4096 ≠ 0 then (s, false)
  else if m.dev ≠ s.mod.poddev then (s, true)
  else
    let (s, pa) := boardAt s m 0 .wr
    (s, pa.isSome)
def boardsOk (s : State) : List NMember → State × Bool
  | [] => (s, true)
  | m :: r =>
    let (s, b) := boardOk s m
    let (s, bs) := boardsOk s r
    (s, b && bs)
/-- NGROUP_SET (R456). -/
def ngroupSetOp (s : State) (q : CmdReq) : State :=
  match ctxFor s q 0, rawOf q with
  | .error st, _ => fail s q st
  | .ok _, none => fail s q 1
  | .ok c, some bs =>
    let h := payNum (bs.take 16)
    let handle := nfld h 7 0
    let n := nfld h 22 16
    let gid := nfld h 47 32
    let ms := membersOf bs n
    let old (g : NGroup) : Bool := g.ctx = ctxKey c && g.handle = handle
    let names := ms.map (fun m => (m.dev, m.part, m.ctx, m.gteam, m.block))
    let (s, boards) := boardsOk s ms
    if !hasFeature s q.fn 1 then fail s q 2
    else if bs.length ≠ 16 + 32 * n || nfld h 15 8 ≠ 0 || nfld h 31 23 ≠ 0 || nfld h 127 48 ≠ 0 || n = 0 || 64 < n
       || (List.range n).any (fun k => byteFld bs (16 + 32 * k) (16 + 32 * k + 31) % 2 ^ 134 ≠ 0)
       || names.eraseDups.length ≠ n || s.ntc.groups.any (fun g => g.gid.toNat = gid && !old g) || !boards then fail s q 1
    else if s.ntc.groups.any (fun g => old g && g.notices.any (fun x => x.out = 1)) then fail s q 9
    else
      let rest := s.ntc.groups.filter (fun g => !old g)
      if 16 ≤ rest.length then fail s q 5
      else
        let g : NGroup := ⟨q.fn, ctxKey c, handle, BitVec.ofNat 16 gid, ms, [], 0, 0, 0⟩
        ok { s with ntc := { s.ntc with groups := rest ++ [g] } } q 0 []
def execNgroupSet (q : CmdReq) : State → Host.Outcome State Fault Refusal := command .vf false ngroupSetOp q

/-! ## Attestation and bundles (R121, R122). -/

/-- The flash copy in force since bring-up: version and image. -/
def bundleNow (s : State) : Nat × List Byte := ((s.mod.flash.find? (fun f => f.1 = s.mod.inForce)).map Prod.snd).getD (0, [])
/-- What a partition's measurement covers: owned resources, token counts and slice settings. Their bytes, order and widths are given nowhere:
those of Tables 6-1, 25-4 and 6-4, in the order here, low byte first (DESIGN CHOICE, log 46). -/
def partMeasure (s : State) (p : Part) : List Byte :=
  leBytes 18 p.devs.toNat ++ leBytes 2 p.part ++ leBytes 4 p.vfs.toNat ++ p.hbmc.flatMap (fun n => leBytes 1 n) ++ leBytes 2 p.cgrp.toNat
    ++ leBytes 3 p.fports.toNat ++ leBytes 2 p.jmem.toNat ++ leBytes 1 p.ethw ++ leBytes 1 p.hostw ++ leBytes 1 p.hbmw ++ leBytes 1 p.nwq
    ++ (List.range 4).flatMap (fun d => leBytes 1 (tokenCount s p d)) ++ leBytes 1 p.nten ++ leBytes 4 p.slice ++ leBytes 2 p.ckpt
    ++ leBytes 1 p.logu ++ p.order.flatMap (fun v => leBytes 1 v)
def sha (bs : List Byte) : List Byte := leBytes 48 (Config.sha384 bs).toNat
/-- Insert a partition by number. -/
def insPart (p : Part) : List Part → List Part
  | [] => [p]
  | x :: r => if p.part ≤ x.part then p :: x :: r else x :: insPart p r
/-- PARTHASH: of the VF's partition, zero where it has none; for the PF one digest of all partitions' measurements, in number order (DESIGN
CHOICE, log 46). -/
def partHash (s : State) (fn : Nat) : List Byte :=
  if fn = 0 then sha ((s.part.parts.foldr insPart []).flatMap (partMeasure s))
  else match (func s fn).bind (fun f => partOf s f.part.toNat) with
    | some p => sha (partMeasure s p)
    | none => leBytes 48 0
/-- Insert a context by number. -/
def insCtx (c : Ctx) : List Ctx → List Ctx
  | [] => [c]
  | x :: r => if c.ctxid ≤ x.ctxid then c :: x :: r else x :: insCtx c r
/-- DECODEHASH: the loaded tables of the function's contexts in CTXID order, zero when none is loaded. -/
def decodeHash (s : State) (fn : Nat) : List Byte :=
  let ts := ((s.xl.ctxs.filter (fun c => c.fn = fn)).foldr insCtx []).filterMap Ctx.decode
  if ts = [] then leBytes 48 0 else sha (ts.flatMap (fun t => t.flatMap (fun e => leBytes 4 e.toNat)))
/-- Bytes of a value the manual leaves to the device: the ROM, the identity certificates. -/
def identBytes (k : Nat) : List Byte := leBytes 8 (Config.ident k).toNat
/-- The signed part of the report (Table 5-15, bytes 0 to 543). -/
def reportBody (s : State) (fn : Nat) (nonce : List Byte) : List Byte :=
  let (ver, img) := bundleNow s
  let part := ((func s fn).map (fun f => f.part.toNat)).getD 0xFFFF
  nonce ++ sha (identBytes 0) ++ sha img ++ leBytes 4 ver ++ leBytes 4 s.mod.fwver.toNat
    ++ leBytes 2 s.mod.poddev ++ leBytes 2 fn ++ leBytes 2 part ++ leBytes 2 0
    ++ partHash s fn ++ decodeHash s fn ++ sha (identBytes 1) ++ sha (identBytes 2) ++ List.replicate 208 0
/-- Signature bytes of a length, by key: 0 RSA-3072, 1 SLH-DSA. -/
def sigBytes (key n : Nat) (digest : List Byte) : List Byte :=
  let sg := Config.sign (BitVec.ofNat 8 key :: digest)
  (List.range n).map (fun i => sg.getD i 0)
/-- ATTEST (R121): rejected without feature 15, or with a nonce that is not 32 bytes. -/
def attestOp (s : State) (q : CmdReq) : State :=
  match rawOf q with
  | some nonce =>
    if !hasFeature s q.fn 15 then fail s q 2
    else if nonce.length ≠ 32 then fail s q 1
    else
      let b := reportBody s q.fn nonce
      ok s q 0 (b ++ sigBytes 0 384 (sha b) ++ sigBytes 1 16224 (sha b))
  | none => fail s q 1
def execAttest (q : CmdReq) : State → Host.Outcome State Fault Refusal := command .any true attestOp q
/-- BUNDLE_WRITE (R122): the bundle goes to the flash copy that is not in force, which is then selected for the next bring-up. Its version is its first
four bytes. -/
def bundleWriteOp (sigsOk : Bool) (s : State) (q : CmdReq) : State :=
  match rawOf q with
  | some bs =>
    let ver := byteFld bs 0 3
    if !sigsOk then fail s q 0x0A
    else if ver < s.mod.rollback then fail s q 9
    else
      let copy := 1 - s.mod.inForce
      ok { s with mod := { s.mod with flash := s.mod.flash.filter (fun f => f.1 ≠ copy) ++ [(copy, ver, bs)], sel := copy } } q 0 []
  | none => fail s q 1
def execBundleWrite (q : CmdReq) (sigsOk : Bool) : State → Host.Outcome State Fault Refusal := command .pf false (bundleWriteOp sigsOk) q

end Sys2Proof.Machine
end

