-- ==== Sys2Proof/Machine/PartCmds.lean ====
section
/-! DEFINITION. Control commands of the PF on partitions: PART_SET, TOKENS_SET, SLICE_SET and VF_RESET (06 R123 to R126, R134; 25 R433, R434;
05 R119). -/

namespace Sys2Proof.Machine

/-! ## PART_SET (R123 to R126, Table 6-1). -/

/-- Slice settings after a change of VFS: of one VF the partition is dedicated, and a VF that has gone is no tenant (R126). -/
def partSliced (p : Part) : Part :=
  let order := p.order.filter (fun v => (partVfs p).contains v)
  if popCount p.vfs ≤ 1 || order = [] then { p with nten := 0, slice := 0, ckpt := 0, logu := 0, order := [] }
  else { p with nten := order.length, order := order }
/-- The partition a payload describes; slice settings and token counts stay as they were, but for the VFs that go. -/
def partFrom (v : Nat) (old : Option Part) : Part := partSliced
  { part := nfld v 367 352, devs := BitVec.ofNat 144 (nfld v 511 368), vfs := BitVec.ofNat 32 (nfld v 351 320)
    hbmc := (List.range 12).map (fun k => nfld v (275 + 4 * k) (272 + 4 * k)), cgrp := BitVec.ofNat 16 (nfld v 271 256)
    fports := BitVec.ofNat 18 (nfld v 255 238), jmem := BitVec.ofNat 16 (nfld v 223 208), ethw := nfld v 207 200, hostw := nfld v 199 192
    hbmw := nfld v 191 184, nwq := if nfld v 183 176 = 0 then 32 else nfld v 183 176, hold := nfld v 0 0 = 1
    nten := (old.map Part.nten).getD 0, slice := (old.map Part.slice).getD 0, ckpt := (old.map Part.ckpt).getD 0
    logu := (old.map Part.logu).getD 0, order := (old.map Part.order).getD [], tok := (old.map Part.tok).getD []
    tokNamed := (old.map Part.tokNamed).getD false }
/-- The payload is formed as Table 6-1 gives. -/
def partFormed (s : State) (v : Nat) (p : Part) : Bool :=
  nfld v 237 224 = 0 && nfld v 175 1 = 0 && p.part ≠ 0xFFFF && p.devs.getLsbD s.mod.poddev && p.hbmc.all (fun n => n ≤ 11) && p.nwq ≤ 32
/-- HBM units of a stack that a partition holds, and those free. -/
def unitsOf (s : State) (part st : Nat) : List Nat := (List.range 11).map (fun u => 11 * st + u) |>.filter (fun u => lkp s.part.units u = some part)
def unitsFree (s : State) (st : Nat) : List Nat :=
  if s.mod.stackLost.getLsbD st then [] else (List.range 11).map (fun u => 11 * st + u) |>.filter (fun u => (lkp s.part.units u).isNone)
/-- Every resource named is the partition's own or free (R123, R125); a partition names at most eight VFs (R126). -/
def partFree (s : State) (p : Part) : Bool :=
  let others := s.part.parts.filter (fun x => x.part ≠ p.part)
  others.all (fun x => x.cgrp &&& p.cgrp = 0 && x.fports &&& p.fports = 0 && x.vfs &&& p.vfs = 0)
  && (List.range 12).all (fun st => p.hbmc.getD st 0 ≤ (unitsOf s p.part st).length + (unitsFree s st).length)
  && (List.range 18).all (fun j => !p.fports.getLsbD j
       || p.jmem.toNat + ((others.filter (fun x => x.fports.getLsbD j)).map (fun x => x.jmem.toNat)).sum ≤ 188)
  && popCount p.vfs ≤ 8
/-- The command takes resources away, or lowers NWQ. -/
def takesAway (o p : Part) : Bool :=
  o.cgrp &&& ~~~ p.cgrp ≠ 0 || o.fports &&& ~~~ p.fports ≠ 0 || o.vfs &&& ~~~ p.vfs ≠ 0 || p.jmem.toNat < o.jmem.toNat || p.nwq < o.nwq
  || (List.range 12).any (fun st => p.hbmc.getD st 0 < o.hbmc.getD st 0)
/-- Some VF of a partition has a context. -/
def hasCtx (s : State) (part : Nat) : Bool := s.xl.ctxs.any (fun c => c.part = part)
/-- The units a partition holds afterwards: its lowest, then the lowest free, of each stack. -/
def unitsNext (s : State) (p : Part) : List Nat :=
  (List.range 12).flatMap (fun st => ((unitsOf s p.part st) ++ (unitsFree s st)).take (p.hbmc.getD st 0))
/-- Zero is written over released HBM units and yard slices (R125). -/
def clearReleased (s : State) (units : List Nat) (o : BitVec 16) : State :=
  let inUnit (a : Nat) : Bool := (unitOf a).any (fun u => units.contains u)
  let inSlice (k : Nat) : Bool := (List.range 16).any (fun g => o.getLsbD g && yardKey (g / 4) (8 * (g % 4)) 0 ≤ k && k < yardKey (g / 4) (8 * (g % 4) + 8) 0)
  { s with xl := { s.xl with leafs := [] }, mem := {
      hbm := s.mem.hbm.filter (fun e => !inUnit e.1), yard := s.mem.yard.filter (fun e => !inSlice e.1)
      poison := s.mem.poison.filter (fun x => !(if x.2 then inSlice (64 * x.1) else inUnit (64 * x.1))) } }
/-- Put the partition into the table. -/
def putPart (s : State) (p : Part) : State :=
  let ps := s.part.parts
  let ps := if ps.any (fun x => x.part = p.part) then ps.map (fun x => if x.part = p.part then p else x) else ps ++ [p]
  { s with part := { s.part with parts := ps } }
/-- A VF assigned anew: one that moves between partitions is reset first, and its counters start again (R119, R125). -/
def assignVf (s : State) (part v : Nat) : State := match func s v with
  | none => s
  | some f =>
    if f.part.toNat = part || f.prev.toNat = part then s
    else
      let s := if f.prev = 0xFFFF then s else resetsEnd (beginReset (stopReading s v) v none false)
      modFunc s v (fun f => { f with stale := 0, evlost := 0, prev := BitVec.ofNat 16 part })
/-- Token counts after a change of clusters on a die (R434): the default afresh, a named count lowered to the clusters owned. -/
def retoken (s : State) (p : Part) (old : BitVec 16) (die : Nat) : State :=
  if nfld old.toNat (4 * die + 3) (4 * die) = nfld p.cgrp.toNat (4 * die + 3) (4 * die) then s
  else
    let n := (clustersOf s p.part die).length
    let p := if p.tokNamed then { p with tok := p.tok.map (fun t => if t.1 = die then (t.1, min t.2 n) else t) } else p
    askTokens (putPart s p) p.part die (tokenEffective s p die) true
/-- Waiting cycles of newly assigned clusters start at zero (R435). -/
def zeroWaits (s : State) (fresh : BitVec 16) : State :=
  { s with part := { s.part with tokWait := s.part.tokWait.filter (fun t => !fresh.getLsbD (4 * t.1 + t.2.1 / 8)) } }
/-- The routes of the partition at every junction: between the ports its devices own there (R51, R124). The PART_SET names this device's ports;
which ports it owns on another device that device is told, so here they are a free value (log 20). -/
def grantRoutes (s : State) (p : Part) : State :=
  let owns (j d : Nat) : Bool := if d = s.mod.poddev then p.fports.getLsbD j else (Config.peerPorts s.freeIx p.part d).getLsbD j
  let fresh := (List.range 18).map (fun j => (j, p.part, (bitsOf p.devs 144).filter (owns j)))
  { s with fab := { s.fab with jRoute := s.fab.jRoute.filter (fun r => r.2.1 ≠ p.part) ++ fresh } }
/-- A partition stops being shared in time: its tenants' exports are held no longer. -/
def dropCk (s : State) (part : Nat) : State :=
  let held := (s.ck.filter (fun c => c.part = part)).flatMap Ck.exports
  held.foldl (fun s x => release s x.2.2) { s with ck := s.ck.filter (fun c => c.part ≠ part) }
/-- The checkpoint state follows the tenants a PART_SET leaves (R126). -/
def recheck (s : State) (p : Part) : State :=
  if p.nten = 0 then dropCk s p.part
  else modCk s p.part (fun c => if p.order.contains c.tenant then c else { c with tenant := p.order.headD c.tenant })
/-- The resources of an accepted PART_SET change hands. -/
def assign (s : State) (p : Part) (old : Option Part) : State :=
  let before := (old.map Part.cgrp).getD 0
  let s := recheck s p
  let gone := (s.part.units.filter (fun u => u.2 = p.part && !(unitsNext s p).contains u.1)).map Prod.fst
  let units := s.part.units.filter (fun u => u.2 ≠ p.part) ++ (unitsNext s p).map (fun u => (u, p.part))
  let s := clearReleased s gone (before &&& ~~~ p.cgrp)
  let s := putPart { s with part := { s.part with units := units } } p
  let s := zeroWaits (grantRoutes s p) (p.cgrp &&& ~~~ before)
  let s := (List.range 4).foldl (fun s d => retoken s ((partOf s p.part).getD p) before d) s
  let s := syncFuncs ((partVfs p).foldl (fun s v => assignVf s p.part v) s)
  if old.map Part.devs ≠ some p.devs then resetStreams s p.part else s
/-- HOLD: every context of the partition is pre-empted, or the held ones run again; the command ends when that is done (R125). -/
def setHold (s : State) (q : CmdReq) (p : Part) (was : Bool) : State :=
  let s := { s with part := { s.part with holdCmd := s.part.holdCmd ++ [(p.part, q.hdr.cookie)] } }
  let s := if p.hold && !was then
      (s.xl.ctxs.filter (fun c => c.part = p.part)).foldl (fun s c => preempt s c.part c.ctxid .hold (fun _ _ => true)) s
    else s
  holdEnds s
/-- What PART_SET does. A payload with a reserved bit set, HBMC above 11, NWQ above 32 or without this device in DEVS is answered BADREQ: the
spec gives a status for PART 0xFFFF alone (DESIGN CHOICE, log 23). -/
def partSetOp (s : State) (q : CmdReq) : State :=
  match rawOf q with
  | none => fail s q 1
  | some bs =>
    let v := payNum bs
    let old := partOf s (nfld v 367 352)
    let p := partFrom v old
    if bs.length ≠ 64 || !partFormed s v p then fail s q 1
    else if !partFree s p then fail s q 5
    else if old.any (fun o => takesAway o p) && hasCtx s p.part then fail s q 9
    else setHold (assign s p old) q p (old.any (fun o => o.hold))
/-- PART_SET (R124, R125). -/
def execPartSet (q : CmdReq) : State → Host.Outcome State Fault Refusal := command .pf false partSetOp q

/-! ## TOKENS_SET (R434, Table 25-4). -/

def tokensSetOp (s : State) (q : CmdReq) : State :=
  match rawOf q with
  | none => fail s q 1
  | some bs =>
    let v := payNum bs
    let tok := (List.range 4).map (fun d => (d, nfld v (8 * d + 7) (8 * d)))
    if bs.length ≠ 8 || nfld v 47 32 ≠ 0 then fail s q 1
    else match partOf s (nfld v 63 48) with
      | none => fail s q 1
      | some p =>
        if tok.any (fun t => (clustersOf s p.part t.1).length < t.2) then fail s q 5
        else
          let p := { p with tok := tok, tokNamed := true }
          let s := askAllTokens (putPart s p) p false
          tokenCmdEnd { s with part := { s.part with tokCmd := s.part.tokCmd ++ [(p.part, q.fn, q.hdr.cookie)] } } p.part
def execTokensSet (q : CmdReq) : State → Host.Outcome State Fault Refusal := command .pf false tokensSetOp q

/-! ## SLICE_SET (R134, Table 6-4). -/

/-- The settings a payload gives are legal for the partition. -/
def sliceOk (p : Part) (v nten slice ckpt logu : Nat) (order : List Nat) : Bool :=
  nfld v 175 168 = 0 && nfld v 127 0 = 0
  && (nten = 0 || (2 ≤ nten && nten ≤ 8 && 100 ≤ slice && slice ≤ 1000000 && 20 ≤ ckpt && ckpt ≤ 200 && slice % ckpt = 0 && 1 ≤ logu && logu ≤ 4
       && order.eraseDups.length = nten && order.all (fun f => (partVfs p).contains f)))
def freshCk (s : State) (part slice : Nat) (order : List Nat) : Ck :=
  { part, ckno := 0, lastCut := podTick s, ctick := none, cutTen := 0, cutNo := 0, doneDev := [], askAt := none, undo := [], undoWait := [], lines := [], exports := []
    sliceEnd := podTick s + 8 * slice, tenant := order.headD 0, before := none, backs := [], cand := none, images := order.map (fun f => (f, blankSnap (podTick s))), seen := [] }
/-- What SLICE_SET does. Reserved bits, SLICE, CKPT or LOGU out of range, and an ORDER that repeats a VF or names one that is not of the
partition are answered BADREQ: the spec says so of NTEN alone (DESIGN CHOICE, log 23). -/
def sliceSetOp (s : State) (q : CmdReq) : State :=
  match rawOf q with
  | none => fail s q 1
  | some bs =>
    let v := payNum bs
    let nten := nfld v 239 232
    let slice := nfld v 231 200
    let ckpt := nfld v 199 184
    let logu := nfld v 183 176
    let order := (List.range nten).map (fun i => nfld v (132 + 5 * i) (128 + 5 * i) + 1)
    match if bs.length = 32 then partOf s (nfld v 255 240) else none with
    | none => fail s q 1
    | some p =>
      if !sliceOk p v nten slice ckpt logu order then fail s q 1
      else if hasCtx s p.part || order.any (fun f => !hasFeature s f 5) then fail s q 9
      else
        let s := dropCk s p.part
        if nten = 0 then ok (putPart s { p with nten := 0, slice := 0, ckpt := 0, logu := 0, order := [] }) q 0 []
        else ok (putPart { s with ck := s.ck ++ [freshCk s p.part slice order] } { p with nten, slice, ckpt, logu, order }) q 0 []
/-- SLICE_SET (R134). -/
def execSliceSet (q : CmdReq) : State → Host.Outcome State Fault Refusal := command .pf false sliceSetOp q

/-! ## VF_RESET (R119). -/

def vfResetOp (s : State) (q : CmdReq) : State :=
  match q.args with
  | .vf v =>
    if v = 0 || (func s v).isNone then fail s q 1
    else resetsEnd (beginReset (stopReading s v) v (some q.hdr.cookie) false)
  | _ => fail s q 1
def execVfReset (q : CmdReq) : State → Host.Outcome State Fault Refusal := command .pf false vfResetOp q

end Sys2Proof.Machine
end

