-- ==== Sys2Proof/Machine/ExecEvents.lean ====
section
/-! DEFINITION. Events of a warp or stream that are no operation: the fetch of a clause, the writing of a result, the entry of a trap, and
promotion (11 R227 to R230, R244; 21 R378; 07 R166). -/

namespace Sys2Proof.Machine

/-! ## Clause fetch (R227 to R229). -/

/-- What a fetch of code words comes to. -/
inductive FetchR where
  | words (ws : List W64) | wait | fault (code : Nat) (va : W64)
  deriving DecidableEq, Repr
/-- One word of code: only pages of this device's HBM are executable (R227, Table 3-4). -/
def fetchWord (s : State) (c : Ctx) (a : AgentId) (va : W64) : State × FetchR :=
  match translate s (.agent a) c (cacheOf a) va.toNat .fetch with
  | (s, .ok x) =>
    if x.loc = .dev s.mod.poddev then (s, .words [BitVec.ofNat 64 (hbmNum s (x.pa + (va.toNat - x.va)) 8)]) else (s, .fault 0x11 va)
  | (s, .wait) => (s, .wait)
  | (s, .fault code) => (takeFault s (.agent a) (ctxKey c) va.toNat, .fault code va)
def fetchWords (c : Ctx) (a : AgentId) : Nat → State → W64 → State × FetchR
  | 0, s, _ => (s, .words [])
  | n + 1, s, va => match fetchWord s c a va with
    | (s, .words w) => match fetchWords c a n s (va + 8) with
      | (s, .words ws) => (s, .words (w ++ ws))
      | r => r
    | r => r
/-- The header checks (R227). -/
def hdrOk (h : Hdr) (stream : Bool) : Bool :=
  h.cls ≤ 9 && h.cwait ≤ 5 && (h.cwait ≠ 0 || h.thr = 0) && classOk h.cls.toNat stream && !(stream && h.cwait ≠ 0)
/-- Operations that may continue elsewhere than at the next instruction: BRA to RET, BIF, EXIT, TRAP, TRET and BRK. -/
def endsClause (op : Nat) : Bool := (0x030 ≤ op && op ≤ 0x035) || op = 0x042 || (0x2A0 ≤ op && op ≤ 0x2A2)
/-- The check of word i of a clause (R228). -/
def wordOk (cx : Option Ctx) (h : Hdr) (i : Nat) (w : W64) : Bool :=
  match mapOpcode cx (w.extractLsb' 0 10).toNat with
  | none => true
  | some op =>
    (classOf op = 0 || classOf op = h.cls.toNat) && (!endsClause op || i = h.count.toNat) && fld w 13 10 ≤ h.count.toNat - i
/-- The first word of a clause that fails its check. -/
def badWord (cx : Option Ctx) (h : Hdr) (ws : List W64) : Option Nat :=
  (List.range ws.length).find? (fun i => !wordOk cx h i (ws.getD i 0))
/-- The waits of a clause before its first instruction: CWAIT, then DRAIN (R229). A CWAIT that has been made is not made again. -/
def clauseWaits (s : State) (a : AgentId) (g : Agent) (c : Clause) : State :=
  let start (g : Agent) : State := progress (setAgent s a { settle g with waited := true })
  let drain (g : Agent) : State :=
    if c.hdr.drain && g.pend.any (fun p => p.left ≠ 0) then park (setAgent s a g) a else start g
  if c.hdr.cwait = 0 then drain g
  else match waitCounter g c.hdr.cwait.toNat c.hdr.thr.toNat with
    | .fabric e => progress (raiseHdr s a g Cause.fabric.code e)
    | .wait => park (setAgent s a g) a
    | .done => drain { g with clause := some { c with hdr := { c.hdr with cwait := 0 } } }
/-- The clause at the position is fetched whole and checked; words of a clause that is continued make no waits again. -/
def fetchClause (s : State) (a : AgentId) (g : Agent) (cx : Ctx) : State :=
  match fetchWords cx a 1 s g.pc with
  | (s, .wait) => park s a
  | (s, .fault code va) => progress (raiseHdr s a g code va)
  | (s, .words hs) => match fetchWords cx a (fld (hs.headD 0) 3 0 + 1) s (g.pc + 8) with
    | (s, .wait) => park s a
    | (s, .fault code va) => progress (raiseHdr s a g code va)
    | (s, .words ws) => match parseHdr (hs.headD 0) with
      | none => progress (raiseHdr s a g Cause.illclause.code g.pc)
      | some h =>
        if !hdrOk h (isStream a) then progress (raiseHdr s a g Cause.illclause.code g.pc)
        else match badWord (some cx) h ws with
          | some i => progress (raiseHdr s a g Cause.illclause.code (g.pc + BitVec.ofNat 64 (8 * (i + 1))))
          | none =>
            let c : Clause := ⟨h, ws⟩
            let g := { g with clause := some c, resumed := false }
            if g.idx ≠ 0 then progress (setAgent s a { g with waited := true }) else clauseWaits s a g c
/-- CLAUSE_FETCH (R227): the fetch, or the waits of a clause already fetched. -/
def clauseFetchOp (s : State) (a : AgentId) : State :=
  match agent s a with
  | none => s
  | some g =>
    if g.trapPend.isSome || g.waited || g.ended || g.haltForm ≠ .no then s
    else match g.clause, ctxOf s g.part g.ctx with
      | some c, _ => clauseWaits s a g c
      | none, some cx => fetchClause s a g cx
      | none, none => park s a
def execClauseFetch (a : AgentId) (s : State) : Host.Outcome State Fault Refusal := .next (clauseFetchOp s a)

/-! ## Results and traps (R244, R378). -/

/-- A pending operation whose result has come and whose window is closed. -/
def resultDue (p : Pend) : Bool := p.win = 0 && p.left = 0
/-- RESULT_WRITEBACK (R244). -/
def writebackOp (s : State) (a : AgentId) (id : Nat) : State :=
  modAgent s a (fun g => match g.pend.find? (fun p => p.id = id && resultDue p) with
    | some p => applyRes { g with pend := g.pend.filter (fun x => x.id ≠ id) } p.res
    | none => g)
def execResultWriteback (a : AgentId) (id : Nat) (s : State) : Host.Outcome State Fault Refusal := .next (progress (writebackOp s a id))
/-- TRAP_ENTRY (R378): a trap whose results in flight have all come. -/
def trapEntryOp (s : State) (a : AgentId) : State :=
  match agent s a with
  | none => s
  | some g => match g.trapPend with
    | some (c, v, code) =>
      if !quiet g then s
      else if code < 0x10000 then enterTrap s a g c v code (curAddr g) (some g.idx)
      else enterTrap s a g c v 0 g.pc none
    | none => s
def execTrapEntry (a : AgentId) (s : State) : Host.Outcome State Fault Refusal := .next (progress (trapEntryOp s a))

/-! ## Promotion (R166). -/

/-- A warp ready but not chosen for 2,048 cycles. -/
def promotionDue (s : State) (g : Agent) : Bool := !g.promo && g.haltForm = .no && !g.ended && g.tried + 2048 ≤ s.fab.cycles
/-- WARP_PROMOTION (R166). -/
def promotionOp (s : State) (a : AgentId) : State :=
  modAgent s a (fun g => if !isStream a && !s.waiting.contains a && promotionDue s g then { g with promo := true } else g)
def execWarpPromotion (a : AgentId) (s : State) : Host.Outcome State Fault Refusal := .next (promotionOp s a)

end Sys2Proof.Machine
end

