-- ==== Sys2Proof/Machine/HostEvents.lean ====
section
/-! DEFINITION. What the driver does to a function's registers and queues, the run of a control command, and the delivery of a milepost flit
(05 R103 to R118; 02 R53). -/

namespace Sys2Proof.Machine

/-! ## Running a control command (Table 5-6). -/

/-- Perform a command by its code; any other code completes with BADREQ (R117). -/
def runCmd (q : CmdReq) (s : State) : Host.Outcome State Fault Refusal :=
  match q.hdr.code.toNat with
  | 0x0001 => execIdentify q s
  | 0x0002 => execDiag q s
  | 0x0003 => execTelemetry q s
  | 0x0010 => execCtxCreate q s
  | 0x0011 => execCtxDestroy q s
  | 0x0012 => execXlateSet q s
  | 0x0013 => execInvalPage q s
  | 0x0014 => execMigrate q s
  | 0x0015 => execS2Answer q s
  | 0x0016 => execHomemapSet q s
  | 0x0020 => execPartSet q s
  | 0x0021 => execTokensSet q s
  | 0x0022 => execSliceSet q s
  | 0x0023 => execVfReset q s
  | 0x0030 => execQpCreate q s
  | 0x0031 => execQpModify q s
  | 0x0032 => execQpDestroy q s
  | 0x0033 => execMrReg q s
  | 0x0034 => execMrDereg q s
  | 0x0035 => execNetAddr q s
  | 0x0040 => execDecodeLoad q s
  | 0x0041 => execPgroupSet q s
  | 0x0042 => execNgroupSet q s
  | 0x0050 => execAttest q s
  | 0x0051 => execBundleWrite q ((rawOf q).any Config.bundleOk) s
  | _ => command .any true (fun s q => fail s q 1) q s
/-- A function's status shows that it needs a reset, and vector 0 is signalled. -/
def setNeedsReset (s : State) (fn : Nat) : State := signal (modFunc s fn (fun f => { f with needsReset := true })) fn 0
/-- A chain of the control queue at its turn (R106). -/
def runChain (q : CmdReq) (form : ChainForm) (s : State) : Host.Outcome State Fault Refusal :=
  match form with
  | .ok => runCmd q s
  | .writableFirst => .next (progress (postUsed s ⟨q.fn, 0, q.hdr.cookie, 1, 0, 0, [], 0⟩))
  | .noWritable => .next (progress (setNeedsReset s q.fn))

/-! ## Driver notifications (R106, R114, R115). -/

/-- Stage-2 requests that found no place are recorded as places come free (R64). -/
def resendS2 (s : State) : State :=
  s.xl.s2.foldl (fun s r =>
    if r.sent then s
    else
      let (s, sent) := postS2 s (s2Rec s r)
      { s with xl := { s.xl with s2 := s.xl.s2.map (fun x => if x.idx = r.idx then { x with sent := sent } else x) } }) s
/-- Buffers posted on the event queue. -/
def postBuffers (s : State) (fn : Nat) (n : Nat) : State :=
  let s := modFunc s fn (fun f => { f with buffers := f.buffers + n })
  resendS2 (flushEvents s fn (n + 1))
/-- The form of a chain: one whose writable part holds no result, or no event record on queue 1, is one no status can be written to (log 23). -/
def formOf (q : Nat) (c : Chain) : ChainForm :=
  if q = 1 then (if c.form = .ok && 64 ≤ c.room then .ok else .noWritable)
  else if c.form ≠ .noWritable && c.room < 16 then .noWritable else c.form
/-- Chains of the event queue: each of good form is one buffer (R106, R113). -/
def eventChains (s : State) (fn : Nat) (cs : List Chain) : State :=
  let s := postBuffers s fn (cs.filter (fun c => formOf 1 c = .ok)).length
  if cs.any (fun c => formOf 1 c ≠ .ok) then setNeedsReset s fn else s
/-- A request of a work queue joins its ring; the ring's watchdog starts when it was empty (R115, R139). -/
def appendReq (s : State) (fn q : Nat) (x : WqReq) : State :=
  match ringAt s fn q with
  | some r =>
    let r := if (headReq r).isNone then { r with since := s.fab.podNs, count := 0 } else r
    setRing s { r with reqs := r.reqs ++ [x] }
  | none =>
    let r : Ring := { fn, q, reqs := [x], idx := 0, pkt := 0, off := 0, busy := false, period := 0, since := s.fab.podNs, count := 0 }
    { s with sched := { s.sched with rings := s.sched.rings ++ [r] } }
/-- One chain of a work queue: BADREQ answers a malformed one at its turn. -/
def workChain (s : State) (fn q : Nat) (c : Chain) : State :=
  match formOf (q + 2) c with
  | .ok => appendReq s fn q ⟨c.hdr, c.words, false⟩
  | .writableFirst => appendReq s fn q ⟨c.hdr, [], true⟩
  | .noWritable => setNeedsReset s fn
/-- One chain of the control queue waits its turn. -/
def ctlChain (s : State) (fn : Nat) (c : Chain) : State :=
  { s with host := { s.host with ctlQ := s.host.ctlQ ++ [(fn, ⟨fn, c.hdr, c.args, c.len, c.room⟩, formOf 0 c)] } }
/-- The new chains of a queue are read; one that is never used does not stand among those that are (R116). -/
def readQueue (s : State) (fn q : Nat) (f : Func) (chains : List Chain) : State :=
  let used := chains.filter (fun c => formOf q c ≠ .noWritable)
  let s := setFunc s fn (setVq f (used.foldl (fun v c => readChain v c.descs) (vqOf fn f q)))
  if q = 0 then chains.foldl (fun s c => ctlChain s fn c) s
  else if q = 1 then eventChains s fn chains
  else chains.foldl (fun s c => workChain s fn (q - 2) c) s
/-- DRIVER_NOTIFICATION (R115): the new chains of an enabled queue are read, by the function's serving core. While the function does not read
its queues they stay where they are, to be read when it does (R109, R477; DEDUCED, log 23). -/
def notifyOp (s : State) (fn q : Nat) (chains : List Chain) : State :=
  match func s fn with
  | none => s
  | some f =>
    if !f.reading then { s with host := { s.host with unread := s.host.unread ++ chains.map (fun c => (fn, q, c)) } }
    else if !queueOn fn f q || (servedBy s.mod fn).isNone then s
    else readQueue s fn q f chains
/-- The function reads its queues again: the chains that wait on its enabled queues are read, in the order they were made available. -/
def readUnread (s : State) (fn : Nat) : State :=
  match func s fn with
  | none => s
  | some f =>
    if !f.reading || (servedBy s.mod fn).isNone then s
    else
      let due (x : Nat × Nat × Chain) : Bool := x.1 = fn && queueOn fn f x.2.1
      let now := s.host.unread.filter due
      now.foldl (fun s x => match func s fn with
        | some f => readQueue s fn x.2.1 f [x.2.2]
        | none => s) { s with host := { s.host with unread := s.host.unread.filter (fun x => !due x) } }
def execDriverNotification (fn q : Nat) (chains : List Chain) (s : State) : Host.Outcome State Fault Refusal :=
  .next (progress (notifyOp s fn q chains))

/-! ## Registers of a function (R103, R104, R107, R108). -/

/-- The notification area of BAR0 (Table 5-1): 4 bytes for each of 34 queues from 0x1000. -/
def notifyMult : Nat := 4
def notifyAt (off : Nat) : Bool := 0x1000 ≤ off && off < 0x1000 + 34 * notifyMult && off % notifyMult = 0

/-- Transport features a driver must accept: VERSION_1, ACCESS_PLATFORM and RING_PACKED (R107). -/
def needFeatures : W64 := maskOf 64 [32, 33, 34]
/-- FEATURES_OK_WRITE (R107, R108): the accepted set is fixed, or FEATURES_OK stays clear. -/
def featuresOp (s : State) (fn : Nat) (bits : W64) : State :=
  modFunc s fn (fun f =>
    if f.status.getLsbD 3 then f
    else if bits &&& ~~~ (offered s fn) = 0 && bits &&& needFeatures = needFeatures then { f with features := bits, status := f.status ||| 8 }
    else f)
def execFeaturesOkWrite (fn : Nat) (bits : W64) (s : State) : Host.Outcome State Fault Refusal := .next (progress (featuresOp s fn bits))
/-- The driver's device status: FEATURES_OK is the device's, and with DRIVER_OK the function reads its queues; after a failed bring-up too, so that
DIAG can be asked (R22), but not while a reset of the function is under way (R119). -/
def statusWrite (s : State) (fn : Nat) (v : BitVec 8) : State :=
  if v = 0 then driverReset s fn
  else
    let busy := s.host.resets.any (fun r => r.fn = fn)
    readUnread (modFunc s fn (fun f =>
      let st := (v &&& 0xF7) ||| (f.status &&& 8)
      { f with status := st, reading := st.getLsbD 2 && st.getLsbD 3 && (f.reading || (!busy && (!f.needsReset || s.mod.fault ≠ 0))) })) fn
/-- The queue that queue_select names. -/
def selQueue (f : Func) : Nat := (mget f.config 0x16).toNat % 65536
/-- queue_size: a power of two up to the maximum, of a queue not yet enabled (R105); another value is not taken (log 23). -/
def sizeWrite (fn n : Nat) (f : Func) : Func :=
  let v := vqOf fn f (selQueue f)
  if !v.on && powerOf2 n 1 (queueMax fn f v.num) then setVq f { v with size := n } else f
/-- queue_enable: a queue whose maximum size is 0 cannot be enabled (R105). -/
def enableWrite (fn n : Nat) (f : Func) : Func :=
  let v := vqOf fn f (selQueue f)
  if n = 1 && queueMax fn f v.num ≠ 0 then setVq f { v with on := true } else f
/-- A half of one of the areas' addresses. -/
def areaWrite (fn off : Nat) (x : W32) (f : Func) : Func :=
  let v := vqOf fn f (selQueue f)
  let put (w : W64) : W64 := if off % 8 = 0 then setFld w 31 0 x.toNat else setFld w 63 32 x.toNat
  if v.on || queueMax fn f v.num = 0 then f
  else setVq f (if off < 0x28 then { v with desc := put v.desc } else if off < 0x30 then { v with driver := put v.driver } else { v with device := put v.device })
/-- A register of the common configuration (virtio 1.3, log 24): the read-only ones ignore a write, and those that set up a queue act on
the one that queue_select names. -/
def commonWrite (fn off : Nat) (v : W32) (f : Func) : Func :=
  if off = 0x18 then sizeWrite fn (v.toNat % 65536) f
  else if off = 0x1C then enableWrite fn (v.toNat % 65536) f
  else if 0x20 ≤ off && off < 0x38 then areaWrite fn off v f
  else if [0x04, 0x12, 0x15, 0x1E].contains off then f
  else { f with config := mset f.config off v }
/-- A register of BAR0 is written: device_status at 0x14 of the common configuration, which takes 64 bytes; in the notification area, of 4
bytes a queue, the queue is notified (what it makes available is DRIVER_NOTIFICATION's); the device-specific configuration and the ISR status
ignore writes (R103, R104). -/
def barWrite (s : State) (fn off : Nat) (v : W32) : State :=
  if off = 0x14 then statusWrite s fn (v.extractLsb' 0 8)
  else if off < 0x40 then modFunc s fn (commonWrite fn off v)
  else if notifyAt off then notifyOp s fn ((off - 0x1000) / notifyMult) []
  else s
/-- CONFIG_REGISTER_WRITE (R103, R104): of the PCI configuration, BAR0's address keeps the bits above 64 KiB, and MSI-X is enabled by the top bit
of its control. Before the functions are presented no register can be written (R21). -/
def configOp (s : State) (fn : Nat) (reg : RegAt) (v : W32) : State :=
  match reg with
  | .bar off => barWrite s fn off v
  | .bar0Lo => modFunc s fn (fun f => { f with bar0 := setFld f.bar0 31 16 (v.toNat / 65536) })
  | .bar0Hi => modFunc s fn (fun f => { f with bar0 := setFld f.bar0 63 32 v.toNat })
  | .msixControl => modFunc s fn (fun f => { f with msix := v.getLsbD 15 })
def execConfigRegisterWrite (fn : Nat) (reg : RegAt) (v : W32) (s : State) : Host.Outcome State Fault Refusal := .next (progress (configOp s fn reg v))
/-- What a configuration request is answered: Request Retry Status until the functions are presented (R21), else the register (R102, R103). -/
inductive CfgAnswer where
  | retry | value (v : Nat) | written | absent
  deriving DecidableEq, Repr
/-- What a configuration write of a function is answered: before presentation Request Retry Status, with nothing written (R21). -/
def configAnswer (s : State) (fn : Nat) : CfgAnswer :=
  if s.mod.power = .ready then .retry else if (func s fn).isSome then .written else .absent
/-- A read of a function's PCI configuration by its standard offset: the identifiers and BAR0; the MSI-X control and the notify_off_multiplier of
the notification capability stand at no stated offset. -/
inductive PciReg where
  | vendor | device | subsystemVendor | subsystem | bar0Lo | bar0Hi | msixControl | notifyMultiplier
  deriving DecidableEq, Repr
def pciRead (s : State) (fn : Nat) (r : PciReg) : CfgAnswer :=
  if s.mod.power = .ready then .retry
  else match func s fn with
    | none => .absent
    | some f => .value (match r with
      | .vendor => 0x1AF4 | .device => 0x107B | .subsystemVendor => Config.subsysVendor.toNat | .subsystem => 0x7460
      | .bar0Lo => fld f.bar0 31 0 | .bar0Hi => fld f.bar0 63 32 | .msixControl => if f.msix then 0x8000 + 34 else 34
      | .notifyMultiplier => notifyMult)
/-- A driver's read of a register of BAR0 (Tables 5-1, 5-2), and the function after it: the read of the ISR clears it. -/
def barRead (s : State) (fn off : Nat) (f : Func) : Nat × Func :=
  let v := vqOf fn f (selQueue f)
  if off = 0x04 then (nfld (offered s fn).toNat (32 * ((mget f.config 0).toNat % 2) + 31) (32 * ((mget f.config 0).toNat % 2)), f)
  else if off = 0x12 then (if fn = 0 then 2 else 34, f)
  else if off = 0x14 then ((f.status ||| if f.needsReset then 0x40 else 0).toNat, f)
  else if off = 0x15 then (f.cfgGen.toNat, f)
  else if off = 0x18 then (if queueMax fn f v.num = 0 then 0 else v.size, f)
  else if off = 0x1C then (if v.on then 1 else 0, f)
  else if off = 0x1E then (v.num, f)
  else if 0x20 ≤ off && off < 0x38 then
    (fld (if off < 0x28 then v.desc else if off < 0x30 then v.driver else v.device) (if off % 8 = 0 then 31 else 63) (if off % 8 = 0 then 0 else 32), f)
  else if off < 0x40 then ((mget f.config off).toNat, f)
  else if off = 0x2000 then (if f.msix then 0 else f.isr.toNat, { f with isr := 0 })
  else if 0x3000 ≤ off && off < 0x3020 then (nfld (config52 s fn) (8 * (off - 0x3000) + 31) (8 * (off - 0x3000)), f)
  else (0, f)

/-! ## Milepost delivery (R45, R53). -/

/-- The generation of a flit against the sender's tenant: a checkpoint mark names its tenant; junction flits have none, and RESET marks and
the DONE marks that answer them are exempt. Of a partition that is not here no generation is known: the group tables decide. -/
def flitGen (s : State) (f : Flit) : GenCmp :=
  if f.part = 0xFFFF || (f.kind = 4 && (markOp f = 5 || (markOp f = 2 && markNgen f ≠ 0))) then .current
  else if f.kind = 4 then genCmp f.gen.toNat (fnGen s (markTen f)).toNat
  else genOfSender s f.part.toNat f.gen.toNat
/-- A discarded older flit is counted in STALE of the tenant's function (R129), and one of the notice store in DISC (R457). -/
def flitStale (s : State) (f : Flit) : State :=
  if f.kind = 4 then modFunc s (markTen f) (fun x => { x with stale := sat32 x.stale })
  else
    let s := countStale s f.part.toNat
    match f.kind.toNat with
    | 1 => discFlit s (fld f.payload 159 144)
    | 2 => discFlit s (fld f.payload 207 192)
    | 3 => discFlit s (fld f.payload 207 192)
    | _ => s
/-- A checkpoint mark by its OP; other values are discarded (Table 6-5). -/
def markOn (f : Flit) (s : State) : Host.Outcome State Fault Refusal :=
  match markOp f with
  | 1 => execCutMark f s
  | 2 => execDoneMark f s
  | 3 => execCommitMark f s
  | 4 => execSliceendMark f s
  | 5 => execResetMark f s
  | _ => .next (progress s)
/-- A flit that has passed the discards, by its KIND (Table 2-5). The payloads of junction flits are given nowhere: the model takes pod time in
nanoseconds from bits 63 to 0 of a time-base flit, and "the link to device p is down" from bit p of a link-map flit (DESIGN CHOICE, log 46). -/
def flitOn (f : Flit) (s : State) : Host.Outcome State Fault Refusal :=
  match f.kind.toNat with
  | 1 => execNoticeFlit f s
  | 2 => execObjectionFlit f s
  | 3 => execOutcomeFlit f s
  | 4 => markOn f s
  | 5 => execTimeBaseFlit (fld f.payload 63 0) s
  | 6 => execLinkMapFlit (f.src.toNat - 0x100) (bitsOf f.payload 144) s
  | _ => .next (progress { s with fab := { s.fab with mpDisc := s.fab.mpDisc + 1 } })
/-- MILEPOST_DELIVERY (R53). -/
def execMilepostDelivery (f : Flit) (s : State) : Host.Outcome State Fault Refusal :=
  match flitGen s f with
  | .current => flitOn f s
  | .older => .next (progress (flitStale s f))
  | .newer => .next (progress s)

end Sys2Proof.Machine
end

