-- ==== Sys2Proof/Machine/Population.lean ====
section
/-! DEFINITION. Weighted populations (26 R436 to R451). -/

namespace Sys2Proof.Machine

/-! ## Objects and slots. -/

/-- slotid of a lane (R437). -/
def slotid (a : AgentId) (g : Agent) (l : Nat) : Nat :=
  g.die * 2 ^ 18 + g.cluster * 2 ^ 13 + (g.x % 2 + 2 * (g.y % 2)) * 2 ^ 11 + slotOf a * 32 + l
def popZero : PopObj := ⟨false, 0, 0, 0, 0, [], [], none⟩
def popKey (g : Agent) (n : Nat) : Nat × Nat := (ckey g.part g.ctx, n)
def popAt (s : State) (k : Nat × Nat) : PopObj := (lkp s.pop k).getD popZero
def setPop (s : State) (k : Nat × Nat) (o : PopObj) : State := { s with pop := ins s.pop k o }
/-- POP of a population word, and its mode bit (R440). -/
def popNum (f : FmtA) : Nat := nfld f.sub.toNat 3 0
def popMode (f : FmtA) : Bool := nfld f.sub.toNat 4 4 = 1
/-- Lanes of a warp registered in an object. -/
def regLanes (o : PopObj) (a : AgentId) : List Nat := (o.slots.filter (fun e => e.2.1 = a)).map (fun e => e.2.2.1)
/-- Lanes of a warp live in an object. -/
def liveLanes (o : PopObj) (a : AgentId) : List Nat := (o.slots.filter (fun e => e.2.1 = a && e.2.2.2)).map (fun e => e.2.2.1)
/-- NLIVE of Table 26-1. -/
def nlive (o : PopObj) : Nat := (o.slots.filter (fun e => e.2.2.2)).length
/-- LIN (Table 26-2). -/
def linWord (gen : W32) (vac clone : Bool) (pop pslot : Nat) : W64 :=
  BitVec.ofNat 64 (gen.toNat * 2 ^ 32 + (if vac then 2 ^ 25 else 0) + (if clone then 2 ^ 24 else 0) + pop * 2 ^ 20 + pslot)
/-- Member warps: those that hold a slot. -/
def members (o : PopObj) : List AgentId := (o.slots.map (fun e => e.2.1)).eraseDups
/-- Every member warp has an arrival recorded, and there is one (R445); the copies of the commit before are made. -/
def popReady (o : PopObj) : Bool :=
  o.v && o.copy.isNone && o.slots ≠ [] && (members o).all (fun a => o.arrivals.any (fun r => r.agent = a))
/-- A slot put in its place among slots of ascending slotid. -/
def insSlot (x : Nat × AgentId × Nat × Bool) : List (Nat × AgentId × Nat × Bool) → List (Nat × AgentId × Nat × Bool)
  | [] => [x]
  | y :: r => if x.1 ≤ y.1 then x :: y :: r else y :: insSlot x r
/-- Ascending slotid. -/
def sortSlots (l : List (Nat × AgentId × Nat × Bool)) : List (Nat × AgentId × Nat × Bool) := l.foldr insSlot []

/-! ## PINIT, PJOIN, PLEAVE, PSTAT, PLIN. -/

/-- PINIT (R441). -/
def pinitBody (f : FmtA) (s : State) (_a : AgentId) (g : Agent) : Res :=
  let w := sget g f.oa.toNat
  let k := popKey g (popNum f)
  let o := popAt s k
  let cap := fld w 19 0
  let tgt := fld w 39 20
  if fld w 63 40 ≠ 0 then .trap s .bounds w
  else if cap = 0 then
    if o.slots ≠ [] then .trap s .bounds w else .next { s with pop := del s.pop k }
  else if 786432 < cap || cap < tgt || cap < o.slots.length then .trap s .bounds w
  else .next (setPop s k { o with v := true, gen := if o.v then o.gen else 0, cap, target := tgt, seed := sget g (f.oa.toNat + 1) })
def execPinit (f : FmtA) : State → Host.Outcome State Fault Refusal := issue (.pinit f) (uniform f.c (pinitBody f))
/-- PJOIN (R442). -/
def pjoinBody (f : FmtA) (s : State) (a : AgentId) (g : Agent) : Res :=
  let k := popKey g (popNum f)
  let o := popAt s k
  let ls := lanes g f.c
  let taken := ls.filter (fun l => s.pop.any (fun e => (regLanes e.2 a).contains l))
  if ls = [] then .next s
  else if !o.v then .trap s .bounds (BitVec.ofNat 64 (popNum f))
  else if taken ≠ [] then .trap s .bounds (maskOf 64 taken)
  else if o.cap < o.slots.length + ls.length then .trap s .bounds (BitVec.ofNat 64 o.cap)
  else
    let vac := popMode f
    let g := ls.foldl (fun (g : Agent) l => { g with lin := mset g.lin l (linWord o.gen vac false (popNum f) (slotid a g l)) }) g
    .next (setPop (setAgent s a g) k { o with slots := o.slots ++ ls.map (fun l => (slotid a g l, a, l, !vac)) })
def execPjoin (f : FmtA) : State → Host.Outcome State Fault Refusal := issue (.pjoin f) (pjoinBody f)
/-- PLEAVE (R443). -/
def pleaveBody (f : FmtA) (s : State) (a : AgentId) (g : Agent) : Res :=
  let k := popKey g (popNum f)
  let o := popAt s k
  let ls := lanes g f.c
  if ls = [] then .next s
  else if !o.v then .trap s .bounds (BitVec.ofNat 64 (popNum f))
  else .next (setPop s k { o with slots := o.slots.filter (fun e => !(e.2.1 = a && ls.contains e.2.2.1)) })
def execPleave (f : FmtA) : State → Host.Outcome State Fault Refusal := issue (.pleave f) (pleaveBody f)
/-- PSTAT (R450, Tables 26-6 and 26-7). -/
def pstatBody (f : FmtA) (s : State) (a : AgentId) (g : Agent) : Res :=
  let o := popAt s (popKey g (popNum f))
  let w0 := if o.v then o.gen.toNat * 2 ^ 32 + nlive o * 2 ^ 12 + 1 else 0
  let w1 := if o.v then o.cap * 2 ^ 40 + o.target * 2 ^ 20 + o.slots.length else 0
  let g := sset (sset g f.oa.toNat (BitVec.ofNat 64 w0)) (f.oa.toNat + 1) (BitVec.ofNat 64 w1)
  let g := if popMode f then (lanes g f.c).foldl (fun g l => pset g f.ob.toNat l ((liveLanes o a).contains l)) g else g
  .next (setAgent s a g)
def execPstat (f : FmtA) : State → Host.Outcome State Fault Refusal := issue (.pstat f) (uniform f.c (pstatBody f))
/-- PLIN (R451). -/
def execPlin (f : FmtA) : State → Host.Outcome State Fault Refusal :=
  issue (.plin f) fun s a g =>
    .next (setAgent s a ((lanes g f.c).foldl (fun g l => vset64 g f.oa.toNat l (mget g.lin l)) g))

/-! ## RESAMPLE: arrival (R444). -/

/-- A commit takes place, or goes on. -/
def popDue (o : PopObj) : Bool := popReady o || o.copy.isSome
/-- A given offset is a real of [0, 1). -/
def offOk (o : W32) : Bool := o.toNat % 2 ^ 31 = 0 || o.toNat < 0x3F800000
/-- Lowest register code pending in an open window (R444). -/
def windowReg (g : Agent) : Option Nat :=
  let cs := (g.pend.filter (fun p => 0 < p.win)).flatMap (fun p => p.dst.map RC.code)
  cs.head?.map (fun c => cs.foldl min c)
def resampleBody (f : FmtA) (s : State) (a : AgentId) (g : Agent) : Res :=
  let n := popNum f
  let k := popKey g n
  let o := popAt s k
  let ls := lanes g f.c
  let mine := regLanes o a
  let out := mine.filter (fun l => !ls.contains l)
  let off := (sget g f.ob.toNat).extractLsb' 0 32
  if !o.v then .trap s .bounds (BitVec.ofNat 64 n)
  else match windowReg g with
    | some r => .trap s .illdep (BitVec.ofNat 64 r)
    | none =>
      if out ≠ [] then .trap s .popdiv (maskOf 64 out)
      else if !popMode f && !offOk off then .trap s .bounds (sget g f.ob.toNat)
      else if mine = [] then .next (setAgent s a (ls.foldl (fun g l => pset g f.oc.toNat l false) g))
      else if g.arrived || !quiet g then .wait s
      else
        let g := settleAll g
        match g.poison with
        | some v => .trap (setAgent s a { g with poison := none }) .poison v
        | none => match g.fabErr with
          | some e => .trap (setAgent s a g) .fabric e
          | none =>
          if relWait s a g 4 then .wait s else
          let r : Arrival := { agent := a, draw := popMode f, off, pdst := f.oc.toNat, parts := maskOf 32 ls, v := g.v, p := g.p,
                               weights := (liveLanes o a).map (fun l => (slotid a g l, vget g f.oa.toNat l)) }
          .wait (progress (setPop (setAgent s a { g with arrived := true }) k { o with arrivals := o.arrivals ++ [r] }))
def execResample (f : FmtA) : State → Host.Outcome State Fault Refusal := issue (.resample f) (resampleBody f)

/-! ## The commit (R445 to R449). -/

/-- An FP32 value in units of 2^-149; NaN, negative and infinite count as 0 (R446). -/
def weightUnits (x : W32) : Nat :=
  let b := x.toNat
  let e := nfld b 30 23
  if nfld b 31 31 = 1 || e = 255 then 0 else if e = 0 then b % 2 ^ 23 else (b % 2 ^ 23 + 2 ^ 23) * 2 ^ (e - 1)
/-- Offspring counts in canonical order; u in units of 2^-149 (R446). -/
def offspring (n u : Nat) (xs : List Nat) : List Nat :=
  let w := xs.foldl (· + ·) 0
  let (xs, w) := if w = 0 then (xs.map (fun _ => 1), xs.length) else (xs, w)
  let fl (c : Nat) : Nat := (n * c * 2 ^ 149 + u * w) / (w * 2 ^ 149)
  (xs.foldr (fun x (acc : List Nat × Nat) => ((fl (acc.2 + x) - fl acc.2) :: acc.1, acc.2 + x)) ([], 0)).1
/-- The nearest of the free slots to a parent, each list ascending (R447). -/
def nearest (v : List Nat) (m : Nat) : Option Nat :=
  let same (q : Nat) := v.find? (fun d => d / q = m / q)
  match same (2 ^ 5), same (2 ^ 11), same (2 ^ 13), same (2 ^ 18) with
  | some d, _, _, _ => some d
  | _, some d, _, _ => some d
  | _, _, some d, _ => some d
  | _, _, _, some d => some d
  | _, _, _, _ => v.head?
/-- Place n clones of one parent: the slots left, and the placements. -/
def placeOne (m : Nat) : Nat → List Nat × List (Nat × Nat) → List Nat × List (Nat × Nat)
  | 0, acc => acc
  | n + 1, (v, ps) => match nearest v m with
    | some d => placeOne m n (v.filter (fun x => x ≠ d), ps ++ [(m, d)])
    | none => (v, ps)
/-- Every placement, parents ascending. -/
def placeAll (v : List Nat) (ks : List (Nat × Nat)) : List (Nat × Nat) :=
  (ks.foldl (fun acc k => placeOne k.1 (k.2 - 1) acc) (v, [])).2
/-- The carry mask of a parent's warp, none where its table is unusable; or the table is still to be read (R448, R253). -/
def carryOf (s : State) (a : AgentId) : State × Option (Option LiveSet) :=
  match agent s a with
  | none => (s, some none)
  | some g => match sideHere s a g 1 with
    | (s, .found l) => (s, some (some l))
    | (s, .none) => (s, some none)
    | (s, .wait) => (s, none)
/-- The carry masks of every parent, once all their tables are read. -/
def carries : List AgentId → State → State × Option (List (AgentId × Option LiveSet))
  | [], s => (s, some [])
  | a :: r, s => match carryOf s a, carries r (carryOf s a).1 with
    | (_, some c), (s, some cs) => (s, some ((a, c) :: cs))
    | _, (s, _) => (s, none)
/-- Copy one member's image into a slot, from the registers as they stood at its arrival. -/
def cloneInto (rs : List Arrival) (s : State) (cm : Option LiveSet) (am : AgentId) (lm : Nat) (ad : AgentId) (ld : Nat) : State :=
  match agent s am, rs.find? (fun r => r.agent = am) with
  | some gm, some r =>
    let gm := { gm with v := r.v, p := r.p }
    modAgent s ad (fun g =>
      let vs := (List.range (min gm.alloc g.alloc)).filter (fun n => match cm with
        | some c => c.vlive.getLsbD n
        | none => true)
      let ps := (List.range 7).filter (fun n => match cm with
        | some c => c.plive.testBit n
        | none => true)
      let g := vs.foldl (fun g n => vset g n ld (vget gm n lm)) g
      ps.foldl (fun g n => pset g n ld (pget gm n lm)) g)
  | _, _ => s
/-- Where a slotid lies. -/
def slotAgent (slots : List (Nat × AgentId × Nat × Bool)) (id : Nat) : Option (AgentId × Nat) :=
  (slots.find? (fun e => e.1 = id)).map (fun e => (e.2.1, e.2.2.1))
/-- The clones of a commit copied into their slots. -/
def cloneAll (s : State) (c : PopCopy) (cms : List (AgentId × Option LiveSet)) : State :=
  c.clones.foldl (fun s p => match slotAgent c.slots p.1, slotAgent c.slots p.2 with
    | some (am, lm), some (ad, ld) => cloneInto c.arrivals s ((lkp cms am).getD none) am lm ad ld
    | _, _ => s) s
/-- The registered slots' LIN after a commit (R448). -/
def commitLins (s : State) (pop : Nat) (gen : W32) (slots : List (Nat × AgentId × Nat × Bool)) (ps : List (Nat × Nat)) : State :=
  slots.foldl (fun s e =>
    let parent := (ps.find? (fun p => p.2 = e.1)).map Prod.fst
    let w := linWord gen (!e.2.2.2) parent.isSome pop (parent.getD e.1)
    modAgent s e.2.1 (fun g => { g with lin := mset g.lin e.2.2.1 w })) s
/-- The arrivals' completion, the copies made: the result predicates (R448, R449). -/
def commitEnd (s : State) (c : PopCopy) : State :=
  c.arrivals.foldl (fun s r => modAgent s r.agent (fun g =>
    let g := (bitsOf r.parts 32).foldl (fun g l =>
      pset g r.pdst l (c.slots.any (fun e => e.2.1 = r.agent && e.2.2.1 = l && e.2.2.2))) g
    advance { g with arrived := false, acqHold := false })) s
/-- Registers the copies write: for each warp that takes clones, the V registers carried and its special registers. -/
def copyRegs (s : State) (c : PopCopy) (cms : List (AgentId × Option LiveSet)) : List (AgentId × List Nat) :=
  c.clones.filterMap (fun p => match slotAgent c.slots p.1, slotAgent c.slots p.2 with
    | some (am, _), some (ad, _) =>
      let n := min (((agent s am).map Agent.alloc).getD 0) (((agent s ad).map Agent.alloc).getD 0)
      some (ad, 0x10000 :: (List.range n).filter (fun i => ((lkp cms am).getD none).all (fun l => l.vlive.getLsbD i)))
    | _, _ => none)
/-- The copies of a commit, once its parents' safe-point tables are read and the register logs have room (R135): the arrivals complete. -/
def copyPop (s : State) (k : Nat × Nat) (c : PopCopy) : State × Bool :=
  let parents := ((c.clones.filterMap (fun p => slotAgent c.slots p.1)).map Prod.fst).eraseDups
  match carries parents s with
  | (s, none) => (s, false)
  | (s, some cms) =>
    let ws := copyRegs s c cms
    if !regRoom s ws then (s, false) else
    let s := parents.foldl (fun s a => ioDrop s (.side a)) s
    let s := ws.foldl (fun s w => modAgent s w.1 (fun g => logRegs s g w.2)) s
    let s := commitEnd (cloneAll s c cms) c
    (setPop s k { popAt s k with copy := none }, true)
/-- The commit of an object whose members have all arrived (R445 to R449): the instant of the check fixes the offspring, the places and the new
generation. -/
def commitPop (s : State) (k : Nat × Nat) (o : PopObj) : State :=
  if o.slots.length < o.target then
    let s := setPop s k { o with arrivals := [] }
    o.arrivals.foldl (fun s r => match agent s r.agent with
      | some g => raise s r.agent { g with arrived := false } Cause.bounds.code (BitVec.ofNat 64 o.target) 0
      | none => s) s
  else
    let all := sortSlots o.slots
    let live := all.filter (fun e => e.2.2.2)
    let first := (all.head?.bind (fun e => o.arrivals.find? (fun r => r.agent = e.2.1)))
    let u := match first with
      | some r => if r.draw then fld (gen o.seed (BitVec.ofNat 32 k.2) (o.gen.zeroExtend 64)) 63 40 * 2 ^ 125 else weightUnits r.off
      | none => 0
    let xs := live.map (fun e => weightUnits ((o.arrivals.findSome? (fun r => lkp r.weights e.1)).getD 0))
    let ks := if live = [] then [] else (live.map (fun e => e.1)).zip (offspring o.target u xs)
    let retire := (ks.filter (fun x => x.2 = 0)).map Prod.fst
    let free := (all.filter (fun e => !e.2.2.2 || retire.contains e.1)).map (fun e => e.1)
    let ps := placeAll free ks
    let slots := all.map (fun e => (e.1, e.2.1, e.2.2.1, (e.2.2.2 && !retire.contains e.1) || ps.any (fun p => p.2 = e.1)))
    setPop (commitLins s k.2 (o.gen + 1) slots ps) k { o with gen := o.gen + 1, slots, arrivals := [], copy := some ⟨o.arrivals, slots, ps⟩ }
/-- RESAMPLE_COMMIT (R445, R446): the commit, and its copies as soon as the parents' tables are read (log 10). -/
def execResampleCommit (part ctx pop : Nat) (s : State) : Host.Outcome State Fault Refusal :=
  let k := (ckey part ctx, pop)
  let s1 := if popReady (popAt s k) then progress (commitPop s k (popAt s k)) else s
  match (popAt s1 k).copy with
  | none => .next s1
  | some c => match copyPop s1 k c with
    | (s, true) => .next (progress s)
    | (s, false) => .next (stall s (.pop part ctx pop))

end Sys2Proof.Machine
end

