-- ==== Sys2Proof/Machine/Scalar.lean ====
section
/-! DEFINITION. Scalar and control operations (14), but for SPAWN and JOIN (Machine/Tasks.lean). -/

namespace Sys2Proof.Machine

/-! ## Register arithmetic (R282 to R286). -/

/-- A source of width w read as its type (R282). -/
def ssrc (t : Ty) (x : W64) : Int := ival t x.toNat
/-- A w-bit result extended to 64 bits (R282): sign extension for s types, zeros otherwise. -/
def sext282 (t : Ty) (n : Nat) : W64 :=
  if Ty.signed t then sext64 (Ty.bits t) n else BitVec.ofNat 64 (n % 2 ^ Ty.bits t)
/-- Three-way compare (R284). -/
def cmp3 (a b : Int) : Int := if a < b then -1 else if a = b then 0 else 1
/-- Quotient and remainder of R285, before wrap or sat. -/
def squot (t : Ty) (a b : Int) : Int := if b = 0 then (if Ty.signed t then -1 else tmax t) else Int.tdiv a b
def srem285 (a b : Int) : Int := if b = 0 then a else Int.tmod a b

/-- The exact result of Table 14-1 by opcode, from a, b and c. -/
def salu (op : Nat) (t : Ty) (a b : Int) (ra rb rc : Nat) : Int :=
  let w := Ty.bits t
  match op with
  | 0x000 => a + b
  | 0x001 => a - b
  | 0x002 => a * b
  | 0x003 => (a * b) / (2 ^ w : Nat)
  | 0x004 => squot t a b
  | 0x005 => srem285 a b
  | 0x006 => (ra &&& rb : Nat)
  | 0x007 => (ra ||| rb : Nat)
  | 0x008 => (ra ^^^ rb : Nat)
  | 0x009 => ((ra <<< (rb % w)) % 2 ^ w : Nat)
  | 0x00A => (ra >>> (rb % w) : Nat)
  | 0x00B => a / (2 ^ (rb % w) : Nat)
  | 0x00C => min a b
  | 0x00D => max a b
  | 0x00E => cmp3 a b
  | 0x00F => if rc ≠ 0 then ra else rb
  | 0x010 => (lzCount w ra : Nat)
  | 0x011 => (popCount (BitVec.ofNat w ra) : Nat)
  | _ => ra

/-- A format T scalar operation: value for S[DST] and flags (R284). -/
def salu2 (op : Nat) (f : FmtT) (x y z : W64) : W64 × FlagBits :=
  let w := Ty.bits f.ty
  let r := salu op f.ty (ssrc f.ty x) (ssrc f.ty y) (x.toNat % 2 ^ w) (y.toNat % 2 ^ w) z.toNat
  if Ty.isInt f.ty && op ≠ 0x00E then
    let (n, fl) := intRes f.ty f.sat r
    (sext282 f.ty n, fl)
  else (sext282 (if op = 0x00E then (if w = 64 then Ty.s64 else if Ty.signed f.ty then Ty.s32 else Ty.z32) else f.ty)
          (wrapN w r), 0)
/-- A scalar operation that writes its result at once. -/
def scalarT (op : Nat) (f : FmtT) : State → AgentId → Agent → Res :=
  uniform f.c fun s a g =>
    let (v, fl) := salu2 op f (sget g f.oa.toNat) (sget g f.ob.toNat) (sget g f.oc.toNat)
    .next (setAgent s a (addFlags (sset g f.dst.toNat v) fl))
/-- A long-latency scalar operation: the result waits for its window (R283, R285). -/
def scalarLong (op : Nat) (f : FmtT) : State → AgentId → Agent → Res :=
  uniform f.c fun s a g =>
    let (v, fl) := salu2 op f (sget g f.oa.toNat) (sget g f.ob.toNat) 0
    let (id, s) := fresh s
    .next (setAgent s a (addPend g id f.c.la.toNat 0 [⟨1, f.dst.toNat⟩] ⟨[], [(f.dst.toNat, v)], fl, none⟩))

def execSadd (f : FmtT) : State → Host.Outcome State Fault Refusal := issue (.sadd f) (scalarT 0x000 f)
def execSsub (f : FmtT) : State → Host.Outcome State Fault Refusal := issue (.ssub f) (scalarT 0x001 f)
def execSmul (f : FmtT) : State → Host.Outcome State Fault Refusal := issue (.smul f) (scalarT 0x002 f)
def execSmulh (f : FmtT) : State → Host.Outcome State Fault Refusal := issue (.smulh f) (scalarT 0x003 f)
def execSdiv (f : FmtT) : State → Host.Outcome State Fault Refusal := issue (.sdiv f) (scalarLong 0x004 f)
def execSrem (f : FmtT) : State → Host.Outcome State Fault Refusal := issue (.srem f) (scalarLong 0x005 f)
def execSand (f : FmtT) : State → Host.Outcome State Fault Refusal := issue (.sand f) (scalarT 0x006 f)
def execSor (f : FmtT) : State → Host.Outcome State Fault Refusal := issue (.sor f) (scalarT 0x007 f)
def execSxor (f : FmtT) : State → Host.Outcome State Fault Refusal := issue (.sxor f) (scalarT 0x008 f)
def execSshl (f : FmtT) : State → Host.Outcome State Fault Refusal := issue (.sshl f) (scalarT 0x009 f)
def execSshr (f : FmtT) : State → Host.Outcome State Fault Refusal := issue (.sshr f) (scalarT 0x00A f)
def execSsar (f : FmtT) : State → Host.Outcome State Fault Refusal := issue (.ssar f) (scalarT 0x00B f)
def execSmin (f : FmtT) : State → Host.Outcome State Fault Refusal := issue (.smin f) (scalarT 0x00C f)
def execSmax (f : FmtT) : State → Host.Outcome State Fault Refusal := issue (.smax f) (scalarT 0x00D f)
def execScmp (f : FmtT) : State → Host.Outcome State Fault Refusal := issue (.scmp f) (scalarT 0x00E f)
def execSsel (f : FmtT) : State → Host.Outcome State Fault Refusal := issue (.ssel f) (scalarT 0x00F f)
def execSclz (f : FmtT) : State → Host.Outcome State Fault Refusal := issue (.sclz f) (scalarT 0x010 f)
def execSpop (f : FmtT) : State → Host.Outcome State Fault Refusal := issue (.spop f) (scalarT 0x011 f)
def execSmov (f : FmtT) : State → Host.Outcome State Fault Refusal := issue (.smov f) (scalarT 0x012 f)

/-- The immediate operand of Table 14-2. -/
def immOp (op : Nat) (f : FmtI) : W64 :=
  let z : W64 := f.imm.zeroExtend 64
  if f.hi then (if op = 0x01A then (z <<< 32) ||| 0xFFFFFFFF#64 else z <<< 32)
  else match op with
    | 0x01A => 0xFFFFFFFF00000000#64 ||| z
    | 0x01B => z
    | 0x01C => z
    | _ => if Ty.signed f.ty then f.imm.signExtend 64 else z
/-- The result of an immediate operation on the old value of DST (R286). -/
def immRes (op : Nat) (f : FmtI) (d : W64) : W64 :=
  let x := immOp op f
  let w := Ty.bits f.ty
  match op with
  | 0x018 => if f.hi then x ||| (d &&& 0xFFFFFFFF#64) else x
  | 0x019 => sext282 f.ty (wrapN w (ssrc f.ty d + ssrc f.ty x))
  | 0x01A => sext282 f.ty (d &&& x).toNat
  | 0x01B => sext282 f.ty (d ||| x).toNat
  | 0x01C => sext282 f.ty (d ^^^ x).toNat
  | _ => sext282 (if w = 64 then .s64 else if Ty.signed f.ty then .s32 else .z32) (wrapN w (cmp3 (ssrc f.ty d) (ssrc f.ty x)))
def scalarI (op : Nat) (f : FmtI) : State → AgentId → Agent → Res :=
  uniform f.c fun s a g => .next (setAgent s a (sset g f.dst.toNat (immRes op f (sget g f.dst.toNat))))
def execSmovi (f : FmtI) : State → Host.Outcome State Fault Refusal := issue (.smovi f) (scalarI 0x018 f)
def execSaddi (f : FmtI) : State → Host.Outcome State Fault Refusal := issue (.saddi f) (scalarI 0x019 f)
def execSandi (f : FmtI) : State → Host.Outcome State Fault Refusal := issue (.sandi f) (scalarI 0x01A f)
def execSori (f : FmtI) : State → Host.Outcome State Fault Refusal := issue (.sori f) (scalarI 0x01B f)
def execSxori (f : FmtI) : State → Host.Outcome State Fault Refusal := issue (.sxori f) (scalarI 0x01C f)
def execScmpi (f : FmtI) : State → Host.Outcome State Fault Refusal := issue (.scmpi f) (scalarI 0x01D f)

/-! ## Identity and special registers (R287 to R289). -/

/-- An identity value of Table 14-3 but for LANE. -/
def identity (a : AgentId) (g : Agent) (n : Nat) : Nat :=
  match n with
  | 1 => warpIdent g | 2 => slotOf a | 3 => g.blockNo | 4 => g.teamNo | 5 => g.gteam | 6 => g.rank | 7 => g.nrank
  | 8 => g.die | 9 => g.x | 10 => g.y | 11 => g.cluster | _ => g.live.toNat
def srdBody (f : FmtX) (s : State) (a : AgentId) (g : Agent) : Res :=
  let n := nfld f.imm.toNat 4 0
  if f.imm.toNat < 0x8000 then
    uniform f.c (fun s a g => .next (setAgent s a (sset g f.dst.toNat (BitVec.ofNat 64 (identity a g n))))) s a g
  else
    .next (setAgent s a ((lanes g f.c).foldl (fun h l =>
      vset h f.dst.toNat l (BitVec.ofNat 32 (if n = 0 then l else identity a g n))) g))
def execSrd (f : FmtX) : State → Host.Outcome State Fault Refusal := issue (.srd f) (srdBody f)

/-- A special register as MFSR reads it (Table 14-4); ln is the lane operand. -/
def readSpecial (g : Agent) (n : Nat) (ln : Nat) : W64 :=
  match n with
  | 0x0000 => g.exm.zeroExtend 64
  | 0x0001 => (mget g.nest ln).zeroExtend 64
  | 0x0002 => g.fmt
  | 0x0004 => (mget g.xv 0).zeroExtend 64
  | 0x0005 => (mget g.xv 1).zeroExtend 64
  | 0x0006 => (mget g.xv 2).zeroExtend 64
  | 0x0007 => (mget g.xv 3).zeroExtend 64
  | 0x0010 => (mget g.lc 0).zeroExtend 64
  | 0x0011 => mget g.ls 0
  | 0x0012 => mget g.le 0
  | 0x0014 => (mget g.lc 1).zeroExtend 64
  | 0x0015 => mget g.ls 1
  | 0x0016 => mget g.le 1
  | 0x0020 => g.tags
  | 0x0021 => g.outc
  | 0x0022 => mget g.lin ln
  | 0x0030 => g.tcause
  | 0x0031 => g.tval
  | _ => g.tpcx
def execMfsr (f : FmtX) : State → Host.Outcome State Fault Refusal :=
  issue (.mfsr f) (uniform f.c fun s a g =>
    let ln := (sget g f.oa.toNat).toNat % 32
    .next (setAgent s a (sset g f.dst.toNat (readSpecial g f.imm.toNat ln))))

/-- Loop addresses have bits [2:0] and [63:57] zero (Table 14-4). -/
def loopAddrOk (v : W64) : Bool := v.toNat % 8 = 0 && farOk v.toNat
/-- MTSR (Table 14-4): none where the value sets a reserved bit. TCAUSE holds CODE and CAUSE; INNER and the reserved bits
are not written (Table 21-1). -/
def writeSpecial (g : Agent) (n : Nat) (v : W64) : Option Agent :=
  let xv (k : Nat) : Option Agent :=
    if fld v 31 16 ≠ 0 then none else some { g with xv := mset g.xv k (v.extractLsb' 0 32) }
  let ad (ok : Bool) (h : Agent) : Option Agent := if ok then some h else none
  match n with
  | 0x0000 => some { g with exm := v.extractLsb' 0 32 }
  | 0x0002 => if fmtBad v then none else some { g with fmt := v }
  | 0x0004 => xv 0
  | 0x0005 => xv 1
  | 0x0006 => xv 2
  | 0x0007 => xv 3
  | 0x0010 => some { g with lc := mset g.lc 0 (v.extractLsb' 0 32) }
  | 0x0014 => some { g with lc := mset g.lc 1 (v.extractLsb' 0 32) }
  | 0x0011 => ad (loopAddrOk v) { g with ls := mset g.ls 0 v }
  | 0x0012 => ad (loopAddrOk v) { g with le := mset g.le 0 v }
  | 0x0015 => ad (loopAddrOk v) { g with ls := mset g.ls 1 v }
  | 0x0016 => ad (loopAddrOk v) { g with le := mset g.le 1 v }
  | 0x0030 => some { g with tcause := v &&& 0xFFFF00FF#64 }
  | 0x0031 => some { g with tval := v }
  | 0x0032 => some { g with tpcx := v, written := true }
  | _ => none
def execMtsr (f : FmtX) : State → Host.Outcome State Fault Refusal :=
  issue (.mtsr f) (uniform f.c fun s a g =>
    match writeSpecial g f.imm.toNat (sget g f.oa.toNat) with
    | some h => .next (setAgent s a h)
    | none => .trap s .illop (curWord g))
/-- SFMT (R289). -/
def execSfmt (f : FmtX) : State → Host.Outcome State Fault Refusal :=
  issue (.sfmt f) (uniform f.c fun s a g =>
    let v := sget g f.oa.toNat
    if fmtBad v then .trap s .illop (curWord g)
    else
      let h := if f.imm = 1 then sset g f.dst.toNat g.fmt else g
      .next (setAgent s a { h with fmt := v }))

/-! ## Flow of control (R290 to R294). -/

/-- h + 8 * sext(TGT, 20) (R239). -/
def target (g : Agent) (t : BitVec 20) : W64 := g.pc + (t.signExtend 64) * 8#64
/-- The test of BRA (R291). -/
def braTest (f : FmtB) (v : W64) : Bool :=
  (match f.sub.toNat with
   | 0 => true
   | 1 => v ≠ 0
   | 2 => v.msb
   | _ => !v.msb && v ≠ 0) != (f.sub ≠ 0 && f.cneg)
/-- A branch taken to tgt; the call forms write the return address to S63 (R291). -/
def branchTo (s : State) (a : AgentId) (g : Agent) (tgt : W64) (link : Bool) : Res :=
  if tgt.toNat % 8 ≠ 0 then .trap s .align tgt
  else .jump (setAgent s a (if link then sset g 63 (nextClause g) else g)) tgt
def execBra (f : FmtB) : State → Host.Outcome State Fault Refusal :=
  issue (.bra f) fun s a g =>
    if uniformOk a g f.c && braTest f (sget g (FmtB.treg f)) then branchTo s a g (target g f.tgt1) false else .fall s
def execBrar (f : FmtB) : State → Host.Outcome State Fault Refusal :=
  issue (.brar f) fun s a g => if uniformOk a g f.c then branchTo s a g (sget g (FmtB.treg f)) false else .fall s
def execCall (f : FmtB) : State → Host.Outcome State Fault Refusal :=
  issue (.call f) fun s a g => if uniformOk a g f.c then branchTo s a g (target g f.tgt1) true else .fall s
def execCallr (f : FmtB) : State → Host.Outcome State Fault Refusal :=
  issue (.callr f) fun s a g => if uniformOk a g f.c then branchTo s a g (sget g (FmtB.treg f)) true else .fall s
def execRet (f : FmtB) : State → Host.Outcome State Fault Refusal :=
  issue (.ret f) fun s a g => if uniformOk a g f.c then branchTo s a g (sget g (FmtB.treg f)) false else .fall s

/-- The nesting counters of the live lanes changed by a function of lane and counter. -/
def mapNest (g : Agent) (f : Nat → Nat → Nat) : Agent :=
  { g with nest := (bitsOf g.live 32).foldl (fun m l => mset m l (BitVec.ofNat 8 (f l (mget g.nest l).toNat))) g.nest }
/-- BIF (R177). -/
def execBif (f : FmtB) : State → Host.Outcome State Fault Refusal :=
  issue (.bifOpen f) fun s a g =>
    let act := activeMask g
    let cond := pmask g f.cpred.toNat
    let t := act &&& (if f.cneg then ~~~ cond else cond)
    let full := maskOf 32 ((bitsOf g.live 32).filter (fun l => !act.getLsbD l && mget g.nest l = 255))
    if g.recs.length ≥ 255 then .trap s .nest (act.zeroExtend 64)
    else if full ≠ 0 then .trap s .nest (full.zeroExtend 64)
    else
      let h := mapNest g (fun l n => if t.getLsbD l then 1 else if act.getLsbD l then n else n + 1)
      let h := { h with recs := ⟨g.fmt.extractLsb' 0 32, false, (target g f.tgt2).extractLsb' 0 57⟩ :: g.recs }
      if act &&& ~~~ t ≠ 0 then .fall (setAgent s a h)
      else .jump (setAgent s a { h with need := 1 }) (target g f.tgt1)
/-- FMT with its control half replaced (R273). -/
def fmtLow (fmt : W64) (lo : W32) : W64 := fmt.extractLsb' 32 32 ++ lo
/-- BELSE (R178). -/
def execBelse (f : FmtB) : State → Host.Outcome State Fault Refusal :=
  issue (.belse f) fun s a g =>
    match g.recs with
    | [] => .trap s .illop (curWord g)
    | r :: rs =>
      if r.els then .trap s .illop (curWord g)
      else
        let h := mapNest g (fun _ n => if n = 0 then 1 else if n = 1 then 0 else n)
        let h := { h with recs := { r with els := true } :: rs, fmt := fmtLow g.fmt r.fmt }
        if activeMask h = 0 then .jump (setAgent s a { h with need := 2 }) (r.raddr.zeroExtend 64) else .next (setAgent s a h)
/-- BEND (R179). -/
def execBend (f : FmtB) : State → Host.Outcome State Fault Refusal :=
  issue (.bend f) fun s a g =>
    match g.recs with
    | [] => .trap s .illop (curWord g)
    | r :: rs =>
      if !r.els then .trap s .illop (curWord g)
      else
        let h := mapNest g (fun _ n => n - 1)
        .next (setAgent s a { h with recs := rs, fmt := fmtLow g.fmt r.fmt })
/-- LPSET (R293). -/
def execLpset (f : FmtB) : State → Host.Outcome State Fault Refusal :=
  issue (.lpset f) (uniform f.c fun s a g =>
    let n := f.sub.toNat % 2
    .next (setAgent s a { g with ls := mset g.ls n (target g f.tgt1), le := mset g.le n (target g f.tgt2) }))
/-- LPCNT (R293). -/
def execLpcnt (f : FmtX) : State → Host.Outcome State Fault Refusal :=
  issue (.lpcnt f) (uniform f.c fun s a g =>
    let i := f.imm.toNat
    let v : W32 := if nfld i 14 14 = 1 then BitVec.ofNat 32 (nfld i 13 0) else (sget g f.oa.toNat).extractLsb' 0 32
    .next (setAgent s a { g with lc := mset g.lc (nfld i 15 15) v }))
/-- YIELD (R294): the agent competes again as one whose clause ended with yield; none in a stream. -/
def execYield (f : FmtX) : State → Host.Outcome State Fault Refusal :=
  issue (.yield f) (uniform f.c fun s a g =>
    if isStream a then .next s else .next (setAgent s a { g with yielded := true, waitSince := s.fab.cycles }))
/-- NOP (R294). -/
def execNop (f : FmtX) : State → Host.Outcome State Fault Refusal := issue (.nop f) (fun s _ _ => .next s)
end Sys2Proof.Machine
end

