-- ==== Sys2Proof/Machine/Dispatch.lean ====
section
/-! DEFINITION. The dispatch of every constructor of Instr to its meaning, one arm each. -/

namespace Sys2Proof.Machine

def exec (i : Instr) (s : State) : Host.Outcome State Fault Refusal :=
  match i with
  | .sadd f => Sys2Proof.Machine.execSadd f s
  | .ssub f => Sys2Proof.Machine.execSsub f s
  | .smul f => Sys2Proof.Machine.execSmul f s
  | .smulh f => Sys2Proof.Machine.execSmulh f s
  | .sdiv f => Sys2Proof.Machine.execSdiv f s
  | .srem f => Sys2Proof.Machine.execSrem f s
  | .sand f => Sys2Proof.Machine.execSand f s
  | .sor f => Sys2Proof.Machine.execSor f s
  | .sxor f => Sys2Proof.Machine.execSxor f s
  | .sshl f => Sys2Proof.Machine.execSshl f s
  | .sshr f => Sys2Proof.Machine.execSshr f s
  | .ssar f => Sys2Proof.Machine.execSsar f s
  | .smin f => Sys2Proof.Machine.execSmin f s
  | .smax f => Sys2Proof.Machine.execSmax f s
  | .scmp f => Sys2Proof.Machine.execScmp f s
  | .ssel f => Sys2Proof.Machine.execSsel f s
  | .sclz f => Sys2Proof.Machine.execSclz f s
  | .spop f => Sys2Proof.Machine.execSpop f s
  | .smov f => Sys2Proof.Machine.execSmov f s
  | .smovi f => Sys2Proof.Machine.execSmovi f s
  | .saddi f => Sys2Proof.Machine.execSaddi f s
  | .sandi f => Sys2Proof.Machine.execSandi f s
  | .sori f => Sys2Proof.Machine.execSori f s
  | .sxori f => Sys2Proof.Machine.execSxori f s
  | .scmpi f => Sys2Proof.Machine.execScmpi f s
  | .srd f => Sys2Proof.Machine.execSrd f s
  | .mfsr f => Sys2Proof.Machine.execMfsr f s
  | .mtsr f => Sys2Proof.Machine.execMtsr f s
  | .sfmt f => Sys2Proof.Machine.execSfmt f s
  | .bra f => Sys2Proof.Machine.execBra f s
  | .brar f => Sys2Proof.Machine.execBrar f s
  | .call f => Sys2Proof.Machine.execCall f s
  | .callr f => Sys2Proof.Machine.execCallr f s
  | .ret f => Sys2Proof.Machine.execRet f s
  | .bifOpen f => Sys2Proof.Machine.execBif f s
  | .belse f => Sys2Proof.Machine.execBelse f s
  | .bend f => Sys2Proof.Machine.execBend f s
  | .lpset f => Sys2Proof.Machine.execLpset f s
  | .lpcnt f => Sys2Proof.Machine.execLpcnt f s
  | .yield f => Sys2Proof.Machine.execYield f s
  | .exit f => Sys2Proof.Machine.execExit f s
  | .nop f => Sys2Proof.Machine.execNop f s
  | .spawn f => Sys2Proof.Machine.execSpawn f s
  | .join f => Sys2Proof.Machine.execJoin f s
  | .vadd f => Sys2Proof.Machine.execVadd f s
  | .vsub f => Sys2Proof.Machine.execVsub f s
  | .vmul f => Sys2Proof.Machine.execVmul f s
  | .vfma f => Sys2Proof.Machine.execVfma f s
  | .vmulh f => Sys2Proof.Machine.execVmulh f s
  | .vmin f => Sys2Proof.Machine.execVmin f s
  | .vmax f => Sys2Proof.Machine.execVmax f s
  | .vabs f => Sys2Proof.Machine.execVabs f s
  | .vneg f => Sys2Proof.Machine.execVneg f s
  | .vaddmin f => Sys2Proof.Machine.execVaddmin f s
  | .vaddmax f => Sys2Proof.Machine.execVaddmax f s
  | .vclamp f => Sys2Proof.Machine.execVclamp f s
  | .vand f => Sys2Proof.Machine.execVand f s
  | .vor f => Sys2Proof.Machine.execVor f s
  | .vxor f => Sys2Proof.Machine.execVxor f s
  | .vnot f => Sys2Proof.Machine.execVnot f s
  | .vshl f => Sys2Proof.Machine.execVshl f s
  | .vshr f => Sys2Proof.Machine.execVshr f s
  | .vsar f => Sys2Proof.Machine.execVsar f s
  | .vclz f => Sys2Proof.Machine.execVclz f s
  | .vpopc f => Sys2Proof.Machine.execVpopc f s
  | .vmov f => Sys2Proof.Machine.execVmov f s
  | .vsel f => Sys2Proof.Machine.execVsel f s
  | .vcmp f => Sys2Proof.Machine.execVcmp f s
  | .vmovi f => Sys2Proof.Machine.execVmovi f s
  | .pand f => Sys2Proof.Machine.execPand f s
  | .por f => Sys2Proof.Machine.execPor f s
  | .pxor f => Sys2Proof.Machine.execPxor f s
  | .pnot f => Sys2Proof.Machine.execPnot f s
  | .vp2v f => Sys2Proof.Machine.execVp2v f s
  | .vv2p f => Sys2Proof.Machine.execVv2p f s
  | .vcvt f => Sys2Proof.Machine.execVcvt f s
  | .vf8pk f => Sys2Proof.Machine.execVf8pk f s
  | .vf8upk f => Sys2Proof.Machine.execVf8upk f s
  | .vqpack f => Sys2Proof.Machine.execVqpack f s
  | .vqunpk f => Sys2Proof.Machine.execVqunpk f s
  | .vdiv f => Sys2Proof.Machine.execVdiv f s
  | .vrcp f => Sys2Proof.Machine.execVrcp f s
  | .vrsq f => Sys2Proof.Machine.execVrsq f s
  | .vsqrt f => Sys2Proof.Machine.execVsqrt f s
  | .vexp2 f => Sys2Proof.Machine.execVexp2 f s
  | .vlog2 f => Sys2Proof.Machine.execVlog2 f s
  | .vsin f => Sys2Proof.Machine.execVsin f s
  | .vcos f => Sys2Proof.Machine.execVcos f s
  | .vtanh f => Sys2Proof.Machine.execVtanh f s
  | .qxch f => Sys2Proof.Machine.execQxch f s
  | .qbrd f => Sys2Proof.Machine.execQbrd f s
  | .vshup f => Sys2Proof.Machine.execVshup f s
  | .vshdn f => Sys2Proof.Machine.execVshdn f s
  | .vshfl f => Sys2Proof.Machine.execVshfl f s
  | .vbcast f => Sys2Proof.Machine.execVbcast f s
  | .vscan f => Sys2Proof.Machine.execVscan f s
  | .vred f => Sys2Proof.Machine.execVred f s
  | .vvote f => Sys2Proof.Machine.execVvote f s
  | .prand f => Sys2Proof.Machine.execPrand f s
  | .ld f => Sys2Proof.Machine.execLd f s
  | .st f => Sys2Proof.Machine.execSt f s
  | .atomAdd f => Sys2Proof.Machine.execAtomAdd f s
  | .atomMin f => Sys2Proof.Machine.execAtomMin f s
  | .atomMax f => Sys2Proof.Machine.execAtomMax f s
  | .atomAnd f => Sys2Proof.Machine.execAtomAnd f s
  | .atomOr f => Sys2Proof.Machine.execAtomOr f s
  | .atomXor f => Sys2Proof.Machine.execAtomXor f s
  | .atomExch f => Sys2Proof.Machine.execAtomExch f s
  | .cas f => Sys2Proof.Machine.execCas f s
  | .fld f => Sys2Proof.Machine.execFld f s
  | .fst f => Sys2Proof.Machine.execFst f s
  | .fatomAdd f => Sys2Proof.Machine.execFatomAdd f s
  | .fatomMin f => Sys2Proof.Machine.execFatomMin f s
  | .fatomMax f => Sys2Proof.Machine.execFatomMax f s
  | .fatomAnd f => Sys2Proof.Machine.execFatomAnd f s
  | .fatomOr f => Sys2Proof.Machine.execFatomOr f s
  | .fatomXor f => Sys2Proof.Machine.execFatomXor f s
  | .fatomExch f => Sys2Proof.Machine.execFatomExch f s
  | .fcas f => Sys2Proof.Machine.execFcas f s
  | .claim f => Sys2Proof.Machine.execClaim f s
  | .reclaim f => Sys2Proof.Machine.execReclaim f s
  | .flow f => Sys2Proof.Machine.execFlow f s
  | .unclaim f => Sys2Proof.Machine.execUnclaim f s
  | .kstat f => Sys2Proof.Machine.execKstat f s
  | .copy f => Sys2Proof.Machine.execCopy f s
  | .halo f => Sys2Proof.Machine.execHalo f s
  | .hflow f => Sys2Proof.Machine.execHflow f s
  | .gather f => Sys2Proof.Machine.execGather f s
  | .coll f => Sys2Proof.Machine.execColl f s
  | .fence f => Sys2Proof.Machine.execFence f s
  | .wayreg f => Sys2Proof.Machine.execWayreg f s
  | .wayregNeed f => Sys2Proof.Machine.execWayregNeed f s
  | .wayarr f => Sys2Proof.Machine.execWayarr f s
  | .wayarrNeighbour f => Sys2Proof.Machine.execWayarrNeighbour f s
  | .waywait f => Sys2Proof.Machine.execWaywait f s
  | .waytest f => Sys2Proof.Machine.execWaytest f s
  | .waydrop f => Sys2Proof.Machine.execWaydrop f s
  | .waydropReset f => Sys2Proof.Machine.execWaydropReset f s
  | .ycfg f => Sys2Proof.Machine.execYcfg f s
  | .qpush f => Sys2Proof.Machine.execQpush f s
  | .qpop f => Sys2Proof.Machine.execQpop f s
  | .qlen f => Sys2Proof.Machine.execQlen f s
  | .waitc f => Sys2Proof.Machine.execWaitc f s
  | .twait f => Sys2Proof.Machine.execTwait f s
  | .tfind f => Sys2Proof.Machine.execTfind f s
  | .tclr f => Sys2Proof.Machine.execTclr f s
  | .mma f => Sys2Proof.Machine.execMma f s
  | .mmat f => Sys2Proof.Machine.execMmat f s
  | .mzero f => Sys2Proof.Machine.execMzero f s
  | .mload f => Sys2Proof.Machine.execMload f s
  | .mdrain f => Sys2Proof.Machine.execMdrain f s
  | .maddt f => Sys2Proof.Machine.execMaddt f s
  | .mfence f => Sys2Proof.Machine.execMfence f s
  | .mwait f => Sys2Proof.Machine.execMwait f s
  | .pinit f => Sys2Proof.Machine.execPinit f s
  | .pjoin f => Sys2Proof.Machine.execPjoin f s
  | .pleave f => Sys2Proof.Machine.execPleave f s
  | .resample f => Sys2Proof.Machine.execResample f s
  | .pstat f => Sys2Proof.Machine.execPstat f s
  | .plin f => Sys2Proof.Machine.execPlin f s
  | .nwin f => Sys2Proof.Machine.execNwin f s
  | .notice f => Sys2Proof.Machine.execNotice f s
  | .object f => Sys2Proof.Machine.execObject f s
  | .nawait f => Sys2Proof.Machine.execNawait f s
  | .nread f => Sys2Proof.Machine.execNread f s
  | .nfilter f => Sys2Proof.Machine.execNfilter f s
  | .nstat f => Sys2Proof.Machine.execNstat f s
  | .nstatCnt f => Sys2Proof.Machine.execNstatCnt f s
  | .xwrite f => Sys2Proof.Machine.execXwrite f s
  | .xread f => Sys2Proof.Machine.execXread f s
  | .xsend f => Sys2Proof.Machine.execXsend f s
  | .xatom f => Sys2Proof.Machine.execXatom f s
  | .xflush f => Sys2Proof.Machine.execXflush f s
  | .xpoll f => Sys2Proof.Machine.execXpoll f s
  | .trap f => Sys2Proof.Machine.execTrap f s
  | .trapVec f => Sys2Proof.Machine.execTrapVec f s
  | .tret f => Sys2Proof.Machine.execTret f s
  | .brk f => Sys2Proof.Machine.execBrk f s
  | .halt f => Sys2Proof.Machine.execHalt f s
  | .rdtime f => Sys2Proof.Machine.execRdtime f s
  | .chkpt f => Sys2Proof.Machine.execChkpt f s
  | .watch f => Sys2Proof.Machine.execWatch f s
  | .unwatch f => Sys2Proof.Machine.execUnwatch f s
  | .walkComplete n => Sys2Proof.Machine.execWalkComplete n s
  | .clauseFetch a => Sys2Proof.Machine.execClauseFetch a s
  | .teamDispatch launch => Sys2Proof.Machine.execTeamDispatch launch s
  | .continuationPop at_ => Sys2Proof.Machine.execContinuationPop at_ s
  | .launchPacket fn q => Sys2Proof.Machine.execLaunchPacket fn q s
  | .fencePacket fn q => Sys2Proof.Machine.execFencePacket fn q s
  | .graphPacket fn q => Sys2Proof.Machine.execGraphPacket fn q s
  | .layoutPacket fn q => Sys2Proof.Machine.execLayoutPacket fn q s
  | .signalPacket fn q => Sys2Proof.Machine.execSignalPacket fn q s
  | .timerPacket fn q => Sys2Proof.Machine.execTimerPacket fn q s
  | .launchFinish fn q => Sys2Proof.Machine.execLaunchFinish fn q s
  | .graphNodeFinish fn q node => Sys2Proof.Machine.execGraphNodeFinish fn q node s
  | .fenceRound fn q => Sys2Proof.Machine.execFenceRound fn q s
  | .batchStart die cluster => Sys2Proof.Machine.execBatchStart die cluster s
  | .matrixStepComplete die cluster => Sys2Proof.Machine.execMatrixStepComplete die cluster s
  | .claimPhaseComplete c => Sys2Proof.Machine.execClaimPhaseComplete c s
  | .resultWriteback a id => Sys2Proof.Machine.execResultWriteback a id s
  | .trapEntry a => Sys2Proof.Machine.execTrapEntry a s
  | .milepostInject => Sys2Proof.Machine.execMilepostInject s
  | .resampleCommit part ctx pop => Sys2Proof.Machine.execResampleCommit part ctx pop s
  | .reservationQueueGrant => Sys2Proof.Machine.execReservationQueueGrant s
  | .tokenCountEffect part die => Sys2Proof.Machine.execTokenCountEffect part die s
  | .joinPoll a => Sys2Proof.Machine.execJoinPoll a s
  | .netWorkRequest qpn => Sys2Proof.Machine.execNetWorkRequest qpn s
  | .haloPathMatch c k => Sys2Proof.Machine.execHaloPathMatch c k s
  | .warpPromotion a => Sys2Proof.Machine.execWarpPromotion a s
  | .queueReservation part die prio => Sys2Proof.Machine.execQueueReservation part die prio s
  | .identify q => Sys2Proof.Machine.execIdentify q s
  | .diag q => Sys2Proof.Machine.execDiag q s
  | .telemetry q => Sys2Proof.Machine.execTelemetry q s
  | .ctxCreate q => Sys2Proof.Machine.execCtxCreate q s
  | .ctxDestroy q => Sys2Proof.Machine.execCtxDestroy q s
  | .xlateSet q => Sys2Proof.Machine.execXlateSet q s
  | .invalPage q => Sys2Proof.Machine.execInvalPage q s
  | .migrate q => Sys2Proof.Machine.execMigrate q s
  | .s2Answer q => Sys2Proof.Machine.execS2Answer q s
  | .homemapSet q => Sys2Proof.Machine.execHomemapSet q s
  | .partSet q => Sys2Proof.Machine.execPartSet q s
  | .tokensSet q => Sys2Proof.Machine.execTokensSet q s
  | .sliceSet q => Sys2Proof.Machine.execSliceSet q s
  | .vfReset q => Sys2Proof.Machine.execVfReset q s
  | .qpCreate q => Sys2Proof.Machine.execQpCreate q s
  | .qpModify q => Sys2Proof.Machine.execQpModify q s
  | .qpDestroy q => Sys2Proof.Machine.execQpDestroy q s
  | .mrReg q => Sys2Proof.Machine.execMrReg q s
  | .mrDereg q => Sys2Proof.Machine.execMrDereg q s
  | .netAddr q => Sys2Proof.Machine.execNetAddr q s
  | .decodeLoad q => Sys2Proof.Machine.execDecodeLoad q s
  | .pgroupSet q => Sys2Proof.Machine.execPgroupSet q s
  | .ngroupSet q => Sys2Proof.Machine.execNgroupSet q s
  | .attest q => Sys2Proof.Machine.execAttest q s
  | .bundleWrite q sigsOk => Sys2Proof.Machine.execBundleWrite q sigsOk s
  | .streamResetSend tgt part => Sys2Proof.Machine.execStreamResetSend tgt part s
  | .powerGood b => Sys2Proof.Machine.execPowerGood b s
  | .virtualFunctionPresentation => Sys2Proof.Machine.execVirtualFunctionPresentation s
  | .serviceCoreTakeover sc => Sys2Proof.Machine.execServiceCoreTakeover sc s
  | .thermalHigh die => Sys2Proof.Machine.execThermalHigh die s
  | .thermalRestore => Sys2Proof.Machine.execThermalRestore s
  | .thermalShutdown => Sys2Proof.Machine.execThermalShutdown s
  | .patrolScrub line e => Sys2Proof.Machine.execPatrolScrub line e s
  | .linkUp p => Sys2Proof.Machine.execLinkUp p s
  | .linkDown p => Sys2Proof.Machine.execLinkDown p s
  | .linkReplay p => Sys2Proof.Machine.execLinkReplay p s
  | .reservationRequest j p => Sys2Proof.Machine.execReservationRequest j p s
  | .reservationReply p => Sys2Proof.Machine.execReservationReply p s
  | .junctionWordFlit j port p => Sys2Proof.Machine.execJunctionWordFlit j port p s
  | .readPacket p => Sys2Proof.Machine.execReadPacket p s
  | .writePacket p => Sys2Proof.Machine.execWritePacket p s
  | .atomicPacket p => Sys2Proof.Machine.execAtomicPacket p s
  | .casPacket p => Sys2Proof.Machine.execCasPacket p s
  | .orderedPacketRelease src part => Sys2Proof.Machine.execOrderedPacketRelease src part s
  | .acknowledgement p => Sys2Proof.Machine.execAcknowledgement p s
  | .readResponse p => Sys2Proof.Machine.execReadResponse p s
  | .routeError p => Sys2Proof.Machine.execRouteError p s
  | .streamReset p => Sys2Proof.Machine.execStreamReset p s
  | .streamWaitTimeout tgt part => Sys2Proof.Machine.execStreamWaitTimeout tgt part s
  | .retransmitTimeout r => Sys2Proof.Machine.execRetransmitTimeout r s
  | .packetAbandon r => Sys2Proof.Machine.execPacketAbandon r s
  | .fetchedValueExpiry src part seq => Sys2Proof.Machine.execFetchedValueExpiry src part seq s
  | .junctionMilepostCopy j f => Sys2Proof.Machine.execJunctionMilepostCopy j f s
  | .milepostDelivery f => Sys2Proof.Machine.execMilepostDelivery f s
  | .timeBaseFlit ns => Sys2Proof.Machine.execTimeBaseFlit ns s
  | .linkMapFlit j down => Sys2Proof.Machine.execLinkMapFlit j down s
  | .timeMasterTakeover => Sys2Proof.Machine.execTimeMasterTakeover s
  | .timeBaseLost => Sys2Proof.Machine.execTimeBaseLost s
  | .timeBaseRegained => Sys2Proof.Machine.execTimeBaseRegained s
  | .grantRequest p => Sys2Proof.Machine.execGrantRequest p s
  | .grantResponse p => Sys2Proof.Machine.execGrantResponse p s
  | .invalidation p => Sys2Proof.Machine.execInvalidation p s
  | .invalidationAck n => Sys2Proof.Machine.execInvalidationAck n s
  | .stuckInvalidation n => Sys2Proof.Machine.execStuckInvalidation n s
  | .priResponse pgi ok => Sys2Proof.Machine.execPriResponse pgi ok s
  | .atsInvalidateRequest tag part ctx va size => Sys2Proof.Machine.execAtsInvalidateRequest tag part ctx va size s
  | .migrationCopyDone n => Sys2Proof.Machine.execMigrationCopyDone n s
  | .migrationTimeout n => Sys2Proof.Machine.execMigrationTimeout n s
  | .netResponse qpn r => Sys2Proof.Machine.execNetResponse qpn r s
  | .netAckTimeout qpn => Sys2Proof.Machine.execNetAckTimeout qpn s
  | .incomingRdmaWrite h rkey addr data => Sys2Proof.Machine.execIncomingRdmaWrite h rkey addr data s
  | .incomingRdmaRead h rkey addr len => Sys2Proof.Machine.execIncomingRdmaRead h rkey addr len s
  | .incomingSend h data => Sys2Proof.Machine.execIncomingSend h data s
  | .incomingAtomic h rkey addr cas a b => Sys2Proof.Machine.execIncomingAtomic h rkey addr cas a b s
  | .incomingFlush h rkey addr len => Sys2Proof.Machine.execIncomingFlush h rkey addr len s
  | .cnpReceived qpn => Sys2Proof.Machine.execCnpReceived qpn s
  | .rateRecovery qpn => Sys2Proof.Machine.execRateRecovery qpn s
  | .localRevokeTimeout n => Sys2Proof.Machine.execLocalRevokeTimeout n s
  | .backgroundCut part fn => Sys2Proof.Machine.execBackgroundCut part fn s
  | .driverNotification fn q chains => Sys2Proof.Machine.execDriverNotification fn q chains s
  | .deviceStatusReset fn => Sys2Proof.Machine.execDeviceStatusReset fn s
  | .featuresOkWrite fn bits => Sys2Proof.Machine.execFeaturesOkWrite fn bits s
  | .functionLevelReset fn => Sys2Proof.Machine.execFunctionLevelReset fn s
  | .configRegisterWrite fn reg v => Sys2Proof.Machine.execConfigRegisterWrite fn reg v s
  | .watchdogExpiry fn q => Sys2Proof.Machine.execWatchdogExpiry fn q s
  | .resetMark f => Sys2Proof.Machine.execResetMark f s
  | .resetMarkResend fn => Sys2Proof.Machine.execResetMarkResend fn s
  | .checkpointSchedule part => Sys2Proof.Machine.execCheckpointSchedule part s
  | .cutMark f => Sys2Proof.Machine.execCutMark f s
  | .cutTick part => Sys2Proof.Machine.execCutTick part s
  | .doneMark f => Sys2Proof.Machine.execDoneMark f s
  | .commitMark f => Sys2Proof.Machine.execCommitMark f s
  | .cutTimeout part => Sys2Proof.Machine.execCutTimeout part s
  | .sliceEnd part => Sys2Proof.Machine.execSliceEnd part s
  | .sliceendMark f => Sys2Proof.Machine.execSliceendMark f s
  | .warpHalt a => Sys2Proof.Machine.execWarpHalt a s
  | .contextSave part ctx => Sys2Proof.Machine.execContextSave part ctx s
  | .contextResume part ctx => Sys2Proof.Machine.execContextResume part ctx s
  | .priorityPreemption fn q => Sys2Proof.Machine.execPriorityPreemption fn q s
  | .flowLegAck c leg data psn => Sys2Proof.Machine.execFlowLegAck c leg data psn s
  | .collMatch part ctx shares => Sys2Proof.Machine.execCollMatch part ctx shares s
  | .tokenArrival part die cluster => Sys2Proof.Machine.execTokenArrival part die cluster s
  | .noticeFlit f => Sys2Proof.Machine.execNoticeFlit f s
  | .objectionFlit f => Sys2Proof.Machine.execObjectionFlit f s
  | .outcomeFlit f => Sys2Proof.Machine.execOutcomeFlit f s
  | .noticeDecide gid rank itick => Sys2Proof.Machine.execNoticeDecide gid rank itick s
  | .outcomeExpiry gid rank itick => Sys2Proof.Machine.execOutcomeExpiry gid rank itick s
  | .modulePowerLoss => Sys2Proof.Machine.execModulePowerLoss s
  | .atsTranslationCompletion id r => Sys2Proof.Machine.execAtsTranslationCompletion id r s
  | .hostReadCompletion id data => Sys2Proof.Machine.execHostReadCompletion id data s
  | .unknownOutcomeDeadline gid rank itick => Sys2Proof.Machine.execUnknownOutcomeDeadline gid rank itick s
  | .rnrRetryTimeout qpn => Sys2Proof.Machine.execRnrRetryTimeout qpn s

end Sys2Proof.Machine
end

