-- ==== Sys2Proof/Machine/Events.lean ====
section
/-! DEFINITION. What the device does next by itself: the first event that is due, and the arbiter's choice among the agents (07 R164 to R168).
The order in which due events are taken is the model's (log 6). -/

namespace Sys2Proof.Machine

/-- One step's outcome. -/
abbrev Out := Host.Outcome State Fault Refusal
/-- The first of two that is due. -/
def orDue (x : Option Out) (y : Unit → Option Out) : Option Out := match x with
  | some o => some o
  | none => y ()

/-! ## Consequences that no event row names. -/

/-- Presentation, resets, undone memory and held commands that can end (R22, R119, R125, R138). -/
def dueHouse (s : State) : Option Out :=
  if s.mod.power = .ready then some (execVirtualFunctionPresentation s)
  else if s.host.resets.any (resetDone s) then some (.next (progress (resetsEnd s)))
  else match s.ck.find? (undoReady s) with
    | some c => some (.next (progress (undoStep s c.part)))
    | none => if s.part.holdCmd.any (holdOver s) then some (.next (progress (holdEnds s))) else none

/-! ## Agents and engines. -/

/-- Traps, results, halts, promotion and JOIN's polls of one agent. -/
def agentDue (s : State) (a : AgentId) (g : Agent) : Option Out :=
  if g.trapPend.isSome && quiet g && !g.ended then some (execTrapEntry a s)
  else match g.pend.find? resultDue with
    | some p => some (execResultWriteback a p.id s)
    | none =>
      if g.haltReq.isSome && g.haltForm = .no && !atRest g && (haltDue s a g || (safeHere s a g).isSome) then some (execWarpHalt a s)
      else if (g.haltReq.isSome || cutCome s g) && sideOut s a g && !s.stalled.contains (.side a) then some (.next (stall (sideHere s a g 0).1 (.side a)))
      else if !isStream a && !s.waiting.contains a && promotionDue s g then some (execWarpPromotion a s)
      else if g.joinAt.any (fun t => t + 500 ≤ s.fab.podNs) && joinRead s a then some (execJoinPoll a s)
      else none
/-- A token that no engine uses, on its way to a cluster that waits for one (R433). -/
def tokenStep (s : State) (part die c : Nat) : Option Out :=
  if !tokenUseful s part die c || s.part.tokens.any (fun t => t.part = part && t.die = die && t.at_ = c && !t.held) then none
  else (s.part.tokens.find? (fun t => t.part = part && t.die = die && !t.held && !tokenUseful s part die t.at_)).map (fun t =>
    execTokenArrival part die (ringNext (clustersOf s part die) t.at_) s)
/-- The matrix engine of a stream (R427, R433). -/
def engineDue (s : State) (a : AgentId) (g : Agent) : Option Out :=
  match a with
  | .warp _ _ => none
  | .stream die n =>
    let c := n % 32
    if g.haltForm ≠ .no then none
    else if g.mx.running then (if drainWaits s g then none else some (execMatrixStepComplete die c s))
    else if !instanceReady s die c || changePending s g.part die then none
    else if s.part.tokens.any (fun t => t.part = g.part && t.die = die && t.at_ = c && !t.held) then some (execBatchStart die c s)
    else tokenStep s g.part die c
def dueAgents (s : State) : Option Out :=
  orDue (s.agents.findSome? (fun e => agentDue s e.1 e.2)) fun _ =>
  orDue (s.agents.findSome? (fun e => engineDue s e.1 e.2)) fun _ =>
  orDue ((s.part.tokPend.find? (fun t => !enginesRun s t.1 t.2.1)).map (fun t => execTokenCountEffect t.1 t.2.1 s)) fun _ =>
  (s.pop.find? (fun e => popDue e.2 && !s.stalled.contains (.pop (e.1.1 / 65536) (e.1.1 % 65536) e.1.2))).map (fun e => execResampleCommit (e.1.1 / 65536) (e.1.1 % 65536) e.1.2 s)

/-! ## Work queues, launches and contexts. -/

/-- The head packet of a ring, by its TYPE; a malformed one is answered by any of them. -/
def runPacket (s : State) (r : Ring) : Out :=
  match ((headPkt r).map (fun p => fld p.1 7 0)).getD 0 with
  | 1 => execLaunchPacket r.fn r.q s
  | 2 => execFencePacket r.fn r.q s
  | 3 => execGraphPacket r.fn r.q s
  | 4 => execLayoutPacket r.fn r.q s
  | 6 => execTimerPacket r.fn r.q s
  | _ => execSignalPacket r.fn r.q s
/-- A packet in progress: a launch that is done, or a round of a fence. -/
def busyDue (s : State) (r : Ring) : Option Out :=
  match headLaunch s r.fn r.q, s.sched.fences.find? (fun f => f.fn = r.fn && f.q = r.q) with
  | some l, _ => if launchDone s l then some (execLaunchFinish r.fn r.q s)
                 else if (prioDue s r.fn r.q).isSome then some (execPriorityPreemption r.fn r.q s) else none
  | none, some f =>
    if tenantRuns s r.fn && (f.going || f.at_ + 250 ≤ s.fab.podNs) && !s.stalled.contains (.ring r.fn r.q) then some (execFenceRound r.fn r.q s) else none
  | none, none => none
def ringDue (s : State) (r : Ring) : Option Out :=
  if expired s r then some (execWatchdogExpiry r.fn r.q s)
  else if r.busy then busyDue s r
  else if ringReady s r && !s.stalled.contains (.ring r.fn r.q) then some (runPacket s r)
  else none
/-- A running node of a graph that may go on. -/
def graphDue (s : State) (g : Graph) : Option Out :=
  if !tenantRuns s g.fn then none
  else (g.running.find? (fun n => !s.stalled.contains (.graph g.fn g.q n.1))).map (fun n => execGraphNodeFinish g.fn g.q n.1 s)
/-- An exited record's join counter (R158). -/
def joinDue (s : State) (j : JoinDec) : Out :=
  match joinTry s j with
  | (s, true) => .next (progress s)
  | (s, false) => .next (stall s (.join j.n))
/-- The places a record of a partition may be popped to. -/
def popSites (s : State) (part : Nat) : List PopSite :=
  (List.range 4).flatMap (fun d => (clustersOf s part d).flatMap (fun c =>
    PopSite.ctl d c :: (List.range 4).map (fun k => PopSite.core ⟨d, c % 8 * 2 + k % 2, c / 8 * 2 + k / 2⟩)))
def contDue (s : State) (c : Cont) : Option Out :=
  match (popSites s c.part).find? (fun p => (popChoice s p).isSome) with
  | some p => some (execContinuationPop p s)
  | none => if (reserveDue s c.part c.die c.prio).isSome then some (execQueueReservation c.part c.die c.prio s) else none
def dueSched (s : State) : Option Out :=
  orDue ((s.sched.pre.find? (saveReady s)).map (fun p => execContextSave p.part p.ctx s)) fun _ =>
  orDue ((s.sched.pre.find? (resumeReady s)).map (fun p => execContextResume p.part p.ctx s)) fun _ =>
  orDue ((s.sched.joins.find? (fun j => !s.stalled.contains (.join j.n))).map (joinDue s)) fun _ =>
  orDue ((s.sched.launches.find? (canDispatch s)).map (fun l => execTeamDispatch l.id s)) fun _ =>
  orDue (s.sched.conts.findSome? (contDue s)) fun _ =>
  orDue (s.sched.rings.findSome? (ringDue s)) fun _ =>
  s.sched.graphs.findSome? (graphDue s)

/-! ## Fabric and mileposts. -/

/-- An entry to send again, or to abandon (R38, R39). -/
def entryDue (s : State) (e : Entry) : Option Out :=
  if e.first + 50000 ≤ s.fab.podNs then some (execPacketAbandon e.ref s)
  else if e.last + 2000 ≤ s.fab.podNs && s.fab.podNs ≤ e.first + 30000 && !streamDown s e then some (execRetransmitTimeout e.ref s)
  else none
def waiterDue (s : State) (e : Entry) : Option Out :=
  let tgt := e.pkt.tgt.toNat
  let part := e.pkt.part.toNat
  if waitedOut s e then some (execStreamWaitTimeout tgt part s)
  else if resetDue s tgt part then some (execStreamResetSend tgt part s) else none
/-- The target end of a stream: a held packet whose turn has come, a remembered value whose time is over (R37, R323). -/
def tgtDue (s : State) (t : TgtStream) : Option Out :=
  if t.held.any (heldTurn s t.part) then some (execOrderedPacketRelease t.src t.part s)
  else (t.fetched.find? (fun x => x.2.2.2 + 46000 ≤ s.fab.podNs)).map (fun x => execFetchedValueExpiry t.src t.part x.1 s)
/-- The head of the milepost queue can leave it. -/
def mpDue (s : State) : Bool := match s.fab.mpQueue with
  | [] => false
  | m :: _ =>
    let js := (mpJcts s.mod.poddev).filter (fun j => mpQualifies s j m.flit.dest)
    (m.flit.kind = 2 && objLate s m.flit) || js = [] || !s.fab.synced || js.any (fun j => !mpUsed s j)
/-- The pending notice to decide first: of those whose effect tick has come, the earliest of them, and of one tick the one that precedes
(R459). -/
def noticeFirst (s : State) : Option (NGroup × Notice) :=
  let due := (s.ntc.groups.map (fun g => (g.notices.filter (fun n => n.out = 1 && effectOf n ≤ podTick s && !boardsFull s g)).map (fun n => (g, n)))).flatten
  let earlier (x y : Notice) : Bool := effectOf x < effectOf y || (effectOf x = effectOf y && precedes x y)
  due.foldl (fun b x => match b with
    | some y => if earlier x.2 y.2 then some x else b
    | none => some x) none
/-- A notice to decide, or an outcome to forget (R459, R460). -/
def noticeDue (s : State) : Option Out :=
  orDue ((noticeFirst s).map (fun x => execNoticeDecide x.1.gid x.2.rank x.2.itick s)) fun _ =>
  s.ntc.groups.findSome? (fun g => (g.notices.find? (fun n => n.out ≠ 1 && effectOf n + 1024 < podTick s)).map (fun n =>
    execOutcomeExpiry g.gid n.rank n.itick s))
def dueFabric (s : State) : Option Out :=
  orDue (if mpDue s then some (execMilepostInject s) else none) fun _ =>
  orDue (if resvDue s then some (execReservationQueueGrant s) else none) fun _ =>
  orDue (s.fab.entries.findSome? (entryDue s)) fun _ =>
  orDue (s.fab.waitQ.findSome? (waiterDue s)) fun _ =>
  orDue (s.fab.tgts.findSome? (tgtDue s)) fun _ =>
  orDue (noticeDue s) fun _ =>
  orDue (if s.fab.master ≠ masterOf s then some (execTimeMasterTakeover s) else none) fun _ =>
  orDue (if timeLostDue s then some (execTimeBaseLost s) else none) fun _ =>
  if timeBackDue s then some (execTimeBaseRegained s) else none

/-! ## Translation, claims and the network. -/

def dueXl (s : State) : Option Out :=
  orDue ((s.xl.walks.find? (fun w => w.s2 = none && onWalker s w)).map (fun w => execWalkComplete w.n s)) fun _ =>
  orDue ((s.xl.invalIn.find? (fun i => pageQuiet s i.q)).map (fun i => execInvalidationAck i.n s)) fun _ =>
  orDue ((s.xl.invals.find? (fun i => i.wait = [] && !i.done && pageQuiet s i.q)).map (fun i => execInvalidationAck i.n s)) fun _ =>
  orDue ((s.xl.invals.find? (fun i => i.wait ≠ [] && !i.stuck && i.since + 100000 ≤ s.fab.podNs)).map (fun i => execStuckInvalidation i.n s)) fun _ =>
  orDue ((s.xl.invals.find? (fun i => i.since + 100000 ≤ s.fab.podNs && netUses s i.q)).map (fun i => execLocalRevokeTimeout i.n s)) fun _ =>
  orDue ((s.xl.invalIn.find? (fun i => i.since + 100000 ≤ s.fab.podNs && netUses s i.q)).map (fun i => execLocalRevokeTimeout i.n s)) fun _ =>
  orDue ((s.xl.migs.find? (fun m => m.stage = 2)).map (fun m => execMigrationCopyDone m.n s)) fun _ =>
  (s.xl.migs.find? (migrLate s)).map (fun m => execMigrationTimeout m.n s)
/-- A leg between this device's own memories, or a collective of one rank (R399, R409). -/
def claimDue (s : State) (id : ClaimId) (c : Claim) : Option Out :=
  if c.st ≠ .flowing || undoFull s (c.ctx / 65536) then none
  else if c.work = .coll && c.nrank = 1 && c.legs = [] then some (execCollMatch (c.ctx / 65536) (c.ctx % 65536) [] s)
  else (c.legs.find? (fun l => !l.acked && l.due ≤ s.fab.podNs && sideLocal s c (srcSpace c) l.sw l.src && sideLocal s c (dstSpace c) l.dw l.dst)).map
    (fun l => execFlowLegAck id (.own l.n) [] [] s)
def qpDue (s : State) (q : Qp) : Option Out :=
  if q.rnrWait.any (fun t => t < s.fab.podNs) then some (execRnrRetryTimeout q.qpn s)
  else if q.sent ≠ 0 && q.st = .rts && q.back = [] && q.sq ≠ [] && q.sentAt + ackNs q ≤ s.fab.podNs then some (execNetAckTimeout q.qpn s)
  else if q.rate ≠ 65536 && q.since + 55000 ≤ s.fab.podNs && q.rate + (65536 - q.rate) / 8 ≠ q.rate then some (execRateRecovery q.qpn s)
  else if (q.sent < q.sq.length || q.back ≠ [] || q.resps ≠ [] || q.rxq ≠ []
    || s.net.inops.any (fun o => o.qpn = q.qpn)) && !s.stalled.contains (.net q.qpn) then some (execNetWorkRequest q.qpn s)
  else none
def dueClaims (s : State) : Option Out :=
  orDue (s.eng.slots.findSome? (fun e => e.2.claim.bind (claimDue s e.1))) fun _ => s.net.qps.findSome? (qpDue s)

/-! ## Partitions and commands. -/

def ckDue (s : State) (c : Ck) : Option Out :=
  if (partOf s c.part).any (fun p => isLeader s p && sliceOver s p c) then some (execSliceEnd c.part s)
  else if cutReady s c then some (execCutTick c.part s)
  else if cutLate s c then some (execCutTimeout c.part s)
  else if cutDue s c.part then some (execCheckpointSchedule c.part s)
  else (c.exports.find? (fun x => backgroundDue s c.part x.2.1)).map (fun x => execBackgroundCut c.part x.2.1 s)
/-- A command waits for an earlier one of a function: of the same queue, or of the same partition or the PF, but for the two that end another's
wait (R117). -/
def cmdAfter (s : State) (fn : Nat) (q : CmdReq) : Bool :=
  let part (f : Nat) : Nat := ((func s f).map (fun x => x.part.toNat)).getD 0xFFFF
  fn = q.fn || (q.hdr.code ≠ 0x15 && q.hdr.code ≠ 0x23 && (fn = 0 || q.fn = 0 || part fn = part q.fn))
/-- A command may start: no command it waits for is in progress. -/
def cmdReady (s : State) (q : CmdReq) : Bool := !s.stalled.contains (.cmd q.fn) && !s.host.busy.any (fun b => cmdAfter s b.1 q)
/-- The command that runs next, with the rest of the queue: none goes before one it waits for (seen are the functions passed over). -/
def takeCmd (s : State) (seen : List Nat) : List (Nat × CmdReq × ChainForm) → Option ((CmdReq × ChainForm) × List (Nat × CmdReq × ChainForm))
  | [] => none
  | c :: r =>
    if !seen.any (fun f => cmdAfter s f c.2.1) && cmdReady s c.2.1 then some (c.2, r)
    else (takeCmd s (c.1 :: seen) r).map (fun x => (x.1, c :: x.2))
def duePart (s : State) : Option Out :=
  orDue (s.ck.findSome? (ckDue s)) fun _ =>
  orDue ((s.host.resets.find? (resendDue s)).map (fun r => execResetMarkResend r.fn s)) fun _ =>
  (takeCmd s [] s.host.ctlQ).map (fun c => runChain c.1.1 c.1.2 { s with host := { s.host with ctlQ := c.2 } })

/-- The first event due. -/
def nextInternal (s : State) : Option Out :=
  orDue (dueHouse s) fun _ => orDue (dueAgents s) fun _ => orDue (dueSched s) fun _ => orDue (dueFabric s) fun _ =>
  orDue (dueXl s) fun _ => orDue (dueClaims s) fun _ => duePart s

/-- What has arrived writes memory of a partition whose undo log is full: it waits until a cut makes room (R135). -/
def waitsUndo (s : State) (i : Instr) : Bool := match i with
  | .writePacket p => undoFull s p.part.toNat
  | .atomicPacket p => undoFull s p.part.toNat
  | .casPacket p => undoFull s p.part.toNat
  | .flowLegAck id (.own _) _ _ => (claimAt s id).any (fun c => undoFull s (c.ctx / 65536))
  | .flowLegAck _ (.place _ part _ _ _) _ _ => undoFull s part
  | .collMatch part _ _ => undoFull s part
  | .outcomeFlit f => outcomeWaits s f
  | .milepostDelivery f => f.kind = 3 && outcomeWaits s f
  | _ => false

/-! ## The choice of an agent (R165 to R168). -/

/-- A tenant may issue: its function and partition have it run (R126, R134), and no byte of it is still to be undone (R138). -/
def mayIssue (s : State) (g : Agent) : Bool :=
  tenantRuns s g.fn && !(ckOf s g.part).any (fun c => c.undoWait.any (fun w => w.1 = g.fn))
/-- The agent may issue: its tenant runs, and it does not wait, halt or stand still for a cut. -/
def agentReady (s : State) (a : AgentId) (g : Agent) : Bool :=
  !g.ended && g.haltForm = .no && g.trapPend.isNone && !s.waiting.contains a && s.mod.fault = 0 && mayIssue s g && !cutStop s a g
/-- The agent is within a clause it has been chosen for, fetched or begun, and not suspended by YIELD (R165, R294). -/
def midClause (g : Agent) : Bool := g.clause.isSome && g.waited && (g.idx = 0 || !g.yielded)
/-- The arbiter an agent belongs to (R164): four to a core, a control core by itself. -/
def arbiter (a : AgentId) : Nat × Nat × Nat × Nat × Nat := match a with
  | .warp c k => (0, c.die, c.x, c.y, k % 4)
  | .stream d n => (1, d, n, 0, 0)
/-- The keys of R165, in order; promoted warps rank by the fifth alone (R166). -/
def before (g h : Agent) : Bool :=
  if g.tprio ≠ h.tprio then g.tprio
  else if g.promo ≠ h.promo then g.promo
  else if !g.promo && g.prio ≠ h.prio then h.prio < g.prio
  else if !g.promo && g.yielded ≠ h.yielded then !g.yielded
  else g.waitSince < h.waitSince
/-- The best agent of each arbiter. -/
def bestOf (best : List (AgentId × Agent)) (e : AgentId × Agent) : List (AgentId × Agent) :=
  match best with
  | [] => [e]
  | b :: r => if arbiter b.1 = arbiter e.1 then (if before e.2 b.2 then e :: r else b :: r) else b :: bestOf r e
/-- Among the arbiters' choices, the agent that has run least recently. -/
def leastRecent : List (AgentId × Agent) → Option AgentId
  | [] => none
  | e :: r => some ((r.foldl (fun (m : AgentId × Agent) (x : AgentId × Agent) => if x.2.turn < m.2.turn then x else m) e).1)
/-- The agent that issues next: the one within its clause, else an arbiter's choice. -/
def chooseAgent (s : State) : Option AgentId :=
  let go : Bool := match agent s s.cur with
    | some g => agentReady s s.cur g && midClause g
    | none => false
  if go then some s.cur else leastRecent ((s.agents.filter (fun e => agentReady s e.1 e.2)).foldl bestOf [])
/-- The agent is chosen: it is promoted no longer, its yield has taken effect (R165), and its turn is dated. -/
def takeTurn (s : State) (a : AgentId) : State :=
  { modAgent s a (fun g => { g with promo := false, yielded := false, tried := s.fab.cycles, turn := s.freeIx }) with cur := a }
/-- The agent is chosen for a clause still to be fetched: its promotion and its yield stand until a word of it issues (R165, R166). -/
def fetchTurn (s : State) (a : AgentId) : State :=
  { modAgent s a (fun g => { g with tried := s.fab.cycles, turn := s.freeIx }) with cur := a }
/-- A waiting JOIN, polled when nothing else can be done (R296). -/
def idlePoll (s : State) : Option AgentId := (s.agents.find? (fun e => e.2.joinAt.isSome && joinRead s e.1)).map Prod.fst

/-! ## Time. -/

/-- Waiting cycles of the clusters whose engine has a closed instance ready and no token (R435). -/
def countWaits (s : State) (d : Nat) : State :=
  let clusters := (s.agents.filterMap (fun e => match e.1 with
    | .warp _ _ => none
    | .stream die n => some (die, n % 32))).eraseDups
  clusters.foldl (fun s (die, c) =>
    if instanceReady s die c && !holdsToken s die c then
      let old := ((s.part.tokWait.find? (fun t => t.1 = die && t.2.1 = c)).map (fun t => t.2.2)).getD 0
      { s with part := { s.part with tokWait := (die, c, old + d) :: s.part.tokWait.filter (fun t => !(t.1 = die && t.2.1 = c)) } }
    else s) s
/-- Nanoseconds of a lead over the master that the copy of pod time gives up while time passes: all it can, or 1 ns in each microsecond while
it is not synchronised (R47, R48). -/
def timeGiven (s : State) (ns : Nat) : Nat :=
  min s.fab.lead (if s.fab.synced then ns else (s.fab.podNs + ns) / 1000 - s.fab.podNs / 1000)
/-- Cycles and pod time pass after a step: how much the model leaves open (log 4), at 1.8 GHz. The 2,048 cycles of R166 start anew for an agent that is not ready. -/
def passTime (s : State) : State :=
  let d := (Config.free s.freeIx).toNat
  let n := s.fab.cycles + d
  let ns := n * 5 / 9 - s.fab.cycles * 5 / 9
  let s := countWaits s d
  { s with freeIx := s.freeIx + 1
           agents := s.agents.map (fun e => (e.1, if agentReady s e.1 e.2 then e.2 else { e.2 with tried := n }))
           fab := { s.fab with cycles := n, podNs := s.fab.podNs + (ns - timeGiven s ns), lead := s.fab.lead - timeGiven s ns } }
def afterStep (o : Out) : Out := match o with
  | .next s => .next (passTime s)
  | .fault f => .fault f
  | .refused r => .refused r

end Sys2Proof.Machine
end

