-- ==== Sys2Proof/Machine/Step.lean ====
section
/-! DEFINITION. One step of the machine: the device's own events first, then what has arrived from outside, then an instruction (log 6). -/

namespace Sys2Proof.Machine

/-- Run the word an agent holds: the operation it decodes to, or ILLOP (R232, R259). -/
def runWord (s : State) (g : Agent) : Host.Outcome State Fault Refusal :=
  match decodeIn s g (curWord g) with
  | some i => exec i s
  | none => .next (progress (raiseWord s s.cur g))
/-- The chosen agent fetches its clause, or issues the next word of the one it holds. -/
def runAgent (s : State) (a : AgentId) : Host.Outcome State Fault Refusal :=
  match agent (takeTurn s a) a with
  | some g => if g.clause.isSome && g.waited then runWord (takeTurn s a) g else execClauseFetch a (fetchTurn s a)
  | none => .next s
/-- What happens in one step, but for the time it takes. -/
def happen (s : State) : Host.Outcome State Fault Refusal :=
  match nextInternal s with
  | some o => o
  | none => match s.late.find? (fun i => !waitsUndo s i), s.inbox with
    | some i, _ => exec i { s with late := s.late.erase i }
    | none, i :: r => if waitsUndo s i then .next { s with inbox := r, late := s.late ++ [i] } else exec i { s with inbox := r }
    | none, [] => match chooseAgent s with
      | some a => runAgent s a
      | none => match idlePoll s with
        | some a => execJoinPoll a s
        | none => .next (progress s)
/-- One step. -/
def step (s : State) : Host.Outcome State Fault Refusal := afterStep (happen s)

/-! ## Placing an instruction (log 14). -/

/-- A virtual function that has accepted every feature. -/
def fetchFunc : Func :=
  { Func.fresh false with part := 1, prev := 1, nwq := 32, clusters := 128, status := 0x0F, features := BitVec.allOnes 64, reading := true }
/-- A dedicated partition with every cluster of the device. -/
def fetchPart (dev : Nat) : Part :=
  { part := 1, devs := maskOf 144 [dev], vfs := 1, hbmc := List.replicate 12 11, cgrp := BitVec.allOnes 16, fports := 0, jmem := 0, ethw := 0, hostw := 0,
    hbmw := 0, nwq := 32, hold := false, nten := 0, slice := 0, ckpt := 0, logu := 0, order := [], tok := [], tokNamed := false }
/-- The agent that holds the word as its clause of one instruction. -/
def fetchAgent (w : W64) : Agent :=
  { blankAgent with fn := 1, part := 1, gen := 1, alloc := 256, live := BitVec.allOnes 32, waited := true
                    clause := some ⟨⟨false, false, 0, 0, BitVec.ofNat 4 (classOf (fld w 9 0)), 0⟩, [w]⟩ }
/-- The machine with one dispatched warp, or one stream for a matrix operation, whose fetched clause is the instruction's word: memory, time
and counters stay as they are, nothing else is under way, so that the next step issues the word. -/
def State.withFetchWord (s : State) (nbits w : Nat) : State :=
  let x : W64 := BitVec.ofNat 64 (w % 2 ^ nbits)
  let a : AgentId := if classOf (fld x 9 0) = 6 then .stream 0 0 else .warp ⟨0, 0, 0⟩ 0
  let k : Block := { core := ⟨0, 0, 0⟩, launch := 0, team := 0, blockNo := 0, gteam := 0, ctx := 0, part := 1, shmem := 0, regs := 14, warps := 1, slots := [0],
                     nbr := 0, mem := [], poison := [], wps := [], sids := [], filters := [], halted := false, task := false }
  { State.reset with
    mod := { s.mod with power := .presented, fault := 0 }
    fab := { Fab.reset with podNs := s.fab.podNs, cycles := s.fab.cycles, lastTb := s.fab.podNs }
    xl := { Xl.reset with ctxs := [blankCtx 0 1 1] }
    mem := s.mem
    host := { HostIf.reset with funcs := [(1, fetchFunc)] }
    part := { Parts.reset with parts := [fetchPart s.mod.poddev] }
    agents := [(a, fetchAgent x)]
    blocks := [(0, k)]
    cur := a
    freeIx := s.freeIx
    opSeq := s.opSeq + 1 }

end Sys2Proof.Machine
end

