-- ==== Sys2Proof/Safety.lean ====
section
/-! DEFINITION. What claims call a safe run, the canonical form of memory, and the words in which claims speak of one
instruction: an operation that is ready to act, and the state it leaves when it is done. -/

namespace Sys2Proof.Machine

/-- Every byte memory the machine holds is in canonical form: HBM and yard. -/
def State.MemOk (s : State) : Prop := Memory.wf s.mem.hbm = true ∧ Memory.wf s.mem.yard = true
/-- A run of any length from s meets no fault and no refusal. -/
def State.Safe (s : State) : Prop := ∀ n, ∃ t, Host.Core.run Sys2Proof.core n s = .next t

/-! ## An operation about to act (R232, R244). -/

/-- The current agent as the effect of operation i finds it: every check of R232 has passed, no operand is still pending, no log it
needs is full (R135), and the results that have come for its operands are written (R244). None where a trap or a wait comes first. -/
def readyAgent (s : State) (i : Instr) : Option Agent :=
  match agent s s.cur, opcode i, fmtOf i with
  | some g, some op, some f =>
    if g.trapPend.isSome || (gate s s.cur g i op f).isSome || mustWait g (useOf op f) || logWait s s.cur g op f || (settleFor g (useOf op f)).poison.isSome
    then none else some (acting s (settleFor g (useOf op f)) (useOf op f))
  | _, _, _ => none
/-- Operation i is ready to act on agent g. -/
def Ready (s : State) (i : Instr) (g : Agent) : Prop := readyAgent s i = some g

/-! ## The state an operation leaves when its agent has become g. -/

/-- The next word of the clause follows, or, after its last word, the clause ends with the loop test (R184). -/
def issued (s : State) (g : Agent) : State := progress (setAgent s s.cur (stampEnd s.fab.cycles (advance g)))
/-- The clause ends at once with the loop test (R184, R291). -/
def fallen (s : State) (g : Agent) : State := progress (setAgent s s.cur (stampEnd s.fab.cycles (clauseEnd g)))
/-- Execution continues at the clause header t without the loop test (R184, R290). -/
def jumped (s : State) (g : Agent) (t : W64) : State := progress (setAgent s s.cur (stampEnd s.fab.cycles (enter g t)))
/-- The operation has set the position itself. -/
def placed (s : State) (g : Agent) : State := progress (setAgent s s.cur g)

/-- A trap of cause c with TVAL v is taken at the word at hand, or waits for the results in flight (R232, R378). -/
def trapped (s : State) (g : Agent) (c : Cause) (v : W64) : State := progress (raise (setAgent s s.cur g) s.cur g c.code v 0)
/-- The operation is left unperformed and tried again after something else has happened. -/
def parked (s : State) (g : Agent) : State := park (setAgent s s.cur g) s.cur

/-! ## Values, in the manual's words. -/

/-- A 32-bit result in a scalar register (R282). -/
def regExtend (t : Ty) (x : W32) : W64 := if Ty.signed t then x.signExtend 64 else x.zeroExtend 64
/-- A register function taken at the width of its type (R282, R284). -/
def atWidth (fn : (t : Ty) → (w : Nat) → BitVec w → BitVec w → BitVec w) (t : Ty) (a b : W64) : W64 :=
  if Ty.bits t = 64 then fn t 64 a b else regExtend t (fn t 32 (a.setWidth 32) (b.setWidth 32))
/-- a < b as the type orders its values. -/
def below (t : Ty) {w : Nat} (a b : BitVec w) : Bool := if Ty.signed t then a.slt b else a.ult b
/-- The high half of the product (Tables 14-1, 15-1). -/
def highHalf (t : Ty) {w : Nat} (a b : BitVec w) : BitVec w :=
  if Ty.signed t then ((a.signExtend (2 * w) * b.signExtend (2 * w)) >>> w).setWidth w
  else ((a.zeroExtend (2 * w) * b.zeroExtend (2 * w)) >>> w).setWidth w
/-- Leading zero bits; w of zero (Tables 14-1, 15-2). -/
def leadingZeros {w : Nat} (a : BitVec w) : Nat := if a = 0 then w else w - 1 - a.toNat.log2
/-- One bits. -/
def oneBits {w : Nat} (a : BitVec w) : Nat := ((List.range w).filter (fun i => a.getLsbD i)).length
/-- A register's integer under a type (R282). -/
def typed (t : Ty) (a : W64) : Int :=
  if Ty.bits t = 64 then (if Ty.signed t then a.toInt else a.toNat)
  else if Ty.signed t then (a.setWidth 32).toInt else (a.setWidth 32).toNat
/-- An integer reduced to the type's width and extended (R282, R264). -/
def untyped (t : Ty) (z : Int) : W64 := if Ty.bits t = 64 then BitVec.ofInt 64 z else regExtend t (BitVec.ofInt 32 z)
/-- An integer brought into the range of the type (`.sat`, R264). -/
def clampTo (t : Ty) (z : Int) : Int :=
  let lo : Int := if Ty.signed t then -(2 : Int) ^ (Ty.bits t - 1) else 0
  let hi : Int := if Ty.signed t then (2 : Int) ^ (Ty.bits t - 1) - 1 else (2 : Int) ^ Ty.bits t - 1
  max lo (min hi z)
/-- FMT with SQ set where a result was brought into range (R264, R272). -/
def withSq (fmt : W64) (c : Bool) : W64 := if c then fmt ||| (1#64 <<< 37) else fmt

/-! ## Lanes. -/

/-- A 32-bit or 64-bit source of a vector operation in lane l: V register or pair, or an S register for every lane (R297). -/
def lane32 (g : Agent) (n : BitVec 8) (u : Bool) (l : Nat) : W32 := if u then (sget g n.toNat).setWidth 32 else vget g n.toNat l
def lane64 (g : Agent) (n : BitVec 8) (u : Bool) (l : Nat) : W64 := if u then sget g n.toNat else vget64 g n.toNat l
/-- V register n written in each listed lane; nothing else changes. -/
def writeLanes (g : Agent) (n : Nat) (ls : List Nat) (val : Nat → W32) : Agent :=
  { g with v := msetAll g.v (ls.map (fun l => (n * 32 + l, val l))) }
/-- The pair of V registers n and n + 1 written in each listed lane. -/
def writePairs (g : Agent) (n : Nat) (ls : List Nat) (val : Nat → W64) : Agent :=
  { g with v := msetAll g.v (ls.flatMap (fun l => [(n * 32 + l, (val l).extractLsb' 0 32), ((n + 1) * 32 + l, (val l).extractLsb' 32 32)])) }
/-- Predicate n written in each listed lane. -/
def writePred (g : Agent) (n : Nat) (ls : List Nat) (val : Nat → Bool) : Agent := ls.foldl (fun h l => pset h n l (val l)) g
/-- FMT with the flags of several elements ORed in (R270). -/
def withFlags (g : Agent) (fs : List FlagBits) : Agent := { g with fmt := fs.foldl orFlags g.fmt }

/-! ## Far addresses whose page the agent has at hand. -/

/-- Where a far access finds its byte in this device's HBM, the page's translation being in the cache the access looks in first, with the
permission it needs (R61 to R63): none where a walk, a grant or a fault comes first, or the page lies elsewhere. -/
def hbmFor (who : IoWho) (s : State) (c : Ctx) (at_ va : Nat) (acc : Acc) : Option Nat :=
  if farOk va && (faultAt s who (ctxKey c) va acc).isNone then
    match cacheHit s (ctxKey c) at_ va with
    | some x => if serves x acc && x.loc = .dev s.mod.poddev then some (x.pa + (va - x.va)) else none
    | none => none
  else none
/-- The same for an access of the current agent. -/
def hbmAt (s : State) (c : Ctx) (at_ va : Nat) (acc : Acc) : Option Nat := hbmFor (.agent s.cur) s c at_ va acc
/-- n HBM bytes at pa, none of them in a poisoned line, read as a little-endian number (R13). -/
def cleanNum (s : State) (pa n : Nat) : Option Nat := if poisoned s false pa n then none else some (readNum s.mem.hbm pa n)

/-! ## Memory accesses this device performs by itself. -/

/-- Where an access of n bytes at address a is performed, when that is on this device and at once: the stack, shared memory, a
marked neighbour's shared memory, the yard, or HBM through a translation at hand of a page that is not homed at the host
(R191, R196, R318). None where a check fails or the access would wait or leave. -/
def localPlace (s : State) (g : Agent) (f : FmtM) (k : MKind) (n a : Nat) : Option Place :=
  match f.space with
  | .stack => if a + n ≤ 0xF000 then some (.stack a) else none
  | .shared => match block s g.blk with
    | some b => if a + n ≤ b.shmem * 1024 then some (.block g.blk a) else none
    | none => none
  | .yard => if a + n ≤ 4194304 * (clustersOf s g.part g.die).length then some (.yard (yardPlace (clustersOf s g.part g.die) g.die a)) else none
  | .far => match ctxOf s g.part g.ctx with
    | some c => if homeOf s c a = .at_ (.host s.mod.poddev) then none else (hbmAt s c (cacheOf s.cur) a (accOf k)).map Place.hbm
    | none => none
  | sp => match block s g.blk with
    | some b => if nbrMarked b (nbrDir sp) then match nbrBlock s b (nbrDir sp) with
        | some m => match block s m with
          | some nb => if a + n ≤ nb.shmem * 1024 && !nb.halted then some (.block m a) else none
          | none => none
        | none => none
      else none
    | none => none
/-- The accesses of the listed lanes, when each is aligned and performed here. -/
def localAccs (s : State) (g : Agent) (f : FmtM) (k : MKind) : List Nat → Option (List LaneAcc)
  | [] => some []
  | l :: r =>
    let a := laneAddr g f (k ≠ .load && k ≠ .store) l
    if a % Ty.bytes f.ty ≠ 0 then none
    else match localPlace s g f k (Ty.bytes f.ty) a, localAccs s g f k r with
      | some p, some ls => some (⟨l, a, p⟩ :: ls)
      | _, _ => none
/-- A memory operation whose participating lanes' accesses are all performed here, now: no fabric error for a release, no watch
slot met, nothing to wait for (R318, R323 to R327, R340, R386). -/
def AccessesHere (s : State) (g : Agent) (f : FmtM) (k : MKind) (ls : List LaneAcc) : Prop :=
  localAccs s g f k (lanes g f.c) = some ls ∧ ((f.ord = .rel ∨ f.ord = .acqrel) → g.fabErr = none) ∧
  watchHit g f k (Ty.bytes f.ty) ls = none ∧ memWaits (setAgent s s.cur g) s.cur g f k ls = false
/-- The current agent, as it stands, goes on to the next word. -/
def moved (s : State) : State := progress (modAgent s s.cur (fun g => stampEnd s.fab.cycles (advance g)))

/-! ## Claims. -/

/-- A claim whose claim phase has nothing left to obtain: its context exists, every page of its far windows is pinned, no path
needs a reservation and none is out (R395, R396). -/
def Seated (s : State) (id : ClaimId) (c : Claim) : Prop :=
  (ctxByKey s c.ctx).isSome = true ∧ nextToPin c.pins (claimSegs c) = none ∧ c.denied = false ∧ routeWants s c = [] ∧
  s.fab.resvQ.any (fun q => q.1 = id) = false ∧ (claimResvs s id).all (fun r => r.granted) = true
/-- A flow of the claim may start for agent g: no export, earlier accesses performed, room in the class field (R137, R350, R398). -/
def MayFlow (s : State) (g : Agent) (c : Claim) (cls : Nat) : Prop :=
  flowExport s c = false ∧ orderedOk s s.cur g (allLocal s c) = true ∧ outcGet g cls < 1023

/-! ## Outcomes. -/

/-- The outcome is a next state with the property. -/
def Yields (o : Host.Outcome State Fault Refusal) (P : State → Prop) : Prop := ∃ t, o = .next t ∧ P t

end Sys2Proof.Machine
end

