-- ==== Sys2Proof/Certificates/Slice0/Obligations.lean ====
section
/-! DEFINITION. The statements for the provers, from the numbered rules of the manual. A statement about an instruction is
about Sys2Proof.Machine.exec at a state in which the instruction is ready (Safety.lean): its checks have passed and its
operands are there. -/

open Sys2Proof Sys2Proof.Machine

/-! ## Scalar operations (14). -/

namespace Sys2Proof.Machine

/-- The two-operand functions of Table 14-1 on the low bits of the sources, but for SDIV and SREM (R284). -/
def scalarOps : List ((FmtT → Instr) × ((t : Ty) → (w : Nat) → BitVec w → BitVec w → BitVec w)) :=
  [(.sadd, fun _ _ a b => a + b), (.ssub, fun _ _ a b => a - b), (.smul, fun _ _ a b => a * b),
   (.smulh, fun t _ a b => highHalf t a b),
   (.sand, fun _ _ a b => a &&& b), (.sor, fun _ _ a b => a ||| b), (.sxor, fun _ _ a b => a ^^^ b),
   (.sshl, fun _ w a b => a <<< (b.toNat % w)), (.sshr, fun _ w a b => a >>> (b.toNat % w)),
   (.ssar, fun _ w a b => a.sshiftRight (b.toNat % w)),
   (.smin, fun t _ a b => if below t b a then b else a), (.smax, fun t _ a b => if below t a b then b else a),
   (.scmp, fun t w a b => if below t a b then BitVec.allOnes w else if a = b then 0 else 1),
   (.sclz, fun _ w a _ => BitVec.ofNat w (leadingZeros a)), (.spop, fun _ w a _ => BitVec.ofNat w (oneBits a)),
   (.smov, fun _ _ a _ => a)]
/-- The operations that saturate, on integers (R284). -/
def satOps : List ((FmtT → Instr) × (Int → Int → Int)) := [(.sadd, (· + ·)), (.ssub, (· - ·)), (.smul, (· * ·))]
/-- Quotient and remainder of R285. -/
def quot285 (t : Ty) (a b : Int) : Int := if b = 0 then (if Ty.signed t then -1 else 2 ^ Ty.bits t - 1) else Int.tdiv a b
def rem285 (a b : Int) : Int := if b = 0 then a else a - b * Int.tdiv a b
/-- The operations that act only where R175 lets them, with their common fields: every scalar operation of format T, I and X
that writes registers, and the loop operations. -/
def uniformOps : List (FmtT → Instr) :=
  [.sadd, .ssub, .smul, .smulh, .sdiv, .srem, .sand, .sor, .sxor, .sshl, .sshr, .ssar, .smin, .smax, .scmp, .ssel, .sclz, .spop, .smov]
def uniformOpsI : List (FmtI → Instr) := [.smovi, .saddi, .sandi, .sori, .sxori, .scmpi]
def uniformOpsX : List (FmtX → Instr) := [.mfsr, .mtsr, .sfmt, .lpcnt, .yield]
/-- The immediate operand of Table 14-2 that is extended by its type. -/
def immExt (f : FmtI) : W64 := if f.hi then f.imm.zeroExtend 64 <<< 32 else if Ty.signed f.ty then f.imm.signExtend 64 else f.imm.zeroExtend 64
/-- The immediate operations of Table 14-2: DST's new value from its old one (R286). -/
def immOps : List ((FmtI → Instr) × (FmtI → W64 → W64)) :=
  [(.smovi, fun f d => if f.hi then f.imm ++ d.extractLsb' 0 32 else immExt f),
   (.saddi, fun f d => atWidth (fun _ _ a b => a + b) f.ty d (immExt f)),
   (.sandi, fun f d => atWidth (fun _ _ a b => a &&& b) f.ty d
     (if f.hi then f.imm ++ BitVec.allOnes 32 else BitVec.allOnes 32 ++ f.imm)),
   (.sori, fun f d => atWidth (fun _ _ a b => a ||| b) f.ty d (if f.hi then f.imm ++ 0#32 else f.imm.zeroExtend 64)),
   (.sxori, fun f d => atWidth (fun _ _ a b => a ^^^ b) f.ty d (if f.hi then f.imm ++ 0#32 else f.imm.zeroExtend 64)),
   (.scmpi, fun f d => atWidth (fun t w a b => if below t a b then BitVec.allOnes w else if a = b then 0 else 1) f.ty d (immExt f))]

end Sys2Proof.Machine

/-- SDIV and SREM leave their result pending on S[DST], to be written when the window of LA instructions has closed: the
quotient truncated toward zero and its remainder, and the defined results of a zero divisor and of the one overflow; nothing
else changes (R243, R283, R285). -/
def Sys2Proof.Machine.DivisionLeavesItsResultPending : Prop :=
  ∀ (f : FmtT) (s : State) (g : Agent), uniformOk s.cur g f.c = true →
    let a := typed f.ty (sget g f.oa.toNat)
    let b := typed f.ty (sget g f.ob.toNat)
    (Ready s (.sdiv f) g →
      let x := quot285 f.ty a b
      let y := if f.sat then clampTo f.ty x else x
      exec (.sdiv f) s = .next (issued { s with opSeq := s.opSeq + 1 } (addPend g s.opSeq f.c.la.toNat 0 [⟨1, f.dst.toNat⟩]
        ⟨[], [(f.dst.toNat, untyped f.ty y)], if y ≠ x then fSQ else 0, none⟩))) ∧
    (Ready s (.srem f) g →
      exec (.srem f) s = .next (issued { s with opSeq := s.opSeq + 1 } (addPend g s.opSeq f.c.la.toNat 0 [⟨1, f.dst.toNat⟩]
        ⟨[], [(f.dst.toNat, untyped f.ty (rem285 a b))], 0, none⟩)))

/-- A uniform operation whose guard does not let it act changes no register: the next word follows (R175, R283). -/
def Sys2Proof.Machine.GuardedOffUniformOperationsOnlyMoveOn : Prop :=
  ∀ (s : State) (g : Agent),
    (∀ k ∈ uniformOps, ∀ f : FmtT, Ready s (k f) g → uniformOk s.cur g f.c = false → exec (k f) s = .next (issued s g)) ∧
    (∀ k ∈ uniformOpsI, ∀ f : FmtI, Ready s (k f) g → uniformOk s.cur g f.c = false → exec (k f) s = .next (issued s g)) ∧
    (∀ k ∈ uniformOpsX, ∀ f : FmtX, Ready s (k f) g → uniformOk s.cur g f.c = false → exec (k f) s = .next (issued s g)) ∧
    (∀ f : FmtB, Ready s (.lpset f) g → uniformOk s.cur g f.c = false → exec (.lpset f) s = .next (issued s g))

/-- A uniform operation whose guard does not let it act changes no register: the next word follows (R175, R283). The operations of Table
14-1 without `.sat` write their result into S[DST] and change no other register (R282, R284). SSEL
picks S[OA] where S[OC] is not zero and S[OB] where it is (R284). SADD, SSUB and SMUL with `.sat` bring the exact result into the
type's range and set SQ where that changed it (R264, R284). SDIV and SREM leave their result pending until their window has closed (R243, R285). The immediate operations write DST's new value by Table 14-2 and
change no other register (R286). -/
def Obligations.ScalarOperationsWriteTheirResults : Prop :=
  GuardedOffUniformOperationsOnlyMoveOn ∧ DivisionLeavesItsResultPending ∧
  (∀ p ∈ scalarOps, ∀ (f : FmtT) (s : State) (g : Agent), Ready s (p.1 f) g → uniformOk s.cur g f.c = true → f.sat = false →
    exec (p.1 f) s = .next (issued s (sset g f.dst.toNat (atWidth p.2 f.ty (sget g f.oa.toNat) (sget g f.ob.toNat))))) ∧
  (∀ (f : FmtT) (s : State) (g : Agent), Ready s (.ssel f) g → uniformOk s.cur g f.c = true →
    exec (.ssel f) s = .next (issued s (sset g f.dst.toNat
      (if sget g f.oc.toNat = 0 then sget g f.ob.toNat else sget g f.oa.toNat)))) ∧
  (∀ p ∈ satOps, ∀ (f : FmtT) (s : State) (g : Agent), Ready s (p.1 f) g → uniformOk s.cur g f.c = true → f.sat = true →
    let x := p.2 (typed f.ty (sget g f.oa.toNat)) (typed f.ty (sget g f.ob.toNat))
    let y := clampTo f.ty x
    exec (p.1 f) s = .next (issued s { sset g f.dst.toNat (untyped f.ty y) with fmt := withSq g.fmt (y ≠ x) })) ∧
  (∀ p ∈ immOps, ∀ (f : FmtI) (s : State) (g : Agent), Ready s (p.1 f) g → uniformOk s.cur g f.c = true →
    exec (p.1 f) s = .next (issued s (sset g f.dst.toNat (p.2 f (sget g f.dst.toNat)))))

/-! ### Identity and special registers. -/

namespace Sys2Proof.Machine

/-- The identity values of Table 14-3 by number, but for LANE; a spawned task reads WARP as 0 (R170). -/
def identityTable : List (Nat × (AgentId → Agent → Nat)) :=
  [(1, fun _ g => if g.task = none then g.warpNo else 0), (2, fun a _ => slotOf a), (3, fun _ g => g.blockNo), (4, fun _ g => g.teamNo), (5, fun _ g => g.gteam),
   (6, fun _ g => g.rank), (7, fun _ g => g.nrank), (8, fun _ g => g.die), (9, fun _ g => g.x), (10, fun _ g => g.y),
   (11, fun _ g => g.cluster), (12, fun _ g => g.live.toNat)]
/-- The special registers of Table 14-4 as MFSR reads them; the second argument is the lane operand S[OA][4:0]. -/
def specialReads : List (BitVec 16 × (Agent → Nat → W64)) :=
  [(0x0000, fun g _ => g.exm.zeroExtend 64), (0x0001, fun g l => (mget g.nest l).zeroExtend 64), (0x0002, fun g _ => g.fmt),
   (0x0004, fun g _ => (mget g.xv 0).zeroExtend 64), (0x0005, fun g _ => (mget g.xv 1).zeroExtend 64),
   (0x0006, fun g _ => (mget g.xv 2).zeroExtend 64), (0x0007, fun g _ => (mget g.xv 3).zeroExtend 64),
   (0x0010, fun g _ => (mget g.lc 0).zeroExtend 64), (0x0014, fun g _ => (mget g.lc 1).zeroExtend 64),
   (0x0011, fun g _ => mget g.ls 0), (0x0015, fun g _ => mget g.ls 1), (0x0012, fun g _ => mget g.le 0), (0x0016, fun g _ => mget g.le 1),
   (0x0020, fun g _ => g.tags), (0x0021, fun g _ => g.outc), (0x0022, fun g l => mget g.lin l),
   (0x0030, fun g _ => g.tcause), (0x0031, fun g _ => g.tval), (0x0032, fun g _ => g.tpcx)]
/-- The special registers MTSR writes, the values it accepts and what it leaves (Table 14-4, R272, R274; TCAUSE's INNER is not
software's, Table 21-1). -/
def specialWrites : List (BitVec 16 × (W64 → Bool) × (Agent → W64 → Agent)) :=
  [(0x0000, fun _ => true, fun g v => { g with exm := v.setWidth 32 }),
   (0x0002, fun v => v.extractLsb' 5 3 = 0 && v.extractLsb' 38 2 = 0, fun g v => { g with fmt := v }),
   (0x0004, fun v => v.extractLsb' 16 16 = 0, fun g v => { g with xv := mset g.xv 0 (v.setWidth 32) }),
   (0x0005, fun v => v.extractLsb' 16 16 = 0, fun g v => { g with xv := mset g.xv 1 (v.setWidth 32) }),
   (0x0006, fun v => v.extractLsb' 16 16 = 0, fun g v => { g with xv := mset g.xv 2 (v.setWidth 32) }),
   (0x0007, fun v => v.extractLsb' 16 16 = 0, fun g v => { g with xv := mset g.xv 3 (v.setWidth 32) }),
   (0x0010, fun _ => true, fun g v => { g with lc := mset g.lc 0 (v.setWidth 32) }),
   (0x0014, fun _ => true, fun g v => { g with lc := mset g.lc 1 (v.setWidth 32) }),
   (0x0011, fun v => v.extractLsb' 0 3 = 0 && v.extractLsb' 57 7 = 0, fun g v => { g with ls := mset g.ls 0 v }),
   (0x0015, fun v => v.extractLsb' 0 3 = 0 && v.extractLsb' 57 7 = 0, fun g v => { g with ls := mset g.ls 1 v }),
   (0x0012, fun v => v.extractLsb' 0 3 = 0 && v.extractLsb' 57 7 = 0, fun g v => { g with le := mset g.le 0 v }),
   (0x0016, fun v => v.extractLsb' 0 3 = 0 && v.extractLsb' 57 7 = 0, fun g v => { g with le := mset g.le 1 v }),
   (0x0030, fun _ => true, fun g v => { g with tcause := v &&& 0xFFFF00FF#64 }), (0x0031, fun _ => true, fun g v => { g with tval := v }),
   (0x0032, fun _ => true, fun g v => { g with tpcx := v, written := true })]
/-- BRA's condition: the test of S[TGT2[43:36]] by SUB, inverted by CNEG (R291). -/
def branchHolds (f : FmtB) (g : Agent) : Bool :=
  let v := (sget g (FmtB.treg f)).toInt
  match f.sub.toNat with
  | 0 => true
  | 1 => (v ≠ 0) != f.cneg
  | 2 => (decide (v < 0)) != f.cneg
  | _ => (decide (0 < v)) != f.cneg
/-- A branch that is taken: to t, with the return address in S63 for the calls, or ALIGN where t is no clause address (R291). -/
def branched (s : State) (g : Agent) (t : W64) (link : Bool) : State :=
  if t.extractLsb' 0 3 = 0 then jumped s (if link then sset g 63 (g.pc + 8 * (BitVec.ofNat 64 (clauseCount g) + 2)) else g) t
  else trapped s g .align t
/-- The nesting counters of the live lanes changed by a function of lane and counter (R177 to R179). -/
def withNest (g : Agent) (fn : Nat → Nat → Nat) : Agent :=
  { g with nest := (bitsOf g.live 32).foldl (fun m l => mset m l (BitVec.ofNat 8 (fn l (mget g.nest l).toNat))) g.nest }

end Sys2Proof.Machine

/-- SRD reads an identity value of Table 14-3: into S[DST] zero-extended, or into V[DST] of every participating lane, each its own
LANE (R287). MFSR reads the special register IMM16 names into S[DST] (R288, Table 14-4). MTSR writes S[OA] into the special
register IMM16 names, or raises ILLOP where the value sets a reserved bit; SFMT swaps FMT under the same check (R288, R289, Table
14-4). -/
def Obligations.SpecialRegistersAreReadAndWritten : Prop :=
  (∀ (f : FmtX) (s : State) (g : Agent), Ready s (.srd f) g →
    (∀ p ∈ identityTable, f.imm = BitVec.ofNat 16 p.1 → uniformOk s.cur g f.c = true →
      exec (.srd f) s = .next (issued s (sset g f.dst.toNat (BitVec.ofNat 64 (p.2 s.cur g))))) ∧
    (∀ p ∈ identityTable, f.imm = BitVec.ofNat 16 (0x8000 + p.1) →
      exec (.srd f) s = .next (issued s (writeLanes g f.dst.toNat (lanes g f.c) (fun _ => BitVec.ofNat 32 (p.2 s.cur g))))) ∧
    (f.imm = 0x8000 →
      exec (.srd f) s = .next (issued s (writeLanes g f.dst.toNat (lanes g f.c) (fun l => BitVec.ofNat 32 l))))) ∧
  (∀ p ∈ specialReads, ∀ (f : FmtX) (s : State) (g : Agent), f.imm = p.1 → Ready s (.mfsr f) g → uniformOk s.cur g f.c = true →
    exec (.mfsr f) s = .next (issued s (sset g f.dst.toNat (p.2 g ((sget g f.oa.toNat).toNat % 32))))) ∧
  ((∀ p ∈ specialWrites, ∀ (f : FmtX) (s : State) (g : Agent), f.imm = p.1 → Ready s (.mtsr f) g → uniformOk s.cur g f.c = true →
    exec (.mtsr f) s = .next (if p.2.1 (sget g f.oa.toNat) then issued s (p.2.2 g (sget g f.oa.toNat))
                              else trapped s g .illop (curWord g))) ∧
  (∀ (f : FmtX) (s : State) (g : Agent), Ready s (.sfmt f) g → uniformOk s.cur g f.c = true →
    let v := sget g f.oa.toNat
    exec (.sfmt f) s = .next (
      if v.extractLsb' 5 3 = 0 ∧ v.extractLsb' 38 2 = 0 then
        issued s { (if f.imm = 1 then sset g f.dst.toNat g.fmt else g) with fmt := v }
      else trapped s g .illop (curWord g))))

/-! ### Flow of control. -/

/-- BIF, BELSE and BEND open, split and close a divergent region by the rules of their pseudocode (R177, R178, R179). -/
def Obligations.DivergenceFollowsItsPseudocode : Prop :=
  ∀ (f : FmtB) (s : State) (g : Agent),
    (Ready s (.bifOpen f) g →
      let a := activeMask g
      let t := a &&& (if f.cneg then ~~~ pmask g f.cpred.toNat else pmask g f.cpred.toNat)
      let full := maskOf 32 ((bitsOf g.live 32).filter (fun l => !a.getLsbD l && mget g.nest l = 255))
      let h := { withNest g (fun l n => if t.getLsbD l then 1 else if a.getLsbD l then n else n + 1) with
        recs := ⟨g.fmt.setWidth 32, false, (g.pc + 8 * f.tgt2.signExtend 64).setWidth 57⟩ :: g.recs }
      exec (.bifOpen f) s = .next (
        if 255 ≤ g.recs.length then trapped s g .nest (a.zeroExtend 64)
        else if full ≠ 0 then trapped s g .nest (full.zeroExtend 64)
        else if a &&& ~~~ t ≠ 0 then fallen s h else jumped s { h with need := 1 } (g.pc + 8 * f.tgt1.signExtend 64))) ∧
    (Ready s (.belse f) g →
      exec (.belse f) s = .next (match g.recs with
        | [] => trapped s g .illop (curWord g)
        | r :: rs =>
          if r.els then trapped s g .illop (curWord g)
          else
            let h := { withNest g (fun _ n => if n = 0 then 1 else if n = 1 then 0 else n) with
              recs := { r with els := true } :: rs, fmt := g.fmt.extractLsb' 32 32 ++ r.fmt }
            if activeMask h = 0 then jumped s { h with need := 2 } (r.raddr.setWidth 64) else issued s h)) ∧
    (Ready s (.bend f) g →
      exec (.bend f) s = .next (match g.recs with
        | [] => trapped s g .illop (curWord g)
        | r :: rs =>
          if r.els then issued s { withNest g (fun _ n => n - 1) with recs := rs, fmt := g.fmt.extractLsb' 32 32 ++ r.fmt }
          else trapped s g .illop (curWord g)))

/-- After a clause's last word the loop test of R184 is made: a level whose count is not zero and whose last clause this is counts down, level 1
first, and continues at its first clause unless the count has come to zero, when level 0 is tested in the same way; else the next clause
follows. At trap priority the test is not made (R378). After any other word the next word follows. -/
def Sys2Proof.Machine.LoopTestAtTheClausesEnd : Prop :=
  ∀ g : Agent,
    let l (n : Nat) : W32 := mget g.lc n
    let hit (n : Nat) : Prop := l n ≠ 0 ∧ mget g.le n = g.pc
    let h := advance g
    let at_ (t : W64) (c : Map 32) : Prop := h.pc = t ∧ h.clause = none ∧ h.idx = 0 ∧ h.lc = c
    let inner : Map 32 := if l 1 ≠ 0 ∧ mget g.le 1 = g.pc then mset g.lc 1 (l 1 - 1) else g.lc
    let outer : Map 32 := if l 0 ≠ 0 ∧ mget g.le 0 = g.pc then mset inner 0 (l 0 - 1) else inner
    let next := g.pc + BitVec.ofNat 64 (8 * (clauseCount g + 2))
    h.ls = g.ls ∧ h.le = g.le ∧
    (g.idx < clauseCount g → h.pc = g.pc ∧ h.clause = g.clause ∧ h.idx = g.idx + 1 ∧ h.lc = g.lc) ∧
    (clauseCount g ≤ g.idx → g.tprio = true → at_ next g.lc) ∧
    (clauseCount g ≤ g.idx → g.tprio = false →
      (hit 1 → l 1 ≠ 1 → at_ (mget g.ls 1) inner) ∧
      ((hit 1 → l 1 = 1) → hit 0 → l 0 ≠ 1 → at_ (mget g.ls 0) outer) ∧
      ((hit 1 → l 1 = 1) → (hit 0 → l 0 = 1) → at_ next outer))

/-- BRA, BRAR, CALL, CALLR and RET go to their target where the guard and BRA's test hold, the calls with the following clause's
address in S63, and otherwise leave the clause with the loop test; a register target that is not 8-byte aligned traps ALIGN
(R291). LPSET and LPCNT write the loop registers of their level, YIELD gives up the arbiter and has no effect in a stream, and NOP
has no effect (R293, R294). -/
def Obligations.BranchesAndLoopControls : Prop :=
  LoopTestAtTheClausesEnd ∧
  (∀ (f : FmtB) (s : State) (g : Agent),
    let disp := g.pc + 8 * f.tgt1.signExtend 64
    let reg := sget g (FmtB.treg f)
    let guard := uniformOk s.cur g f.c
    (Ready s (.bra f) g → exec (.bra f) s = .next (if guard && branchHolds f g then branched s g disp false else fallen s g)) ∧
    (Ready s (.brar f) g → exec (.brar f) s = .next (if guard then branched s g reg false else fallen s g)) ∧
    (Ready s (.call f) g → exec (.call f) s = .next (if guard then branched s g disp true else fallen s g)) ∧
    (Ready s (.callr f) g → exec (.callr f) s = .next (if guard then branched s g reg true else fallen s g)) ∧
    (Ready s (.ret f) g → exec (.ret f) s = .next (if guard then branched s g reg false else fallen s g))) ∧
  (∀ (s : State) (g : Agent),
    (∀ f : FmtB, Ready s (.lpset f) g → uniformOk s.cur g f.c = true →
      let n := f.sub.toNat % 2
      exec (.lpset f) s = .next (issued s { g with
        ls := mset g.ls n (g.pc + 8 * f.tgt1.signExtend 64), le := mset g.le n (g.pc + 8 * f.tgt2.signExtend 64) })) ∧
    (∀ f : FmtX, Ready s (.lpcnt f) g → uniformOk s.cur g f.c = true →
      let n := if f.imm.extractLsb' 14 1 = 1 then (f.imm.extractLsb' 0 14).zeroExtend 32 else (sget g f.oa.toNat).setWidth 32
      exec (.lpcnt f) s = .next (issued s { g with lc := mset g.lc (f.imm.extractLsb' 15 1).toNat n })) ∧
    (∀ f : FmtX, Ready s (.yield f) g → uniformOk s.cur g f.c = true →
      exec (.yield f) s = .next (issued s (if isStream s.cur then g else { g with yielded := true, waitSince := s.fab.cycles }))) ∧
    (∀ f : FmtX, Ready s (.nop f) g → exec (.nop f) s = .next (issued s g)))

/-! ### Ends, tasks. -/

namespace Sys2Proof.Machine

/-- The child record SPAWN makes for lane l (R157, R295). -/
def childOf (s : State) (g : Agent) (f : FmtT) (id l : Nat) : Cont :=
  let w := sget g (f.oa.toNat + 1)
  { id, code := sget g f.oa.toNat, frame := if f.sub.getLsbD 1 then sget g f.ob.toNat else vget64 g f.ob.toNat l,
    join := sget g f.oc.toNat, ctx := g.ctx, gen := g.gen, part := g.part, fn := g.fn, launch := g.launch,
    kind := w.getLsbD 17, warps := (w.extractLsb' 0 4).toNat, regs := (w.extractLsb' 4 4).toNat, shmem := (w.extractLsb' 8 9).toNat,
    prio := g.prio, rank := g.rank, nrank := g.nrank, die := g.die, born := s.fab.podNs }
/-- A shape word of Table 14-6 that an empty core has room for (R295, Table 7-6). -/
def shapeFits (w : W64) : Bool :=
  let warps := (w.extractLsb' 0 4).toNat + 1
  let regs := (w.extractLsb' 4 4).toNat
  let shmem := (w.extractLsb' 8 9).toNat
  w.extractLsb' 18 46 = 0 && regs ≠ 15 && warps ≤ 48 && warps * (32 + 16 * regs) * 128 ≤ 524288 && shmem ≤ 256
  && (!w.getLsbD 17 || (shmem = 0 && warps = 1))

end Sys2Proof.Machine

/-- EXIT retires its participating lanes: with live lanes left the warp goes on at the next clause without the loop test; with
none left it ends, or traps FABRIC where a fabric error is recorded. So it does with lanes left that all lie outside EXM where the code section, by
its descriptor, has no next clause: the model's reading of R476 (log 15); while the descriptor is still to come it waits. A stream ends where its guard holds (R183, R294, R325). -/
def Obligations.ExitRetiresItsLanes : Prop :=
  ∀ (f : FmtX) (s : State) (g : Agent), Ready s (.exit f) g →
    let out := lanes g f.c
    let left := g.live &&& ~~~ (maskOf 32 out)
    let next := g.pc + 8 * (BitVec.ofNat 64 (clauseCount g) + 2)
    (isStream s.cur = false →
      (∀ s', (s' = s ∧ left &&& g.exm ≠ 0) ∨ (left ≠ 0 ∧ left &&& g.exm = 0 ∧ pastCode s s.cur g = (s', some false)) →
        exec (.exit f) s = .next (jumped (popLeave s' s.cur (fun l => out.contains l)) { g with live := left } next)) ∧
      (∀ s', (s' = s ∧ left = 0) ∨ (left ≠ 0 ∧ left &&& g.exm = 0 ∧ pastCode s s.cur g = (s', some true)) →
        exec (.exit f) s = .next (match g.fabErr with
          | none => progress (endAgent (setAgent s' s.cur { g with live := 0, recs := [] }) s.cur)
          | some e => trapped s' g .fabric e)) ∧
      (∀ s', left ≠ 0 → left &&& g.exm = 0 → pastCode s s.cur g = (s', none) → exec (.exit f) s = .next (park s' s.cur))) ∧
    (isStream s.cur = true →
      exec (.exit f) s = .next (if uniformOk s.cur g f.c then progress (endAgent (setAgent s s.cur g) s.cur) else jumped s g next))

/-- SPAWN without a join counter appends one child record per participating lane, in lane order, each counted by the launch; with
no lane it does nothing; a shape that breaks Table 14-6 or fits no core traps BOUNDS and a misaligned code address ALIGN (R157,
R295). JOIN on a counter at hand is done when it reads zero, and acquires; while the counter is not zero the instruction stays
unperformed and the time it began to wait is kept; its read waits for what an acquire holds back and for the warp's own earlier
accesses to the counter; a misaligned counter traps ALIGN (R296, R332, R340).
What a counter that cannot be read or added to brings about is the model's reading (log 51). -/
def Obligations.TasksSpawnAndJoin : Prop :=
  (∀ (f : FmtT) (s : State) (g : Agent) (c : Ctx), Ready s (.spawn f) g →
    let code := sget g f.oa.toNat
    let shape := sget g (f.oa.toNat + 1)
    let ls := if isStream s.cur then (if uniformOk s.cur g f.c then [0] else []) else lanes g f.c
    (shapeFits shape = false → exec (.spawn f) s = .next (trapped s g .bounds shape)) ∧
    (shapeFits shape = true → code.extractLsb' 0 3 ≠ 0 → exec (.spawn f) s = .next (trapped s g .align code)) ∧
    (shapeFits shape = true → code.extractLsb' 0 3 = 0 → sget g f.oc.toNat = 0 → ctxOf s g.part g.ctx = some c →
      relWait s s.cur g 4 = false → queueLen s g.part g.die g.prio + ls.length ≤ 65536 →
      exec (.spawn f) s = .next (issued { s with
        opSeq := s.opSeq + ls.length
        sched := { s.sched with
          conts := s.sched.conts ++ ls.mapIdx (fun k l => childOf s g f (s.opSeq + k) l)
          launches := s.sched.launches.map (fun x => if x.id = g.launch then { x with liveRecs := x.liveRecs + ls.length } else x) } } g))) ∧
  (∀ (f : FmtT) (s : State) (g : Agent) (c : Ctx) (pa n : Nat), Ready s (.join f) g → uniformOk s.cur g f.c = true →
    let v := sget g f.oa.toNat
    (v.extractLsb' 0 3 ≠ 0 → exec (.join f) s = .next (trapped s g .align v)) ∧
    (v.extractLsb' 0 3 = 0 → ctxOf s g.part g.ctx = some c → ioFind s (.agent s.cur) 0 = none →
      acqWait g = false → overlaps s s.cur g [v.toNat / 8] = false → homeOf s c v.toNat ≠ .at_ (.host s.mod.poddev) →
      hbmAt s c (cacheOf s.cur) v.toNat .rd = some pa → cleanNum s pa 8 = some n →
      exec (.join f) s = .next (
        if n = 0 then
          issued { s with opSeq := s.opSeq + 1, sched := { s.sched with ios := s.sched.ios.filter (fun i => i.who ≠ .agent s.cur) } }
            { g with joinAt := none, acqHold := memOut g }
        else
          let i : Io := ⟨s.opSeq, .agent s.cur, 0, .got (readBytes s.mem.hbm pa 8) false⟩
          parked { s with opSeq := s.opSeq + 1, sched := { s.sched with ios := s.sched.ios ++ [i] } }
            { g with joinAt := some (g.joinAt.getD s.fab.podNs) })))

/-! ## Traps and the system class (21). -/

/-- A trap taken with no result in flight outside trap priority, or by the resumption of a halted handler (R131), with a handler: TCAUSE holds CODE and CAUSE, TVAL the value, TPCX
the address of the word, execution is at TVEC at trap priority with every register as the program left it but for results that had
come, the agent waits at no siding, the accesses its instruction had begun are given up, and no other agent changes (R378). A trap while results are in flight changes no register: the cause is kept and the agent
waits (R232). A trap without a handler, or at trap priority, makes a fault record: the cause with no inner cause, or cause 0x7F
with the second trap's cause as INNER (R378). What the fault record holds for TVAL and TPCX is the model's reading (log 57). -/
def Obligations.TakingATrap : Prop :=
  (∀ (s : State) (a : AgentId) (g : Agent) (c : Cause) (v : W64) (code : Nat),
    quiet g = true → (g.tprio = false ∨ g.resumed = true) → g.tvec ≠ 0 →
    ∃ h, raise s a g c.code v code = setAgent (leaveSidings (abandon s a) a) a h ∧
      h.tcause = BitVec.ofNat 64 (code * 65536 + c.code) ∧ h.tval = v ∧ h.tpcx = curAddr g ∧
      h.pc = g.tvec ∧ h.clause = none ∧ h.idx = 0 ∧ h.tprio = true ∧ h.written = false ∧ h.trapPend = none ∧ h.pend = [] ∧
      h.posHdr = g.pc ∧ h.posIdx = some g.idx ∧ h.posCnt = clauseCount g ∧ h.depthAt = g.recs.length ∧ h.tvec = g.tvec ∧
      h.p = g.p ∧ h.exm = g.exm ∧ h.live = g.live ∧ h.nest = g.nest ∧ h.recs = g.recs ∧ h.lc = g.lc ∧ h.ls = g.ls ∧ h.le = g.le ∧
      h.xv = g.xv ∧ h.tags = g.tags ∧ h.outc = g.outc ∧ h.k = g.k ∧ h.lin = g.lin ∧ h.stack = g.stack ∧ h.watch = g.watch ∧
      h.nwin = g.nwin ∧ (g.pend = [] → h.v = g.v ∧ h.s = g.s ∧ h.fmt = g.fmt) ∧
      h.fabErr = if c = .fabric then none else g.fabErr) ∧
  (∀ (s : State) (a : AgentId) (g : Agent) (c : Cause) (v : W64) (code : Nat), quiet g = false →
    raise s a g c.code v code = { setAgent s a { g with trapPend := some (c.code, v, code) } with waiting := a :: s.waiting }) ∧
  (∀ (s : State) (a : AgentId) (g : Agent) (c : Cause) (v : W64) (code : Nat), quiet g = true →
    ((g.tprio = false ∨ g.resumed = true) → g.tvec = 0 →
      (raise s a g c.code v code).sched.faults =
        s.sched.faults ++ [⟨g.ctx, slotOf a, g.die, g.x, g.y, c.code, 0, v, curAddr g, g.fn⟩]) ∧
    (g.tprio = true → g.resumed = false →
      (raise s a g c.code v code).sched.faults =
        s.sched.faults ++ [⟨g.ctx, slotOf a, g.die, g.x, g.y, 0x7F, c.code, v, curAddr g, g.fn⟩]))

/-- TRAP raises SOFT with S[OA] and its code, BRK raises BRK with its immediate, TRAP.vec writes TVEC with a clause address and
traps ALIGN on any other (R381, R382). -/
def Obligations.TrapAndBreakpointRaiseTheirCauses : Prop :=
  ∀ (f : FmtX) (s : State) (g : Agent), uniformOk s.cur g f.c = true →
    let v := sget g f.oa.toNat
    (Ready s (.trap f) g →
      exec (.trap f) s = .next (progress (raise (setAgent s s.cur g) s.cur g 0x42 v (f.imm.extractLsb' 0 15).toNat))) ∧
    (Ready s (.brk f) g → exec (.brk f) s = .next (progress (raise (setAgent s s.cur g) s.cur g 0x40 (f.imm.zeroExtend 64) 0))) ∧
    (Ready s (.trapVec f) g →
      exec (.trapVec f) s = .next (
        if v.extractLsb' 0 3 = 0 ∧ v.extractLsb' 57 7 = 0 then issued s { g with tvec := v } else trapped s g .align v))

namespace Sys2Proof.Machine

/-- The position TRET resumes at: header and word (R379). -/
def resumeAt (g : Agent) (next : Bool) : W64 × Nat :=
  if g.written then (g.tpcx, 0)
  else match g.posIdx with
    | none => (g.posHdr, 0)
    | some n => if next = false then (g.posHdr, n) else (g.posHdr, n + 1)
/-- TRET.next past the last word of the clause, where the loop test decides (R379, R184). -/
def pastLast (g : Agent) (next : Bool) : Bool := !g.written && next && (match g.posIdx with
  | some n => g.posCnt ≤ n
  | none => false)

end Sys2Proof.Machine

/-- TRET leaves trap priority and resumes at the saved position: the trapped word, the word after it, the clause header, or the
address written to TPCX; at the trapped word or header what a jump asked of the clause is asked again (R179); with open regions of the handler it raises ILLOP; outside trap priority it raises PRIV (R379, Table
21-3). -/
def Obligations.TretResumesAtTheSavedPosition : Prop :=
  ∀ (f : FmtX) (s : State) (g : Agent),
    (Ready s (.tret f) g → uniformOk s.cur g f.c = true →
      (g.recs.length ≠ g.depthAt → exec (.tret f) s = .next (trapped s g .illop (curWord g))) ∧
      (g.recs.length = g.depthAt → pastLast g (f.imm.getLsbD 0) = false →
        ∃ h, exec (.tret f) s = .next (placed s h) ∧ h.tprio = false ∧ h.suppress = true ∧ h.clause = none ∧ h.waited = false ∧
          h.pc = (resumeAt g (f.imm.getLsbD 0)).1 ∧ h.idx = (resumeAt g (f.imm.getLsbD 0)).2 ∧
          h.s = g.s ∧ h.v = g.v ∧ h.p = g.p ∧ h.fmt = g.fmt ∧ h.tcause = g.tcause ∧ h.tval = g.tval ∧ h.tpcx = g.tpcx ∧
          h.lc = g.lc ∧ h.recs = g.recs ∧ h.nest = g.nest ∧ h.exm = g.exm ∧
          h.need = if g.written = false ∧ (g.posIdx = none ∨ f.imm.getLsbD 0 = false) then g.needT else 0) ∧
      (g.recs.length = g.depthAt → pastLast g (f.imm.getLsbD 0) = true →
        ∃ h, exec (.tret f) s = .next (placed s h) ∧ h.tprio = false ∧ h.clause = none ∧ h.idx = 0 ∧
          h.pc = (loopTest { g with tprio := false } g.posHdr g.posCnt).1 ∧ h.s = g.s ∧ h.v = g.v ∧ h.fmt = g.fmt)) ∧
    (agent s s.cur = some g → g.tprio = false → g.trapPend = none → g.poison = none → formOk (.tret f) = true →
      g.need = 0 →
      exec (.tret f) s = .next (progress (raise s s.cur g 0x04 (curWord g) 0)))

/-- RDTIME reads pod time in nanoseconds, the current tick of 125 ns, or the core's cycle count (its offset is the
implementation's, log 5) (R384). CHKPT writes 0 in a dedicated partition. In a time-shared one it asks for a cut and waits until a checkpoint whose
tick follows its first issue has committed, and writes that checkpoint's number (R385). WATCH sets its slot to the space, size,
kind and base it names, or traps ALIGN on a base that is not a multiple of the size; UNWATCH clears its slot; HALT stops the
launch on this device: none of its warps, streams, blocks, teams and records is left, and the packet is to finish with S[OA][30:0]
unless it had failed (R383, R386). -/
def Obligations.ClocksCheckpointsWatchesAndHalt : Prop :=
  (∀ (f : FmtX) (s : State) (g : Agent), Ready s (.rdtime f) g → uniformOk s.cur g f.c = true →
    (f.imm = 0 → exec (.rdtime f) s = .next (issued s (sset g f.dst.toNat (BitVec.ofNat 64 s.fab.podNs)))) ∧
    (f.imm = 1 → exec (.rdtime f) s = .next (issued s (sset g f.dst.toNat (BitVec.ofNat 64 (s.fab.podNs / 125))))) ∧
    (f.imm = 2 → exec (.rdtime f) s =
      .next (issued s (sset g f.dst.toNat (BitVec.ofNat 64 (s.fab.cycles + Config.coreSkew g.die g.x g.y)))))) ∧
  (∀ (f : FmtX) (s : State) (g : Agent) (c : Ck) (t : Nat), Ready s (.chkpt f) g → uniformOk s.cur g f.c = true →
    (timeShared s g.part = false → exec (.chkpt f) s = .next (issued s (sset g f.dst.toNat 0))) ∧
    (timeShared s g.part = true → g.chkptAt = none →
      exec (.chkpt f) s = .next (parked (askCut s g.part) { g with chkptAt := some (s.fab.podNs / 125) })) ∧
    (timeShared s g.part = true → g.chkptAt = some t → s.ck.find? (fun c => c.part = g.part) = some c →
      exec (.chkpt f) s = .next (if t < commTickOf c g.fn
        then issued s { sset g f.dst.toNat (BitVec.ofNat 64 (commNoOf c g.fn)) with chkptAt := none } else parked s g))) ∧
  (∀ (f : FmtX) (s : State) (g : Agent), uniformOk s.cur g f.c = true →
    let v := sget g f.oa.toNat
    (Ready s (.watch f) g →
      exec (.watch f) s = .next (
        if v.toNat % 2 ^ (f.imm.extractLsb' 4 4).toNat = 0 then
          let w : WatchSlot := ⟨(f.imm.extractLsb' 8 3).toNat, (f.imm.extractLsb' 4 4).toNat, (f.imm.extractLsb' 2 2).toNat, v⟩
          issued s { g with watch := ins g.watch (f.imm.extractLsb' 0 2).toNat w }
        else trapped s g .align v)) ∧
    (Ready s (.unwatch f) g →
      exec (.unwatch f) s = .next (issued s { g with watch := g.watch.filter (fun e => e.1 ≠ (f.imm.extractLsb' 0 2).toNat) })) ∧
    (Ready s (.halt f) g → ∃ t, exec (.halt f) s = .next t ∧
      (∀ e ∈ t.agents, e.2.launch ≠ g.launch) ∧ (∀ e ∈ t.blocks, e.2.launch ≠ g.launch) ∧
      (∀ m ∈ t.sched.teams, m.launch ≠ g.launch) ∧ (∀ c ∈ t.sched.conts, c.launch ≠ g.launch) ∧
      t.sched.launches = s.sched.launches.map (fun x => if x.id = g.launch then
        { x with liveRecs := 0, halted := true, next := x.teams, failed := some (x.failed.getD (v.extractLsb' 0 31).toNat) } else x) ∧
      t.mem = s.mem))

/-! ## Vector and quad operations (15). -/

namespace Sys2Proof.Machine

/-- The state after a vector operation has written val into V[DST], or its pair at 64 bits, of every participating lane. -/
def laneWritten (g : Agent) (f : FmtT) (val : (w : Nat) → Nat → BitVec w) : Agent :=
  if Ty.bits f.ty = 64 then writePairs g f.dst.toNat (lanes g f.c) (val 64) else writeLanes g f.dst.toNat (lanes g f.c) (val 32)
/-- Lane l's source at width 32 or 64 (R297). -/
def laneSrc (g : Agent) (n : BitVec 8) (u : Bool) (w l : Nat) : BitVec w :=
  if w = 64 then (lane64 g n u l).setWidth w else (lane32 g n u l).setWidth w
/-- The bit operations and moves of Table 15-2, but for VSEL (R302). -/
def vectorBitOps : List ((FmtT → Instr) × ((w : Nat) → BitVec w → BitVec w → BitVec w)) :=
  [(.vand, fun _ a b => a &&& b), (.vor, fun _ a b => a ||| b), (.vxor, fun _ a b => a ^^^ b), (.vnot, fun _ a _ => ~~~ a),
   (.vshl, fun w a b => a <<< (b.toNat % w)), (.vshr, fun w a b => a >>> (b.toNat % w)),
   (.vsar, fun w a b => a.sshiftRight (b.toNat % w)), (.vclz, fun w a _ => BitVec.ofNat w (leadingZeros a)),
   (.vpopc, fun w a _ => BitVec.ofNat w (oneBits a)), (.vmov, fun _ a _ => a)]
/-- The integer functions of Table 15-1 with `.wrap` (R298, R300, R301). -/
def vectorIntOps : List ((FmtT → Instr) × ((t : Ty) → (w : Nat) → BitVec w → BitVec w → BitVec w → BitVec w)) :=
  [(.vadd, fun _ _ a b _ => a + b), (.vsub, fun _ _ a b _ => a - b), (.vmul, fun _ _ a b _ => a * b),
   (.vmulh, fun t _ a b _ => highHalf t a b),
   (.vmin, fun t _ a b _ => if below t b a then b else a), (.vmax, fun t _ a b _ => if below t a b then b else a),
   (.vabs, fun t _ a _ _ => if Ty.signed t && a.msb then -a else a), (.vneg, fun _ _ a _ _ => -a),
   (.vaddmin, fun t _ a b c => if below t c (a + b) then c else a + b), (.vaddmax, fun t _ a b c => if below t (a + b) c then c else a + b),
   (.vclamp, fun t _ a b c => let m := if below t a b then b else a; if below t c m then c else m)]
/-- The integer operations that saturate: the exact value brought into range, and what follows it (R264, R298). -/
def vectorSatOps : List ((FmtT → Instr) × (Int → Int → Int) × (Int → Int → Int)) :=
  [(.vadd, fun a b => a + b, fun y _ => y), (.vsub, fun a b => a - b, fun y _ => y), (.vmul, fun a b => a * b, fun y _ => y),
   (.vabs, fun a _ => a.natAbs, fun y _ => y), (.vneg, fun a _ => -a, fun y _ => y),
   (.vaddmin, fun a b => a + b, fun y c => min y c), (.vaddmax, fun a b => a + b, fun y c => max y c)]
/-- The floating-point operations of Table 15-1 that round the exact result (R263, R265, R298). -/
def vectorRoundOps : List ((FmtT → Instr) × (Rnd → FVal → FVal → FVal → FVal × FlagBits)) :=
  [(.vadd, fun r a b _ => fadd r a b), (.vsub, fun r a b _ => fadd r a (fneg b)), (.vmul, fun _ a b _ => fmul a b),
   (.vfma, fun r a b c => ffma r a b c)]
/-- Those whose result is one of the operands, exact and without flags (R301). -/
def vectorExactOps : List ((FmtT → Instr) × (FVal → FVal → FVal → FVal)) :=
  [(.vmin, fun a b _ => fmin a b), (.vmax, fun a b _ => fmax a b), (.vabs, fun a _ _ => fabs a), (.vneg, fun a _ _ => fneg a),
   (.vclamp, fun a b c => fmin (fmax a b) c)]
/-- A function of elements over the one or two elements a 32-bit register holds (R298): value and flags. -/
def overElements (t : Ty) (fn : Nat → Nat → Nat → Nat → Nat × FlagBits) (x y z : W32) : W32 × List FlagBits :=
  if Ty.bits t = 16 then
    let lo := fn 0 (x.extractLsb' 0 16).toNat (y.extractLsb' 0 16).toNat (z.extractLsb' 0 16).toNat
    let hi := fn 1 (x.extractLsb' 16 16).toNat (y.extractLsb' 16 16).toNat (z.extractLsb' 16 16).toNat
    (BitVec.ofNat 32 (lo.1 + 65536 * hi.1), [lo.2, hi.2])
  else
    let r := fn 0 x.toNat y.toNat z.toNat
    (BitVec.ofNat 32 r.1, [r.2])
/-- The state after a 32-bit lane-wise operation with flags: V[DST] written in each participating lane, the flags of every
element ORed into FMT, and RSCNT advanced once under rs where a lane participates (R267, R270). -/
def laneFlagged (g : Agent) (f : FmtT) (val : Nat → W32 × List FlagBits) : Agent :=
  let ls := lanes g f.c
  rsBump (withFlags (writeLanes g f.dst.toNat ls (fun l => (val l).1)) (ls.flatMap (fun l => (val l).2))) f.rnd ls

end Sys2Proof.Machine

/-- The bit operations and moves write their function of each participating lane's sources into V[DST] of that lane; VSEL picks by
its predicate, VMOVI writes its immediate; nothing else of the warp changes (R302). The integer operations of Table 15-1 without
`.sat` write their wrapped result into V[DST] of each participating lane, and no flag (R264, R298). With `.sat` the exact result
is brought into the type's range, and SQ is set where that changed it in some participating lane (R264, R298, R300). -/
def Obligations.VectorBitsAndIntegersWriteTheirLanes : Prop :=
  ((∀ p ∈ vectorBitOps, ∀ (f : FmtT) (s : State) (g : Agent), Ready s (p.1 f) g →
    exec (p.1 f) s = .next (issued s (laneWritten g f (fun w l => p.2 w (laneSrc g f.oa f.ua w l) (laneSrc g f.ob f.ub w l))))) ∧
  (∀ (f : FmtT) (s : State) (g : Agent), Ready s (.vsel f) g →
    exec (.vsel f) s = .next (issued s (laneWritten g f (fun w l =>
      if (pmask g f.oc.toNat).getLsbD l then laneSrc g f.oa f.ua w l else laneSrc g f.ob f.ub w l)))) ∧
  (∀ (f : FmtI) (s : State) (g : Agent), Ready s (.vmovi f) g →
    exec (.vmovi f) s = .next (issued s (writeLanes g f.dst.toNat (lanes g f.c) (fun _ => f.imm))))) ∧
  (∀ p ∈ vectorIntOps, ∀ (f : FmtT) (s : State) (g : Agent), Ready s (p.1 f) g → Ty.isInt f.ty = true → f.sat = false →
    exec (p.1 f) s = .next (issued s (laneWritten g f (fun w l =>
      p.2 f.ty w (laneSrc g f.oa f.ua w l) (laneSrc g f.ob f.ub w l) (laneSrc g f.oc f.uc w l))))) ∧
  (∀ p ∈ vectorSatOps, ∀ (f : FmtT) (s : State) (g : Agent), Ready s (p.1 f) g → Ty.isInt f.ty = true → f.sat = true →
    let src (n : BitVec 8) (u : Bool) (l : Nat) : Int := typed f.ty (if Ty.bits f.ty = 64 then lane64 g n u l else (lane32 g n u l).zeroExtend 64)
    let x (l : Nat) : Int := p.2.1 (src f.oa f.ua l) (src f.ob f.ub l)
    let y (l : Nat) : Int := clampTo f.ty (x l)
    exec (p.1 f) s = .next (issued s { laneWritten g f (fun w l => BitVec.ofInt w (p.2.2 (y l) (src f.oc f.uc l))) with
      fmt := withSq g.fmt ((lanes g f.c).any (fun l => y l ≠ x l)) }))

/-- The floating-point operations of Table 15-1: the rounded ones give the exact result rounded once to the format, with the
flags of every element; the others give an operand and no flag; VADDMIN and VADDMAX round the sum and then compare it (R263,
R265, R267, R270, R298, R301). -/
def Obligations.VectorFloatsRoundOnce : Prop :=
  ∀ (f : FmtT) (s : State) (g : Agent), Ty.isFloat f.ty = true →
    let sp := specOf f.ty
    let run (fn : Nat → Nat → FVal → FVal → FVal → Nat × FlagBits) : Agent := laneFlagged g f (fun l =>
      overElements f.ty (fun e x y z => fn l e (fdec sp x) (fdec sp y) (fdec sp z))
        (lane32 g f.oa f.ua l) (lane32 g f.ob f.ub l) (lane32 g f.oc f.uc l))
    let round (l e : Nat) (v : FVal × FlagBits) : Nat × FlagBits :=
      let r := roundF sp f.rnd v.1 (rsDraw s.cur g l e)
      (r.1, v.2 ||| r.2)
    let exact (v : FVal) : Nat := (roundF sp .rn v 0).1
    (∀ p ∈ vectorRoundOps, Ready s (p.1 f) g →
      exec (p.1 f) s = .next (issued s (run (fun l e a b c => round l e (p.2 f.rnd a b c))))) ∧
    (∀ p ∈ vectorExactOps, Ready s (p.1 f) g →
      exec (p.1 f) s = .next (issued s (run (fun _ _ a b c => (exact (p.2 a b c), 0))))) ∧
    (Ready s (.vaddmin f) g →
      exec (.vaddmin f) s = .next (issued s (run (fun l e a b c =>
        let r := round l e (fadd f.rnd a b); (exact (fmin (fdec sp r.1) c), r.2))))) ∧
    (Ready s (.vaddmax f) g →
      exec (.vaddmax f) s = .next (issued s (run (fun l e a b c =>
        let r := round l e (fadd f.rnd a b); (exact (fmax (fdec sp r.1) c), r.2)))))

namespace Sys2Proof.Machine

/-- The comparisons of Table 15-3 on integers of a type (R303). -/
def intCompare (t : Ty) {w : Nat} (code : Nat) (a b : BitVec w) : Bool :=
  match code with
  | 0 => a = b | 1 => a ≠ b | 2 => below t a b | 3 => !below t b a | 4 => below t b a | _ => !below t a b
/-- On values: an unordered pair satisfies ne and un only (R303). -/
def floatCompare (code : Nat) (a b : FVal) : Bool :=
  let un := a = .nan || b = .nan
  let lt := fltOrd false a b
  let gt := fltOrd false b a
  match code with
  | 0 => !un && !lt && !gt | 1 => un || lt || gt | 2 => lt | 3 => !un && !gt | 4 => gt | 5 => !un && !lt | 6 => un | _ => !un

end Sys2Proof.Machine

/-- VCMP writes its comparison into predicate DST of each participating lane; PAND, POR, PXOR, PNOT their function of the source
predicates, VV2P whether the lane's source is not zero; VP2V writes 1, or all ones with its modifier, where the predicate is
true and 0 elsewhere (R303, R304). -/
def Obligations.ComparisonsAndPredicates : Prop :=
  ∀ (f : FmtT) (s : State) (g : Agent),
    let ls := lanes g f.c
    let pw (val : Nat → Bool) : State := issued s (writePred g f.dst.toNat ls val)
    let pr (n : BitVec 8) (l : Nat) : Bool := (pmask g n.toNat).getLsbD l
    (Ready s (.vcmp f) g →
      exec (.vcmp f) s = .next (pw (fun l =>
        if Ty.bits f.ty = 64 then intCompare f.ty f.oc.toNat (lane64 g f.oa f.ua l) (lane64 g f.ob f.ub l)
        else if Ty.isFloat f.ty then
          let w := Ty.bits f.ty
          floatCompare f.oc.toNat (fdec (specOf f.ty) ((lane32 g f.oa f.ua l).setWidth w).toNat)
            (fdec (specOf f.ty) ((lane32 g f.ob f.ub l).setWidth w).toNat)
        else intCompare f.ty f.oc.toNat (lane32 g f.oa f.ua l) (lane32 g f.ob f.ub l)))) ∧
    (Ready s (.pand f) g → exec (.pand f) s = .next (pw (fun l => pr f.oa l && pr f.ob l))) ∧
    (Ready s (.por f) g → exec (.por f) s = .next (pw (fun l => pr f.oa l || pr f.ob l))) ∧
    (Ready s (.pxor f) g → exec (.pxor f) s = .next (pw (fun l => xor (pr f.oa l) (pr f.ob l)))) ∧
    (Ready s (.pnot f) g → exec (.pnot f) s = .next (pw (fun l => !pr f.oa l))) ∧
    (Ready s (.vv2p f) g → exec (.vv2p f) s = .next (pw (fun l => lane32 g f.oa f.ua l ≠ 0))) ∧
    (Ready s (.vp2v f) g → exec (.vp2v f) s = .next (issued s (writeLanes g f.dst.toNat ls (fun l =>
      if pr f.oa l then (if f.sub.getLsbD 0 then BitVec.allOnes 32 else 1) else 0))))

/-- VCVT converts a lane's value to the destination type: floating point by rounding under FMT.F8SAT's rules, integers by rounding
and range, the other half of a 16-bit destination kept; VF8PK packs two FP32 values into bytes 2k and 2k + 1 of V[DST]; VF8UPK
widens one byte exactly (R268, R269, R305, R306). VQPACK encodes eight registers of each participating lane into one register of
q4 codes, or poisons the lane's block where the scale byte is 0xFF or an input is NaN; VQUNPK decodes one register of codes into
eight FP32 values, exactly (R277, R278, R307, R308). -/
def Obligations.ConversionsAndQuarterBlocks : Prop :=
  (∀ (f : FmtT) (s : State) (g : Agent),
    (Ready s (.vcvt f) g → ∀ ts, Ty.ofCode f.ob.toNat = some ts →
      exec (.vcvt f) s = .next (issued s (laneFlagged g f (fun l =>
        let x := lane32 g f.oa f.ua l
        let h := if f.sub.getLsbD 1 then x.extractLsb' 16 16 else x.extractLsb' 0 16
        let v : FVal := if Ty.isFloat ts then fdec (specOf ts) (if Ty.bits ts = 16 then h.toNat else x.toNat)
                        else ofInt (if Ty.signed ts then x.toInt else x.toNat)
        let r := if Ty.isFloat f.ty then convF f.ty f.rnd (fmtF8sat g.fmt) v (rsDraw s.cur g l (if f.sub.getLsbD 0 then 1 else 0))
                 else convI f.ty f.rnd v
        let old := vget g f.dst.toNat l
        let n := BitVec.ofNat 16 r.1
        (if Ty.bits f.ty = 16 then (if f.sub.getLsbD 0 then n ++ old.extractLsb' 0 16 else old.extractLsb' 16 16 ++ n)
         else BitVec.ofNat 32 r.1, [r.2]))))) ∧
    (Ready s (.vf8pk f) g →
      exec (.vf8pk f) s = .next (issued s (laneFlagged g f (fun l =>
        let k := if f.sub.getLsbD 0 then 1 else 0
        let one (x : W32) (e : Nat) := convF f.ty f.rnd (fmtF8sat g.fmt) (fdec spF32 x.toNat) (rsDraw s.cur g l e)
        let lo := one (lane32 g f.oa f.ua l) (2 * k)
        let hi := one (lane32 g f.ob f.ub l) (2 * k + 1)
        let old := vget g f.dst.toNat l
        let n := BitVec.ofNat 8 hi.1 ++ BitVec.ofNat 8 lo.1
        (if f.sub.getLsbD 0 then n ++ old.extractLsb' 0 16 else old.extractLsb' 16 16 ++ n, [lo.2, hi.2]))))) ∧
    (Ready s (.vf8upk f) g →
      exec (.vf8upk f) s = .next (issued s (writeLanes g f.dst.toNat (lanes g f.c) (fun l =>
        BitVec.ofNat 32 (roundF spF32 .rn (fdec (specOf f.ty) ((lane32 g f.oa f.ua l).extractLsb' (8 * f.sub.toNat) 8).toNat) 0).1))))) ∧
  (∀ (f : FmtT) (s : State) (g : Agent),
    let ls := lanes g f.c
    let xv := ((mget g.xv (g.fmt.extractLsb' 0 2).toNat).extractLsb' 0 16).toNat
    (Ready s (.vqpack f) g →
      let sb (l : Nat) : Nat := ((vget g f.ob.toNat l).extractLsb' 0 8).toNat
      let x (l j : Nat) : FVal := fdec spF32 (vget g (f.oa.toNat + j) l).toNat
      let bad (l : Nat) : Bool := sb l = 0xFF || (List.range 8).any (fun j => x l j = .nan)
      let code (l j : Nat) : Nat × FlagBits :=
        if f.sub.getLsbD 0 && feq (x l j) (q4val 8 (sb l) xv) then (8, 0)
        else q4Enc (sb l / 64) ((sb l % 64 : Nat) - 32) f.rnd (x l j) (rsDraw s.cur g l j)
      let word (l : Nat) : Nat := ((List.range 8).map (fun j => (code l j).1 * 16 ^ j)).sum
      let h := ls.foldl (fun h l =>
        if bad l then
          let h := vset h f.dst.toNat l 0
          vset h f.ob.toNat l ((vget h f.ob.toNat l).extractLsb' 8 24 ++ 0xFF#8)
        else withFlags (vset h f.dst.toNat l (BitVec.ofNat 32 (word l))) ((List.range 8).map (fun j => (code l j).2))) g
      exec (.vqpack f) s = .next (issued s (rsBump h f.rnd ls))) ∧
    (Ready s (.vqunpk f) g →
      let out (l j : Nat) : W32 := BitVec.ofNat 32 (roundF spF32 .rn (q4val ((lane32 g f.oa f.ua l).extractLsb' (4 * j) 4).toNat
        ((lane32 g f.ob f.ub l).extractLsb' 0 8).toNat xv) 0).1
      let h := { g with v := msetAll g.v (ls.flatMap (fun l => (List.range 8).map (fun j => ((f.dst.toNat + j) * 32 + l, out l j)))) }
      exec (.vqunpk f) s = .next (issued s h)))

namespace Sys2Proof.Machine

/-- A long-latency vector operation that has issued: its lanes' results wait on V[DST] for the window of LA instructions (R243,
R299). -/
def longPending (s : State) (g : Agent) (f : FmtT) (val : Nat → W32) (fl : FlagBits) : State :=
  issued { s with opSeq := s.opSeq + 1 } (addPend g s.opSeq f.c.la.toNat 0 [⟨0, f.dst.toNat⟩]
    ⟨(lanes g f.c).map (fun l => (f.dst.toNat * 32 + l, val l)), [], fl, none⟩)
/-- A correctly rounded element; f16 is computed in FP32 and rounded to f16 under rn (R309). -/
def roundedElem (t : Ty) (rnd : Rnd) (fn : FVal → FVal → FVal × FlagBits) (x y : Nat) : Nat × FlagBits :=
  let one (a b : Nat) : Nat × FlagBits :=
    let v := fn (fdec spF32 a) (fdec spF32 b)
    let r := roundF spF32 rnd v.1 0
    (r.1, v.2 ||| r.2)
  let wide (n : Nat) : Nat := (roundF spF32 .rn (fdec spF16 n) 0).1
  if t = .f16 then
    let r := one (wide x) (wide y)
    let m := roundF spF16 .rn (fdec spF32 r.1) 0
    (m.1, r.2 ||| m.2)
  else one x y
/-- The operands whose result Table 15-4 fixes, by operation: FP32 encodings (R263, R309). -/
def fixedResults : List ((FmtT → Instr) × (W32 → Option W32)) :=
  let nan : W32 := 0x7FC00000
  let isNan (x : W32) : Bool := 0x7F800000 < (x &&& 0x7FFFFFFF).toNat
  let inf : W32 := 0x7F800000
  let ninf : W32 := 0xFF800000
  let neg0 : W32 := 0x80000000
  [(.vrcp, fun x => if isNan x then some nan else if x = 0 then some inf else if x = neg0 then some ninf
                    else if x = inf then some 0 else if x = ninf then some neg0 else none),
   (.vrsq, fun x => if isNan x then some nan else if x = 0 then some inf else if x = neg0 then some ninf
                    else if x = inf then some 0 else if x.msb then some nan else none),
   (.vexp2, fun x => if isNan x then some nan else if x = inf then some inf else if x = ninf then some 0
                     else if x = 0 || x = neg0 then some 0x3F800000 else none),
   (.vlog2, fun x => if isNan x then some nan else if x = 0 || x = neg0 then some ninf else if x = inf then some inf
                     else if x.msb then some nan else none),
   (.vsin, fun x => if isNan x || x = inf || x = ninf then some nan else if x = 0 || x = neg0 then some x else none),
   (.vcos, fun x => if isNan x || x = inf || x = ninf then some nan else if x = 0 || x = neg0 then some 0x3F800000 else none),
   (.vtanh, fun x => if isNan x then some nan else if x = inf then some 0x3F800000 else if x = ninf then some 0xBF800000 else none)]

end Sys2Proof.Machine

/-- VDIV and VSQRT leave their correctly rounded lane results, with their flags, pending on V[DST], which is pending though no lane
takes part (R243, R299, R309). The approximations leave a result pending in each participating lane of V[DST]; where Table
15-4 fixes the result of an FP32 operand it is that result, and no FP32 form sets NX. Between the fixed points the result is the
implementation's, within the table's bound (log 7) (R263, R299, R309). -/
def Obligations.LongLatencyVectorOperations : Prop :=
  (∀ p ∈ ([(.vdiv, fdiv), (.vsqrt, fun a _ => fsqrt a)] : List ((FmtT → Instr) × (FVal → FVal → FVal × FlagBits))),
    ∀ (f : FmtT) (s : State) (g : Agent), Ready s (p.1 f) g →
      let ls := lanes g f.c
      let r (l : Nat) := overElements f.ty (fun _ x y _ => roundedElem f.ty f.rnd p.2 x y) (lane32 g f.oa f.ua l) (lane32 g f.ob f.ub l) 0
      exec (p.1 f) s = .next (longPending s g f (fun l => (r l).1) ((ls.flatMap (fun l => (r l).2)).foldl (· ||| ·) 0))) ∧
  (∀ p ∈ fixedResults, ∀ (f : FmtT) (s : State) (g : Agent), Ready s (p.1 f) g →
    ∃ val fl, exec (p.1 f) s = .next (longPending s g f val fl) ∧
      (f.ty = .f32 → fl &&& fNX = 0 ∧ ∀ l ∈ lanes g f.c, ∀ y, p.2 (lane32 g f.oa f.ua l) = some y → val l = y))

namespace Sys2Proof.Machine

/-- xsrc (R310) at width 32 or 64: lane k's value whether or not it participates, zero once it has exited. -/
def crossSrc (g : Agent) (n : BitVec 8) (u : Bool) (w k : Nat) : BitVec w := if u || g.live.getLsbD k then laneSrc g n u w k else 0
/-- The amount or lane of R312. -/
def shiftAmount (g : Agent) (f : FmtT) : Nat := if f.sub.getLsbD 0 then f.ob.toNat else ((sget g f.ob.toNat).extractLsb' 0 5).toNat
/-- R313 over the listed lanes in order: the first lane's value, then one step a lane; the identity of no lane. -/
def reduceLanes {w : Nat} (id : BitVec w) (step : Nat → BitVec w → BitVec w → BitVec w) (src : Nat → BitVec w) : List Nat → BitVec w
  | [] => id
  | l :: r => r.foldl (fun acc k => step k acc (src k)) (src l)
/-- One step of R313 and its identity, by code, on integers and bits without `.sat`. -/
def intStep (t : Ty) (code : Nat) {w : Nat} (a x : BitVec w) : BitVec w :=
  match code with
  | 0 => a + x | 1 => if below t x a then x else a | 2 => if below t a x then x else a | 3 => a &&& x | 4 => a ||| x | _ => a ^^^ x
def intIdentity (t : Ty) (code w : Nat) : BitVec w :=
  let top : BitVec w := if Ty.signed t then BitVec.allOnes w >>> 1 else BitVec.allOnes w
  match code with
  | 1 => top | 2 => ~~~ top | 3 => BitVec.allOnes w | _ => 0
/-- A NaN taken as the default NaN (R263). -/
def quietNan (x : W32) : W32 := if 0x7F800000 < (x &&& 0x7FFFFFFF).toNat then 0x7FC00000 else x
/-- The same on f32: the draw of stochastic rounding is that of the lane. -/
def floatStep (rnd : Rnd) (code : Nat) (draw : Nat → Nat) (l : Nat) (a x : W32) : W32 :=
  let u := fdec spF32 a.toNat
  let v := fdec spF32 x.toNat
  BitVec.ofNat 32 (match code with
    | 0 => roundF spF32 rnd (fadd rnd u v).1 (draw l)
    | 1 => roundF spF32 .rn (fmin u v) 0
    | _ => roundF spF32 .rn (fmax u v) 0).1

end Sys2Proof.Machine

/-- VSCAN writes each participating lane the accumulation up to and with it, or with `.excl` the one before it; VRED writes the
whole accumulation into S[DST], and nothing where no lane participates; in ascending lane order, so the result is fixed. A NaN is
the default NaN. Flags are stated for integers and bits without `.sat`, where none is set (R263, R310, R313). -/
def Obligations.ScansAndReductionsAccumulateInLaneOrder : Prop :=
  ∀ (f : FmtT) (s : State) (g : Agent),
    let ls := lanes g f.c
    let excl := f.sub.getLsbD 0
    let code := f.ob.toNat
    let upTo (l : Nat) : List Nat := ls.filter (fun k => if excl then k < l else k ≤ l)
    let int (w : Nat) (us : List Nat) : BitVec w :=
      reduceLanes (intIdentity f.ty code w) (fun _ a x => intStep f.ty code a x) (fun l => laneSrc g f.oa f.ua w l) us
    let sat (w : Nat) (us : List Nat) : BitVec w :=
      let v (a : BitVec w) : Int := if Ty.signed f.ty then a.toInt else a.toNat
      reduceLanes 0 (fun _ a x => BitVec.ofInt w (clampTo f.ty (v a + v x))) (fun l => laneSrc g f.oa f.ua w l) us
    let flt (us : List Nat) : W32 :=
      reduceLanes (match code with | 1 => 0x7F800000 | 2 => 0xFF800000 | _ => 0)
        (floatStep f.rnd code (fun l => rsDraw s.cur g l 0)) (fun l => quietNan (lane32 g f.oa f.ua l)) us
    (Ready s (.vscan f) g → Ty.isFloat f.ty = false → f.sat = false →
      exec (.vscan f) s = .next (issued s (laneWritten g f (fun w l => int w (upTo l))))) ∧
    (Ready s (.vscan f) g → f.sat = true →
      ∃ fmt, exec (.vscan f) s = .next (issued s { laneWritten g f (fun w l => sat w (upTo l)) with fmt })) ∧
    (Ready s (.vscan f) g → Ty.isFloat f.ty = true →
      ∃ fmt, exec (.vscan f) s = .next (issued s { writeLanes g f.dst.toNat ls (fun l => flt (upTo l)) with fmt })) ∧
    (Ready s (.vred f) g → Ty.isFloat f.ty = false → f.sat = false →
      exec (.vred f) s = .next (issued s (if ls = [] then g else sset g f.dst.toNat
        (if Ty.bits f.ty = 64 then int 64 ls else regExtend f.ty (int 32 ls))))) ∧
    (Ready s (.vred f) g → f.sat = true → ls ≠ [] →
      ∃ fmt, exec (.vred f) s = .next (issued s { sset g f.dst.toNat
        (if Ty.bits f.ty = 64 then sat 64 ls else regExtend f.ty (sat 32 ls)) with fmt })) ∧
    (Ready s (.vred f) g → Ty.isFloat f.ty = true → ls ≠ [] →
      ∃ fmt, exec (.vred f) s = .next (issued s { sset g f.dst.toNat ((flt ls).zeroExtend 64) with fmt }))

/-- QXCH, QBRD, VSHUP, VSHDN, VSHFL and VBCAST write into each participating lane the value another lane had at issue, zero of an
exited lane, or the fill where no lane is named (R310, R311, R312). VVOTE writes whether the predicate is true in some, or in
every, participating lane into that lane's P[DST], or the mask of those lanes into S[DST]; PRAND writes each participating lane
its draw of the defined generator (R281, R314, R315). -/
def Obligations.CrossLaneMovesVotesAndDraws : Prop :=
  (∀ (f : FmtT) (s : State) (g : Agent),
    let k := shiftAmount g f
    let x (w i : Nat) : BitVec w := crossSrc g f.oa f.ua w i
    let fill (w l : Nat) : BitVec w := laneSrc g f.oc f.uc w l
    (Ready s (.qxch f) g → exec (.qxch f) s = .next (issued s (laneWritten g f (fun w l => x w (l ^^^ f.sub.toNat))))) ∧
    (Ready s (.qbrd f) g → exec (.qbrd f) s = .next (issued s (laneWritten g f (fun w l => x w (4 * (l / 4) + f.sub.toNat))))) ∧
    (Ready s (.vshup f) g →
      exec (.vshup f) s = .next (issued s (laneWritten g f (fun w l => if k ≤ l then x w (l - k) else fill w l)))) ∧
    (Ready s (.vshdn f) g →
      exec (.vshdn f) s = .next (issued s (laneWritten g f (fun w l => if l + k ≤ 31 then x w (l + k) else fill w l)))) ∧
    (Ready s (.vshfl f) g →
      exec (.vshfl f) s = .next (issued s (laneWritten g f (fun w l =>
        let i := (lane32 g f.ob f.ub l).toNat; if i < 32 then x w i else fill w l)))) ∧
    (Ready s (.vbcast f) g → exec (.vbcast f) s = .next (issued s (laneWritten g f (fun w _ => x w k))))) ∧
  (∀ (f : FmtT) (s : State) (g : Agent),
    let ls := lanes g f.c
    let yes (l : Nat) : Bool := (pmask g f.oa.toNat).getLsbD l
    (Ready s (.vvote f) g →
      (f.sub = 0 → exec (.vvote f) s = .next (issued s (writePred g f.dst.toNat ls (fun _ => ls.any yes)))) ∧
      (f.sub = 1 → exec (.vvote f) s = .next (issued s (writePred g f.dst.toNat ls (fun _ => ls.all yes)))) ∧
      (f.sub = 2 → exec (.vvote f) s = .next (issued s (if ls = [] then g
        else sset g f.dst.toNat ((maskOf 32 (ls.filter yes)).zeroExtend 64))))) ∧
    (Ready s (.prand f) g →
      let r (l : Nat) : W64 := gen (sget g f.oa.toNat) ((sget g f.ob.toNat).setWidth 32) ((sget g f.oc.toNat <<< 5) ||| BitVec.ofNat 64 l)
      exec (.prand f) s = .next (issued s (match f.ty with
        | .b64 => writePairs g f.dst.toNat ls r
        | .f32 => writeLanes g f.dst.toNat ls (fun l =>
            BitVec.ofNat 32 (roundF spF32 .rn (.fin false ((r l).extractLsb' 40 24).toNat (-24)) 0).1)
        | _ => writeLanes g f.dst.toNat ls (fun l => (r l).extractLsb' 32 32)))))

/-! ## Memory (16). -/

namespace Sys2Proof.Machine

/-- The memory operations by kind: near form and far form (Table 16-1). -/
def loadOps : List (FmtM → Instr) := [.ld, .fld]
def storeOps : List (FmtM → Instr) := [.st, .fst]
def atomicOps : List ((FmtM → Instr) × MKind) :=
  [(.atomAdd, .add), (.atomMin, .min), (.atomMax, .max), (.atomAnd, .and), (.atomOr, .or), (.atomXor, .xor), (.atomExch, .exch), (.cas, .cas),
   (.fatomAdd, .add), (.fatomMin, .min), (.fatomMax, .max), (.fatomAnd, .and), (.fatomOr, .or), (.fatomXor, .xor), (.fatomExch, .exch),
   (.fcas, .cas)]
/-- A loaded value extended to its register (R320). -/
def loaded (t : Ty) (v : Nat) : Nat :=
  match t with
  | .s8 => ((BitVec.ofNat 8 v).signExtend 32).toNat
  | .s16 => ((BitVec.ofNat 16 v).signExtend 32).toNat
  | _ => v
/-- One lane's step of an atomic: the new value and its flags from the old value, the operand, and for compare-and-swap the
operand that replaces (Table 16-2). -/
def atomicStep (k : MKind) (t : Ty) (v x y : Nat) : Nat × FlagBits :=
  let m (n : Nat) : BitVec (Ty.bits t) := BitVec.ofNat (Ty.bits t) n
  let u := fdec spF32 v
  let w := fdec spF32 x
  match k with
  | .add => if t = .f32 then (let e := fadd .rn u w; let r := roundF spF32 .rn e.1 0; (r.1, e.2 ||| r.2)) else ((v + x) % 2 ^ Ty.bits t, 0)
  | .min => if t = .f32 then ((roundF spF32 .rn (fmin u w) 0).1, 0) else (if below t (m x) (m v) then (m x).toNat else (m v).toNat, 0)
  | .max => if t = .f32 then ((roundF spF32 .rn (fmax u w) 0).1, 0) else (if below t (m v) (m x) then (m x).toNat else (m v).toNat, 0)
  | .and => (v &&& x, 0)
  | .or => (v ||| x, 0)
  | .xor => (v ^^^ x, 0)
  | .cas => (if v = x then y else v, 0)
  | _ => (x, 0)
/-- Lanes of one address in order: the value each fetches, the value left, and the flags (R201). -/
def atomicLanes (k : MKind) (t : Ty) : Nat → List (Nat × Nat) → List Nat × Nat × FlagBits
  | v, [] => ([], v, 0)
  | v, (x, y) :: r =>
    let o := atomicStep k t v x y
    let q := atomicLanes k t o.1 r
    (v :: q.1, q.2.1, o.2 ||| q.2.2)

end Sys2Proof.Machine

/-- A load whose accesses are performed here leaves its lanes' values pending on its destination: the bytes at each lane's
address, extended by the type, zeros and a poison mark from a poisoned line; memory and every other register stay as they are
(R318, R320, R326). A store whose accesses are performed here writes each lane's value at its address, lanes in ascending order,
and makes the lines it wrote whole clean (R318, R321, R326). -/
def Obligations.LoadsAndStoresActAtTheirAddresses : Prop :=
  (∀ i ∈ loadOps, ∀ (f : FmtM) (s : State) (g : Agent) (ls : List LaneAcc), Ready s (i f) g → AccessesHere s g f .load ls →
    let n := Ty.bytes f.ty
    let bytes (x : LaneAcc) := placeRead s g x.pl n
    let res : PendRes :=
      { v := ls.flatMap (fun x => laneRes f.data.toNat (Ty.regs f.ty) x.l (loaded f.ty (leVal (bytes x).1)))
        s := [], flags := 0, poison := (ls.find? (fun x => (bytes x).2)).map (fun x => (x.l, BitVec.ofNat 64 x.a)) }
    exec (i f) s = .next (issued { s with opSeq := s.opSeq + 1 }
      { addPend g s.opSeq f.c.la.toNat 0 (rcs 0 f.data.toNat (Ty.regs f.ty)) res true with acqHold := f.ord = .acq && memOut g })) ∧
  (∀ i ∈ storeOps, ∀ (f : FmtM) (s : State) (g : Agent) (ls : List LaneAcc), Ready s (i f) g → AccessesHere s g f .store ls →
    let n := Ty.bytes f.ty
    let s1 := ls.foldl (fun t x => placeWrite t s.cur x.pl (leBytes n (regVal g f.ty f.data.toNat x.l))) (setAgent s s.cur g)
    exec (i f) s = .next (moved (modAgent (cleanPlaces s1 g.born n ls) s.cur (fun h => { h with acqHold := false }))))

/-- A store performed here changes no byte but the n bytes at each participating lane's address, in the space it names: of the
spill stack, of shared memory, of the yard or of HBM; and no register of the warp (R171, R321). -/
def Obligations.StoresChangeOnlyTheirBytes : Prop :=
  ∀ i ∈ storeOps, ∀ (f : FmtM) (s t : State) (g : Agent) (ls : List LaneAcc), Ready s (i f) g → AccessesHere s g f .store ls →
    exec (i f) s = .next t →
    let n := Ty.bytes f.ty
    let outside (o p : Nat) : Prop := o < p ∨ p + n ≤ o
    (∀ o, (∀ x ∈ ls, ∀ p, x.pl = .hbm p → outside o p) → mget (w := 8) t.mem.hbm o = mget (w := 8) s.mem.hbm o) ∧
    (∀ o, (∀ x ∈ ls, ∀ p, x.pl = .yard p → outside o p) → mget (w := 8) t.mem.yard o = mget (w := 8) s.mem.yard o) ∧
    (∀ b k, block s b = some k → ∃ k', block t b = some k' ∧
      (∀ o, (∀ x ∈ ls, ∀ p, x.pl = .block b p → outside o p) → mget (w := 8) k'.mem o = mget (w := 8) k.mem o) ∧
      k'.wps = k.wps ∧ k'.sids = k.sids) ∧
    ∃ h, agent t s.cur = some h ∧
      (∀ o, (∀ x ∈ ls, ∀ p, x.pl = .stack p → outside o p) → mget (w := 8) h.stack o = mget (w := 8) g.stack o) ∧
      h.v = g.v ∧ h.s = g.s ∧ h.p = g.p ∧ h.fmt = g.fmt ∧ h.exm = g.exm ∧ h.live = g.live ∧ h.nest = g.nest ∧ h.tags = g.tags ∧
      h.outc = g.outc ∧ h.xv = g.xv ∧ h.tvec = g.tvec ∧ h.tcause = g.tcause ∧ h.tval = g.tval ∧ h.tpcx = g.tpcx

/-- An atomic performed here whose participating lanes name one address, its line not poisoned: each lane in ascending order
fetches the value the lanes before it left and applies its operation; the last value is stored, and the fetched values and flags
wait on the destination (R201, R322). -/
def Obligations.AtomicsApplyTheirLanesInOrder : Prop :=
  ∀ p ∈ atomicOps, ∀ (f : FmtM) (s : State) (g : Agent) (x : LaneAcc) (r : List LaneAcc), Ready s (p.1 f) g →
    AccessesHere s g f p.2 (x :: r) → (∀ y ∈ r, y.a = x.a) →
    let n := Ty.bytes f.ty
    let old := placeRead s g x.pl n
    let operand (q l : Nat) : Nat := regVal g f.ty q l
    let q := atomicLanes p.2 f.ty (leVal old.1) ((x :: r).map (fun y => (operand (FmtM.opnd f) y.l, operand (FmtM.attr f) y.l)))
    let res : PendRes :=
      { v := ((x :: r).zip q.1).flatMap (fun y => laneRes f.data.toNat (Ty.regs f.ty) y.1.l y.2), s := [], flags := q.2.2, poison := none }
    let h := addPend g s.opSeq f.c.la.toNat 0 (rcs 0 f.data.toNat (Ty.regs f.ty)) ⟨[], [], 0, none⟩ true
    let h := { h with acqHold := (f.ord = .acq || f.ord = .acqrel) && memOut g }
    old.2 = false →
    exec (p.1 f) s = .next (moved (modAgent (placeWrite (setAgent { s with opSeq := s.opSeq + 1 } s.cur h) s.cur x.pl (leBytes n q.2.1))
      s.cur (fun h => { h with pend := h.pend.map (fun e => if e.id = s.opSeq then { e with res } else e) })))

/-- A near access that is misaligned, or outside its space, traps ALIGN or BOUNDS with the address of the lowest such lane, before
any lane's access: the stack ends at 0xF000, shared memory at the block's size, the yard at 4 MiB a cluster (R191, R318). -/
def Obligations.NearAddressFaultsTrapTheLowestLane : Prop :=
  ∀ p ∈ ([(.ld, .load), (.st, .store)] ++ atomicOps.take 8 : List ((FmtM → Instr) × MKind)),
    ∀ (f : FmtM) (s : State) (g : Agent) (l : Nat), Ready s (p.1 f) g →
    ((f.ord = .rel ∨ f.ord = .acqrel) → g.fabErr = none) →
    let n := Ty.bytes f.ty
    let addr (l : Nat) : Nat := laneAddr g f (p.2 ≠ .load && p.2 ≠ .store) l
    ∀ size, (f.space = .stack ∧ size = 0xF000 ∨
             f.space = .shared ∧ size = ((block s g.blk).map (fun b => b.shmem * 1024)).getD 0 ∧ (block s g.blk).isSome ∨
             f.space = .yard ∧ size = 4194304 * (clustersOf s g.part g.die).length) →
      (lanes g f.c).find? (fun l => addr l % n ≠ 0 || size < addr l + n) = some l →
      exec (p.1 f) s = .next (trapped s g (if addr l % n ≠ 0 then .align else .bounds) (BitVec.ofNat 64 (addr l)))

/-! ## Synchronization (19). -/

namespace Sys2Proof.Machine

/-- The block a waypoint or siding operation of the word acts on: the warp's own, or block BLK of the stream's team (R358). -/
def ActsOn (s : State) (g : Agent) (f : FmtX) (n : Nat) (k : Block) : Prop :=
  uniformOk s.cur g f.c = true ∧
  (if isStream s.cur then (f.imm.extractLsb' 4 2).toNat ≤ bptOf s g ∧
      s.blocks.find? (fun e => e.2.team = g.team && e.2.blockNo = (f.imm.extractLsb' 4 2).toNat) = some (n, k) ∧ block s n = some k
   else n = g.blk ∧ block s g.blk = some k)
/-- The waypoint and the siding an operation names in its low bits. -/
def namedWp (k : Block) (f : FmtX) : Wp := wpOf k (f.imm.extractLsb' 0 4).toNat
def namedSid (k : Block) (f : FmtX) : Siding := sidOf k (f.imm.extractLsb' 0 4).toNat
/-- The state with the named waypoint, or siding, of block n replaced. -/
def wpSet (s : State) (n : Nat) (k : Block) (f : FmtX) (w : Wp) : State := setBlock s n { k with wps := ins k.wps (f.imm.extractLsb' 0 4).toNat w }
def sidSet (s : State) (n : Nat) (k : Block) (f : FmtX) (y : Siding) : State := setBlock s n { k with sids := ins k.sids (f.imm.extractLsb' 0 4).toNat y }

end Sys2Proof.Machine

/-- The completion check of a waypoint with a signaller registered: one phase when every signaller has arrived and every source
has delivered its need, which clears the arrivals; else the phase stays (R361). A waypoint answers done for p when its phase lies 1
to 2^31 past p. -/
def Sys2Proof.Machine.WaypointPhasesAdvanceWhenMet : Prop :=
  ∀ (w : Wp) (p : W32), w.sigs ≠ 0 →
    ((w.arr &&& w.sigs = w.sigs ∧ ∀ k < 5, (mget w.need k).toNat ≤ (mget w.got k).toNat) →
      (wpCheck w).phase = w.phase + 1 ∧ (wpCheck w).arr = 0 ∧ (wpCheck w).sigs = w.sigs ∧ (wpCheck w).need = w.need) ∧
    (¬(w.arr &&& w.sigs = w.sigs ∧ ∀ k < 5, (mget w.need k).toNat ≤ (mget w.got k).toNat) →
      (wpCheck w).phase = w.phase ∧ (wpCheck w).arr = w.arr ∧ (wpCheck w).sigs = w.sigs ∧ (wpCheck w).need = w.need) ∧
    (wpDone w p = true ↔ 1 ≤ (w.phase - p).toNat ∧ (w.phase - p).toNat ≤ 2 ^ 31)

/-- WAYREG registers the issuer as a signaller or writes a source's need, WAYDROP removes the issuer or clears the waypoint, each
followed by the completion check where the manual has one; the block's other state stays (R362). WAYARR writes the phase it found
into S[DST]; a registered issuer's arrival is recorded and checked, and waits, unperformed, while its earlier arrival is still
there; it is a release at team scope, which waits for what that scope waits for; toward a marked neighbour it delivers S[OA][31:0] to the waypoint there, and traps PERM where the direction is not marked
or no block is there (R363). WAYWAIT is done when the waypoint's phase has passed S[OA], or with `.cur` the phase it first found,
and otherwise waits unperformed; it acquires. WAYTEST writes whether the phase has passed, or the phase itself (R340, R364). -/
def Obligations.WaypointOperations : Prop :=
  WaypointPhasesAdvanceWhenMet ∧
  (∀ (f : FmtX) (s : State) (g : Agent) (n : Nat) (k : Block), ActsOn s g f n k →
    let w := namedWp k f
    let bit := if isStream s.cur then 16 else g.warpNo
    (Ready s (.wayreg f) g →
      exec (.wayreg f) s = .next (issued (wpSet s n k f (wpCheck { w with sigs := setBit w.sigs bit true })) g)) ∧
    (Ready s (.wayregNeed f) g →
      exec (.wayregNeed f) s = .next (issued (wpSet s n k f
        (wpCheck { w with need := mset w.need (f.imm.extractLsb' 6 3).toNat ((sget g f.oa.toNat).setWidth 32) })) g)) ∧
    (Ready s (.waydrop f) g →
      exec (.waydrop f) s = .next (issued (wpSet s n k f (wpCheck { w with sigs := setBit w.sigs bit false, arr := setBit w.arr bit false })) g)) ∧
    (Ready s (.waydropReset f) g →
      exec (.waydropReset f) s = .next (issued (wpSet s n k f { w with sigs := 0, arr := 0, need := [], got := [] }) g))) ∧
  (∀ (f : FmtX) (s : State) (g : Agent),
    (∀ n k, Ready s (.wayarr f) g → ActsOn s g f n k →
      let w := namedWp k f
      let bit := if isStream s.cur then 16 else g.warpNo
      let g' := sset g f.dst.toNat (w.phase.zeroExtend 64)
      exec (.wayarr f) s = .next (
        if (w.sigs.getLsbD bit && w.arr.getLsbD bit) || relWait s s.cur g 2 then parked s g
        else if w.sigs.getLsbD bit then
          (issued (wpSet s n k f (wpCheck { w with arr := setBit w.arr bit true })) g')
        else issued s g')) ∧
    (∀ k, Ready s (.wayarrNeighbour f) g → uniformOk s.cur g f.c = true → block s g.blk = some k →
      let d := (f.imm.extractLsb' 6 3).toNat
      (nbrMarked k d = false → exec (.wayarrNeighbour f) s = .next (trapped s g .perm (BitVec.ofNat 64 d))) ∧
      (nbrMarked k d = true → nbrBlock s k d = none → exec (.wayarrNeighbour f) s = .next (trapped s g .perm (BitVec.ofNat 64 d))) ∧
      (∀ m nk, nbrMarked k d = true → nbrBlock s k d = some m → block s m = some nk → nk.halted = false →
        relWait s s.cur g (if k.core.x / 2 = nk.core.x / 2 ∧ k.core.y / 2 = nk.core.y / 2 then 2 else 3) = false →
        exec (.wayarrNeighbour f) s = .next (issued (wpSet s m nk f
          (wpShare (namedWp nk f) (nbrOpp d) ((sget g f.oa.toNat).extractLsb' 0 32).toNat)) g)))) ∧
  (∀ (f : FmtX) (s : State) (g : Agent) (n : Nat) (k : Block), ActsOn s g f n k →
    let w := namedWp k f
    let cur := (f.imm.extractLsb' 9 2).toNat = 1
    let low := (sget g f.oa.toNat).setWidth 32
    let acq (h : Agent) : Agent := { h with acqHold := g.acqHold || memOut g }
    (Ready s (.waywait f) g →
      let p := if cur then g.wayCur.getD w.phase else low
      exec (.waywait f) s = .next (if wpDone w p then issued s { acq g with wayCur := none }
        else parked s { g with wayCur := if cur then some p else none })) ∧
    (Ready s (.waytest f) g →
      exec (.waytest f) s = .next (issued s (if cur then sset g f.dst.toNat (w.phase.zeroExtend 64)
        else if wpDone w low then acq (sset g f.dst.toNat 1) else sset g f.dst.toNat 0))))

/-- YCFG gives a siding its base and depth, or closes it with depth 0, after its checks; QLEN reports the siding's free places and
count (R366, R368). QPUSH appends S[OA][31:0] behind the siding's entries, once its release at block scope has nothing to wait for, and QPOP takes the
oldest; a full or empty siding makes them wait in order of arrival, or with `.try` write 0 at once; an entry in a poisoned line reads
as 0 and is taken as a load takes it; an unconfigured siding traps BOUNDS (R326, R367). -/
def Obligations.SidingOperations : Prop :=
  (∀ (f : FmtX) (s : State) (g : Agent) (n : Nat) (k : Block), ActsOn s g f n k →
    let y := namedSid k f
    (Ready s (.ycfg f) g → isStream s.cur = false →
      let v := sget g f.oa.toNat
      let dlog := (v.extractLsb' 24 4).toNat
      let base := (v.extractLsb' 0 18).toNat
      exec (.ycfg f) s = .next (
        if v.extractLsb' 28 36 ≠ 0 ∨ v.extractLsb' 18 6 ≠ 0 ∨ 10 < dlog then trapped s g .illop (curWord g)
        else if base % 4 ≠ 0 then trapped s g .align v
        else if k.shmem * 1024 < base + 4 * 2 ^ dlog then trapped s g .bounds v
        else issued (sidSet s n k f (if dlog = 0 then ⟨0, 0, 0, 0, [], []⟩ else ⟨base, dlog, 0, 0, [], []⟩)) g)) ∧
    (Ready s (.qlen f) g →
      exec (.qlen f) s = .next (issued s (sset g f.dst.toNat
        (if y.dlog = 0 then 0 else BitVec.ofNat 64 (2 ^ 27 + (2 ^ y.dlog - y.count) * 2 ^ 16 + y.count)))))) ∧
  (∀ (f : FmtX) (s : State) (g : Agent) (n : Nat) (k : Block), ActsOn s g f n k →
    let y := namedSid k f
    let d := 2 ^ y.dlog
    let tr := f.imm.getLsbD 8
    (Ready s (.qpush f) g →
      (y.dlog = 0 → exec (.qpush f) s = .next (trapped s g .bounds (f.imm.zeroExtend 64))) ∧
      (y.dlog ≠ 0 → y.count = d → exec (.qpush f) s = .next (if tr then issued s (sset g f.dst.toNat 0)
        else parked (sidSet s n k f { y with waitPush := enq y.waitPush s.cur }) g)) ∧
      (y.dlog ≠ 0 → y.count ≠ d → relWait s s.cur g 1 = true → exec (.qpush f) s = .next (
        if tr then parked s g else parked (sidSet s n k f { y with waitPush := enq y.waitPush s.cur }) g)) ∧
      (y.dlog ≠ 0 → y.count ≠ d → relWait s s.cur g 1 = false → (tr = true ∨ othersFirst y.waitPush s.cur = false) →
        let k' := { k with mem := writeBytes k.mem (y.base + 4 * ((y.head + y.count) % d)) (leBytes 4 ((sget g f.oa.toNat).extractLsb' 0 32).toNat) }
        exec (.qpush f) s = .next (issued (sidSet (logBlock s n (y.base + 4 * ((y.head + y.count) % d)) 4) n k' f { y with count := y.count + 1, waitPush := y.waitPush.filter (fun b => b ≠ s.cur) })
          (if tr then sset g f.dst.toNat 1 else g)))) ∧
    (Ready s (.qpop f) g →
      (y.dlog = 0 → exec (.qpop f) s = .next (trapped s g .bounds (f.imm.zeroExtend 64))) ∧
      (y.dlog ≠ 0 → y.count = 0 → exec (.qpop f) s = .next (if tr then issued s (sset g f.dst.toNat 0)
        else parked (sidSet s n k f { y with waitPop := enq y.waitPop s.cur }) g)) ∧
      (y.dlog ≠ 0 → y.count ≠ 0 → (tr = true ∨ othersFirst y.waitPop s.cur = false) →
        let at_ := y.base + 4 * y.head
        let bad := k.poison.contains (at_ / 64)
        exec (.qpop f) s = .next (issued (sidSet s n k f
            { y with head := (y.head + 1) % d, count := y.count - 1, waitPop := y.waitPop.filter (fun b => b ≠ s.cur) })
          { sset g f.dst.toNat (BitVec.ofNat 64 ((if bad then 0 else readNum k.mem at_ 4) + (if tr then 2 ^ 32 else 0))) with
            acqHold := g.acqHold || memOut g, poison := if bad then some (g.poison.getD (BitVec.ofNat 64 at_)) else g.poison }))))

/-- FENCE takes a fabric error; with a release ordering it waits for what its scope waits for; with an acquire ordering it holds
later accesses until earlier loads and atomics have returned; it changes nothing else (R325, R327, R359). WAITC waits until its
class has at most its threshold outstanding, and takes a fabric error; TWAIT waits for any, or all, of the tags of S[OA] and
writes those that are set; TFIND writes the lowest such tag, or 64, and clears it where asked; TCLR clears tags (R369, R370, R371,
R372). -/
def Obligations.FencesCountersAndTags : Prop :=
  (∀ (f : FmtX) (s : State) (g : Agent), Ready s (.fence f) g →
    let ord := (f.imm.extractLsb' 14 2).toNat
    let scope := (f.imm.extractLsb' 11 3).toNat
    exec (.fence f) s = .next (match g.fabErr with
      | some e => trapped s g .fabric e
      | none => if 2 ≤ ord && relWait s s.cur g scope then parked s g
                else issued s (if ord = 1 ∨ ord = 3 then { g with acqHold := memOut g } else g))) ∧
  (∀ (f : FmtX) (s : State) (g : Agent), uniformOk s.cur g f.c = true →
    let m := sget g f.oa.toNat
    let hit := g.tags &&& m
    (Ready s (.waitc f) g →
      exec (.waitc f) s = .next (match g.fabErr with
        | some e => trapped s g .fabric e
        | none => if outcGet g (f.imm.extractLsb' 12 4).toNat ≤ (f.imm.extractLsb' 0 10).toNat then issued s g else parked s g)) ∧
    (Ready s (.twait f) g →
      exec (.twait f) s = .next (if m = 0 ∨ (if f.imm.getLsbD 0 then hit = m else hit ≠ 0) then issued s (sset g f.dst.toNat hit)
        else parked s g)) ∧
    (Ready s (.tfind f) g →
      exec (.tfind f) s = .next (issued s (match bitsOf hit 64 with
        | [] => sset g f.dst.toNat 64
        | i :: _ => sset (if f.imm.getLsbD 0 then { g with tags := setBit g.tags i false } else g) f.dst.toNat (BitVec.ofNat 64 i)))) ∧
    (Ready s (.tclr f) g → exec (.tclr f) s = .next (issued s { g with tags := g.tags &&& ~~~ m })))

/-! ## Path claims (22). -/

namespace Sys2Proof.Machine

/-- S[OA] on. -/
def descWords (g : Agent) (f : FmtA) (n : Nat) : List W64 := (List.range n).map (fun i => sget g (f.oa.toNat + i))
/-- The state with claim c in slot id, its generation kept. -/
def withClaim (s : State) (id : ClaimId) (c : Claim) : State :=
  { s with eng := { s.eng with slots := ins s.eng.slots id ⟨(slotAt s id).gen, some c⟩ } }
/-- The handle word of a slot: V, its number and generation (Table 22-2). -/
def handleWord (s : State) (id : ClaimId) : W64 := BitVec.ofNat 64 ((slotAt s id).gen.toNat * 65536 + 128 + id.slot)
/-- The agent after an operation of an OUTC class has issued: counted, and its status register pending where the word names one
(R203, R205). -/
def counted (s : State) (g : Agent) (f : FmtA) (cls : Nat) : Agent := pendCompl (outIssue g cls s.opSeq) (complOf f) s.opSeq

end Sys2Proof.Machine

/-- CLAIM and HALO without a valid handle check their descriptor (BOUNDS), take the lowest free held slot (CLAIMX where there is
none) and name it in K[KH]; a claim with nothing to obtain is READY at once. With a valid handle they go on with a claim that is
WALKING or FAULTED, and trap KSTATE on any other (R391, R394, R396, R404, R406).
CAUSE 0 of a claim phase that ends in FABRIC is the model's reading (log 54). -/
def Obligations.ClaimsTakeASlotAndBecomeReady : Prop :=
  ∀ p ∈ ([(.claim, .plain, mkPlain .plain), (.halo, .halo, mkHalo)] :
      List ((FmtA → Instr) × CWork × (FmtA → State → AgentId → Agent → Except (Cause × Nat) Claim))),
    ∀ (f : FmtA) (s : State) (g : Agent), Ready s (p.1 f) g → uniformOk s.cur g f.c = true →
      (∀ x v, handleOf s s.cur g f.kh.toNat = none → p.2.2 f s s.cur g = .error (x, v) →
        exec (p.1 f) s = .next (trapped s g x (BitVec.ofNat 64 v))) ∧
      (∀ c, handleOf s s.cur g f.kh.toNat = none → p.2.2 f s s.cur g = .ok c → freeSlotOf s g true = none →
        exec (p.1 f) s = .next (trapped s g .claimx 0)) ∧
      (∀ c id, handleOf s s.cur g f.kh.toNat = none → p.2.2 f s s.cur g = .ok c → freeSlotOf s g true = some id → Seated s id c →
        exec (p.1 f) s = .next (issued (withClaim s id { c with st := .ready, routed := true, queued := false, cause := 0, reason := 0 })
          { g with k := mset g.k f.kh.toNat (handleWord s id) })) ∧
      (∀ c id, handleOf s s.cur g f.kh.toNat = some (id, c) →
        ((c.work ≠ p.2.1 ∨ (c.st ≠ .walking ∧ c.st ≠ .faulted)) → exec (p.1 f) s = .next (trapped s g .kstate (claimStatus c))) ∧
        (c.work = p.2.1 → (c.st = .walking ∨ c.st = .faulted) → Seated s id c →
          exec (p.1 f) s = .next (issued (withClaim s id { c with st := .ready, routed := true, queued := false, cause := 0, reason := 0 }) g)))

/-- FLOW on a READY claim counts in OUTC and starts its legs; HFLOW does so for a halo, whose paths start when they match. A PARKED
claim that has nothing to obtain flows at once too. An invalid handle, a FLOW on a halo's claim, an HFLOW on another, and a claim in
any other state trap KSTATE; FLOW's word outside the windows traps BOUNDS, and a claim that flows makes the instruction wait (R397,
R398, R407). A flow's claim is FLOWING with the legs of its length, none acknowledged (R398, R399); when a leg is due is the model's
reading (log 12). -/
def Obligations.FlowsCountAndHoldTheirLegs : Prop :=
  (∀ (f : FmtA) (s : State) (g : Agent), uniformOk s.cur g f.c = true →
    let w := sget g f.oa.toNat
    let kh := f.kh.toNat
    let s1 := setAgent { s with opSeq := s.opSeq + 1 } s.cur (counted s g f 1)
    (Ready s (.flow f) g →
      (handleOf s s.cur g kh = none → exec (.flow f) s = .next (trapped s g .kstate 0)) ∧
      (∀ id c, handleOf s s.cur g kh = some (id, c) → c.work = .halo → exec (.flow f) s = .next (trapped s g .kstate (claimStatus c))) ∧
      (∀ id c, handleOf s s.cur g kh = some (id, c) → c.work ≠ .halo →
        (flowWordOk c w.toNat = false → exec (.flow f) s = .next (trapped s g .bounds w)) ∧
        (flowWordOk c w.toNat = true → c.st = .flowing → exec (.flow f) s = .next (parked s g)) ∧
        (flowWordOk c w.toNat = true → c.st ≠ .flowing → c.st ≠ .ready → c.st ≠ .parked →
          exec (.flow f) s = .next (trapped s g .kstate (claimStatus c))) ∧
        (flowWordOk c w.toNat = true → (c.st = .ready ∨ c.st = .parked ∧ Seated s id c) → MayFlow s g c 1 →
          let so := (w.extractLsb' 0 21).toNat
          let d := (w.extractLsb' 21 21).toNat
          let len := (w.extractLsb' 42 17).toNat
          let c1 : Claim := if c.st = .parked then { c with routed := true, queued := false } else c
          exec (.flow f) s = .next (moved (startFlow s1 id
            { c1 with compl := complOf f, opId := s.opSeq, park := false, inval := none, doneB := so, esz := d } so d len))))) ∧
    (Ready s (.hflow f) g →
      (handleOf s s.cur g kh = none → exec (.hflow f) s = .next (trapped s g .kstate 0)) ∧
      (∀ id c, handleOf s s.cur g kh = some (id, c) →
        (c.work ≠ .halo → exec (.hflow f) s = .next (trapped s g .kstate (claimStatus c))) ∧
        (c.work = .halo → c.st = .flowing → exec (.hflow f) s = .next (parked s g)) ∧
        (c.work = .halo → c.st ≠ .flowing → c.st ≠ .ready → c.st ≠ .parked →
          exec (.hflow f) s = .next (trapped s g .kstate (claimStatus c)))) ∧
      (∀ id c, handleOf s s.cur g kh = some (id, c) → c.work = .halo → (c.st = .ready ∨ c.st = .parked ∧ Seated s id c) → MayFlow s g c 1 →
        let c1 : Claim := if c.st = .parked then { c with routed := true, queued := false } else c
        exec (.hflow f) s = .next (moved (checkEnd (withClaim s1 id
          { c1 with compl := complOf f, opId := s.opSeq, park := false, inval := none, st := .flowing, legs := [], started := [],
                    flowLen := c.paths.length * ((c.desc.getD 3 0).extractLsb' 0 17).toNat, cursor := 0, pend := false, psn := false,
                    heldAt := none }) id))))) ∧
  (∀ (s : State) (id : ClaimId) (c : Claim) (so d len : Nat),
    claimAt (startFlow s id c so d len) id = some { c with
      st := .flowing, flowLen := len, cursor := 0, pend := false, psn := false, heldAt := none
      legs := paceLegs s.fab.podNs (cutLegs 0 1 (len / 2048 + 4) 0 0 ((c.desc.getD 0 0).toNat + so) ((c.desc.getD 1 0).toNat + d) len) })

/-- The legs of a flow cover it: they follow each other from offset 0, their lengths add up to the flow's, each moves on both sides
by its offset, and none crosses a 4 KiB boundary on either side (R399). -/
def Obligations.LegsCoverTheFlowWithinPages : Prop :=
  ∀ (sw dw src dst len : Nat),
    let ls := cutLegs sw dw (len / 2048 + 4) 0 0 src dst len
    (ls.map Leg.len).sum = len ∧
    ∀ i (h : i < ls.length),
      ls[i].off = ((ls.take i).map Leg.len).sum ∧ ls[i].src = src + ls[i].off ∧ ls[i].dst = dst + ls[i].off ∧ 0 < ls[i].len ∧
      ls[i].src % 4096 + ls[i].len ≤ 4096 ∧ ls[i].dst % 4096 + ls[i].len ≤ 4096 ∧ ls[i].n = i ∧ ls[i].acked = false

/-- COPY, GATHER and COLL take a transient slot, and once their claim has nothing to obtain and may flow they count in the OUTC
field of their class and flow; GATHER flows in parts of at most 64 KiB, whole elements each; a descriptor of any of them that fails its
checks traps, and nothing is left (R405, R408, R409). When a leg is due is the model's reading (log 12). -/
def Obligations.TransientOperationsCountAndFlow : Prop :=
  ∀ (f : FmtA) (s : State) (g : Agent) (id : ClaimId) (c : Claim), uniformOk s.cur g f.c = true → Seated s id c →
    let s1 (cls : Nat) := setAgent { s with opSeq := s.opSeq + 1 } s.cur (counted s g f cls)
    let c1 : Claim := { c with routed := true, queued := false, compl := complOf f, opId := s.opSeq }
    let found (w : CWork) (mk : Except (Cause × Nat) (Option Claim)) : Prop :=
      transientOf s s.cur w = some (id, c) ∨ transientOf s s.cur w = none ∧ mk = .ok (some c) ∧ freeSlotOf s g false = some id
    (Ready s (.copy f) g → found .copy ((mkPlain .copy f s s.cur g).map some) → MayFlow s g { c with routed := true, queued := false } 1 →
      exec (.copy f) s = .next (moved (startFlow (withClaim (s1 1) id { c with routed := true, queued := false }) id c1 0 0
        (min 65536 ((c.desc.getD 2 0).extractLsb' 0 21).toNat)))) ∧
    (Ready s (.gather f) g → found .gather (mkGather f s s.cur g) → MayFlow s g { c with routed := true, queued := false } 3 →
      let legs := paceLegs s.fab.podNs (gatherLegs c)
      let c2 : Claim := { c1 with st := .flowing, legs, flowLen := (legs.map Leg.len).sum, cursor := 0, psn := false, heldAt := none }
      (legs.map Leg.len).sum ≤ 65536 ∧
      exec (.gather f) s = .next (moved (emitLegs (withClaim (s1 3) id c2) id c2 c2.legs))) ∧
    (Ready s (.coll f) g → found .coll (mkColl f s s.cur g) → MayFlow s g { c with routed := true, queued := false } 4 →
      let t := withClaim (s1 4) id { c1 with st := .flowing, heldAt := none }
      exec (.coll f) s = .next (moved { t with eng := { t.eng with
        colls := s.eng.colls ++ [(c.ctx, ((c.desc.getD 2 0).extractLsb' 35 16).toNat, id)] } })) ∧
    (∀ x v, Ready s (.copy f) g → transientOf s s.cur .copy = none → mkPlain .copy f s s.cur g = .error (x, v) →
      exec (.copy f) s = .next (trapped s g x (BitVec.ofNat 64 v))) ∧
    (∀ x v, Ready s (.gather f) g → transientOf s s.cur .gather = none → mkGather f s s.cur g = .error (x, v) →
      exec (.gather f) s = .next (trapped s g x (BitVec.ofNat 64 v))) ∧
    (∀ x v, Ready s (.coll f) g → transientOf s s.cur .coll = none → mkColl f s s.cur g = .error (x, v) →
      exec (.coll f) s = .next (trapped s g x (BitVec.ofNat 64 v)))

/-- RECLAIM brings a parked claim, and a faulted or still walking one with nothing to obtain, to READY, and does nothing to a claim
that is READY or flows; UNCLAIM frees the slot under a new generation and clears the handle, and waits while the claim flows; KSTAT
leaves the status word, or 0 for an invalid handle, pending on S[OA] (R401, R402, R403, Table 22-4). -/
def Obligations.HandlesAreReclaimedReleasedAndRead : Prop :=
  ∀ (f : FmtA) (s : State) (g : Agent), uniformOk s.cur g f.c = true →
    let h := handleOf s s.cur g f.kh.toNat
    (Ready s (.reclaim f) g →
      (h = none → exec (.reclaim f) s = .next (trapped s g .kstate 0)) ∧
      (∀ id c, h = some (id, c) →
        (c.st = .ready ∨ c.st = .flowing → exec (.reclaim f) s = .next (issued s g)) ∧
        ((c.st = .faulted ∨ c.st = .walking ∨ c.st = .parked) → c.pend = false → Seated s id c →
          exec (.reclaim f) s = .next (issued (withClaim s id
            { c with st := .ready, routed := true, queued := false, cause := 0, reason := 0 }) g)))) ∧
    (Ready s (.unclaim f) g →
      (h = none → exec (.unclaim f) s = .next (issued s { g with k := mset g.k f.kh.toNat 0 })) ∧
      (∀ id c, h = some (id, c) →
        (c.st = .flowing → exec (.unclaim f) s = .next (parked s g)) ∧
        (c.st ≠ .flowing → c.pend = false →
          exec (.unclaim f) s = .next (issued (freeSlot s id) { g with k := mset g.k f.kh.toNat 0 }) ∧
          ∀ e ∈ (freeSlot s id).eng.slots, e.1 = id → e.2.claim = none))) ∧
    (Ready s (.kstat f) g →
      exec (.kstat f) s = .next (issued { s with opSeq := s.opSeq + 1 } (addPend g s.opSeq f.c.la.toNat 0 [⟨1, f.oa.toNat⟩]
        ⟨[], [(f.oa.toNat, match h with | some x => claimStatus x.2 | none => 0)], 0, none⟩)))


/-! ## The matrix engine (25). -/

namespace Sys2Proof.Machine

/-- The matrix operations by opcode, and those that read or write feeder warps (R421, R425, R429). -/
def matrixOps : List ((FmtC → Instr) × Nat) :=
  [(.mma, 0x240), (.mmat, 0x241), (.mzero, 0x242), (.mload, 0x243), (.mdrain, 0x244), (.maddt, 0x245)]
/-- The stream g with the operation appended to batch n as b. -/
def joined (g : Agent) (n : Nat) (b : Batch) (op : Nat) (f : FmtC) : Agent :=
  { g with mx := { g.mx with batches := ins g.mx.batches n { b with ops := b.ops ++ [⟨op, f, 0⟩] } } }
/-- The feeders the operation names: warps ws of the named block of the stream's team, their register ranges inside their
allocations (R421, R424). -/
def FeedersAre (s : State) (g : Agent) (op : Nat) (f : FmtC) (ws : List AgentId) : Prop :=
  f.sub.toNat ≤ bptOf s g ∧
  (feedersOf op f).length = ws.length ∧
    ∀ x ∈ (feedersOf op f).zip ws, ∃ h, feeder s g f.sub.toNat x.1.1 = some (x.2, h) ∧ x.1.2.1 + x.1.2.2 ≤ min h.alloc 256

end Sys2Proof.Machine

/-- A matrix operation joins its OPEN batch behind the operations there; a CLOSED batch makes it wait and a full one traps
BOUNDS. Each feeder warp it names for the first time in the instance is counted once in its MATX. MWAIT closes the
batch and waits until it is IDLE (R421, R423, R424, R426, R431). -/
def Obligations.MatrixOperationsJoinTheirBatch : Prop :=
  (∀ p ∈ matrixOps, ∀ (f : FmtC) (s : State) (g : Agent), Ready s (p.1 f) g → uniformOk s.cur g f.c = true →
    let n := f.batch.toNat
    let b := batchOf g.mx n
    (feedersOf p.2 f = [] →
      exec (p.1 f) s = .next (
        if b.closed then parked s g
        else if 32 ≤ b.ops.length then trapped s g .bounds (BitVec.ofNat 64 (0x10000 + n))
        else issued s (joined g n b p.2 f))) ∧
    (∀ ws, feedersOf p.2 f ≠ [] → FeedersAre (setAgent s s.cur g) g p.2 f ws →
      (b.closed = true → exec (p.1 f) s = .next (parked s g)) ∧
      (b.closed = false → 32 ≤ b.ops.length → exec (p.1 f) s = .next (trapped s g .bounds (BitVec.ofNat 64 (0x10000 + n)))) ∧
      (b.closed = false → b.ops.length < 32 → (∀ w ∈ ws, ∀ h, agent (setAgent s s.cur g) w = some h → outcGet h 2 < 1023) →
        let r := addFeeders (setAgent s s.cur g) b ws
        exec (p.1 f) s = .next (moved (modAgent r.1 s.cur (fun g => joined g n r.2 p.2 f)))))) ∧
  (∀ (s : State) (b : Batch) (ws : List AgentId),
    let r := addFeeders s b ws
    (∀ w, w ∈ r.2.feeders ↔ w ∈ b.feeders ∨ w ∈ ws) ∧ r.2.ops = b.ops ∧ r.2.closed = b.closed ∧
    ∀ w h, agent s w = some h → ∃ h', agent r.1 w = some h' ∧ h'.v = h.v ∧ h'.s = h.s ∧ h'.p = h.p ∧
      (outcGet h 2 < 1023 → outcGet h' 2 = outcGet h 2 + (if w ∈ ws ∧ w ∉ b.feeders then 1 else 0))) ∧
  (∀ (f : FmtC) (s : State) (g : Agent), uniformOk s.cur g f.c = true →
    let h := { g with mx := closeBatch g.mx f.batch.toNat }
    (Ready s (.mwait f) g →
      exec (.mwait f) s = .next (if (lkp h.mx.batches f.batch.toNat).isSome then parked s h else issued s h)))

/-- MFENCE closes the OPEN instance of batch BATCH: with operations it joins the closed instances in closing order, with none it is IDLE at once.
It has no effect on a batch that is IDLE, or CLOSED and not complete. It is done at once in every case: it waits for nothing and changes
nothing else (R430, R423). -/
def Obligations.MfenceClosesTheOpenInstance : Prop :=
  ∀ (f : FmtC) (s : State) (g : Agent), Ready s (.mfence f) g → uniformOk s.cur g f.c = true →
    let n := f.batch.toNat
    ((lkp g.mx.batches n = none ∨ ∃ b, lkp g.mx.batches n = some b ∧ b.closed = true) → exec (.mfence f) s = .next (issued s g)) ∧
    (∀ b, lkp g.mx.batches n = some b → b.closed = false →
      (b.ops ≠ [] → exec (.mfence f) s = .next (issued s { g with mx :=
        { g.mx with batches := ins g.mx.batches n { b with closed := true }, queue := g.mx.queue ++ [n] } })) ∧
      (b.ops = [] → exec (.mfence f) s = .next (issued s { g with mx := { g.mx with batches := del g.mx.batches n } })))

/-- One step of the running operation at the head of a cluster's queue: MZERO zeroes its tile, MLOAD fills its panel, MADDT adds
another tile, and an MMA adds to each element its four K-groups in order, each rounded once to FP32, from zero in MMAT's first
step (R279, R420, R427 to R429). Other tiles keep their elements. MDRAIN changes no tile: it writes its panel, element by element rounded
to its type, into the feeder warp's V registers, once the register log has room, and leaves the warp's other registers (R135, R429). The
stream's FMT takes the flags of every element the step computed (R270, R427). -/
def Obligations.MatrixStepsChangeTheirTile : Prop :=
  ∀ (die c : Nat) (s : State) (g : Agent) (n : Nat) (q : List Nat) (o : MOp) (r : List MOp),
    agent s (streamAt s die c) = some g → g.mx.running = true → g.mx.queue = n :: q → (batchOf g.mx n).ops = o :: r →
    [0x240, 0x241, 0x242, 0x243, 0x244, 0x245].contains o.op = true →
    let old (i j : Nat) : W32 := tget g.mx o.f.tile.toNat i j
    let a := opRegs s g o.f o.f.aslot.toNat
    let b := opRegs s g o.f o.f.bslot.toNat
    let at_ (base : BitVec 8) : Nat := base.toNat + o.step * fragRegs o.f.ty
    let xv (k : Nat) : Nat := (mget g.xv k).toNat % 65536
    let gk := groupK o.f.ty
    let groups (i j : Nat) := (List.range 4).map (fun u => (List.range gk).map (fun v =>
      (fragVal o.f.ty a (at_ o.f.abase) (xv (fmtXA g.fmt)) i (u * gk + v), fragVal o.f.ty b (at_ o.f.bbase) (xv (fmtXB g.fmt)) j (u * gk + v))))
    let from_ (i j : Nat) : W32 := if o.op = 0x241 ∧ o.step = 0 then 0 else old i j

    let drained (i j : Nat) : Nat × FlagBits := roundF (specOf o.f.ty) .rn (fdec spF32 (old i j).toNat) 0
    ∃ t, exec (.matrixStepComplete die c) s = .next t ∧
      (∀ h, agent t (streamAt s die c) = some h → drainWaits s g = false →
        (∀ k i j, i < 128 → j < 128 → (k ≠ o.f.tile.toNat ∨ o.op = 0x244) → tget h.mx k i j = tget g.mx k i j) ∧
        (∀ i j, i < 128 → j < 128 →
          let new := tget h.mx o.f.tile.toNat i j
          (o.op = 0x242 → new = 0) ∧
          (o.op = 0x243 → new = if i / 32 = o.f.nk.toNat then loadPanel o.f.ty a o.f.abase.toNat o.f.nk.toNat i j else old i j) ∧
          (o.op = 0x245 → new = BitVec.ofNat 32 (fElem 0x080 spF32 .rn (old i j).toNat (tget g.mx o.f.abase.toNat i j).toNat 0 0).1) ∧
          (o.op = 0x240 ∨ o.op = 0x241 → new = (accumulate (from_ i j) (groups i j)).1)) ∧
        h.fmt = (withFlags g ((List.range (if o.op = 0x244 then 4096 else 16384)).map (fun n =>
          let i := n / 128
          let j := n % 128
          if o.op = 0x242 ∨ o.op = 0x243 then 0
          else if o.op = 0x245 then (fElem 0x080 spF32 .rn (old i j).toNat (tget g.mx o.f.abase.toNat i j).toNat 0 0).2
          else if o.op = 0x244 then (if o.f.ty = .f32 then 0 else (drained (32 * o.f.nk.toNat + i) j).2)
          else (accumulate (from_ i j) (groups i j)).2))).fmt) ∧
      (∀ h, isStream (opAgent s g o.f o.f.aslot.toNat).1 = false → agent t (opAgent s g o.f o.f.aslot.toNat).1 = some h → o.op = 0x244 →
        drainWaits s g = false → mwf (opAgent s g o.f o.f.aslot.toNat).2.v = true →
        let w := (opAgent s g o.f o.f.aslot.toNat).2
        h.s = w.s ∧ h.p = w.p ∧
        (∀ r l, l < 32 → (drainRegs o.f).contains r = false → vget h r l = vget w r l) ∧
        ∀ i j, i < 32 → j < 128 →
          let at_ := (128 * i + j) * Ty.bytes o.f.ty
          let reg := vget h (o.f.abase.toNat + at_ / 128) (at_ / 4 % 32)
          let val := (drained (32 * o.f.nk.toNat + i) j).1
          (o.f.ty = .f32 → reg = BitVec.ofNat 32 val) ∧
          (o.f.ty = .bf16 → elem16 reg.toNat (at_ % 4 / 2) = val % 65536))

/-- A closed instance starts on a token its cluster holds and no change of count is pending, and takes the token; a token that no
engine uses moves on to the next cluster of the ring; a change of count takes effect when no engine of the die runs (R432, R433,
R434). -/
def Obligations.TokensStartBatchesAndMove : Prop :=
  (∀ (die c : Nat) (s : State) (g : Agent), agent s (streamAt s die c) = some g → instanceReady s die c = true →
    changePending s g.part die = false → s.part.tokens.any (fun t => t.part = g.part && t.die = die && t.at_ = c && !t.held) = true →
    ∃ t, exec (.batchStart die c) s = .next t ∧ agent t (streamAt s die c) = some { g with mx := { g.mx with running := true } } ∧
      holdsToken t die c = true ∧ t.part.tokens.length = s.part.tokens.length) ∧
  (∀ (part die c : Nat) (s : State), (clustersOf s part die).contains c = true →
    s.part.tokens.any (fun t => t.part = part && t.die = die && !t.held && ringNext (clustersOf s part die) t.at_ = c &&
      !tokenUseful s part die t.at_) = true →
    ∃ t, exec (.tokenArrival part die c) s = .next t ∧ t.part.tokens.length = s.part.tokens.length ∧
      t.part.tokens.any (fun x => x.part = part && x.die = die && !x.held && x.at_ = c) = true ∧ t.agents = s.agents) ∧
  (∀ (part die : Nat) (s : State) (x : Nat × Nat × Nat), s.part.tokPend.find? (tokKey part die) = some x → enginesRun s part die = false →
    ∃ t, exec (.tokenCountEffect part die) s = .next t ∧ changePending t part die = false ∧
      t.part.tokens = s.part.tokens.filter (fun x => !(x.part = part && x.die = die)) ++
        placeTokens (clustersOf s part die) part die x.2.2)

/-! ## Populations (26). -/

namespace Sys2Proof.Machine

/-- Fields of a PINIT word: reserved bits, CAP, target (Table 26-1). -/
def pinitBad (w : W64) (o : PopObj) : Bool :=
  let cap := (w.extractLsb' 0 20).toNat
  let tgt := (w.extractLsb' 20 20).toNat
  w.extractLsb' 40 24 ≠ 0 || (cap = 0 && o.slots ≠ []) || (cap ≠ 0 && (786432 < cap || cap < tgt || cap < o.slots.length))

end Sys2Proof.Machine

/-- PINIT makes or frees an object, PJOIN registers the participating lanes with their LIN, PLEAVE takes them out, PSTAT and PLIN
read; a RESAMPLE of a warp with registered lanes is a release at device scope, which takes a fabric error and waits for what that scope
waits for, records one arrival, with the live lanes' weights and the registers as they stand, and waits for the commit,
and one of a warp without writes false (R344, R438, R440 to R444, R448, R450, R451). That its release takes a pending FABRIC is the
model's reading (log 49). -/
def Obligations.PopulationOperations : Prop :=
  ∀ (f : FmtA) (s : State) (g : Agent),
    let n := (f.sub.extractLsb' 0 4).toNat
    let mode := f.sub.getLsbD 4
    let k := (ckey g.part g.ctx, n)
    let o := popAt s k
    let ls := lanes g f.c
    let mine := regLanes o s.cur
    let w := sget g f.oa.toNat
    (Ready s (.pinit f) g → uniformOk s.cur g f.c = true →
      exec (.pinit f) s = .next (
        if pinitBad w o then trapped s g .bounds w
        else if w.extractLsb' 0 20 = 0 then issued { s with pop := del s.pop k } g
        else issued (setPop s k { o with v := true, gen := if o.v then o.gen else 0, cap := (w.extractLsb' 0 20).toNat,
                                         target := (w.extractLsb' 20 20).toNat, seed := sget g (f.oa.toNat + 1) }) g)) ∧
    (Ready s (.pjoin f) g →
      let taken := ls.filter (fun l => s.pop.any (fun e => (regLanes e.2 s.cur).contains l))
      exec (.pjoin f) s = .next (
        if ls = [] then issued s g
        else if o.v = false then trapped s g .bounds (BitVec.ofNat 64 n)
        else if taken ≠ [] then trapped s g .bounds (maskOf 64 taken)
        else if o.cap < o.slots.length + ls.length then trapped s g .bounds (BitVec.ofNat 64 o.cap)
        else issued (setPop s k { o with slots := o.slots ++ ls.map (fun l => (slotid s.cur g l, s.cur, l, !mode)) })
          { g with lin := msetAll g.lin (ls.map (fun l => (l, linWord o.gen mode false n (slotid s.cur g l)))) })) ∧
    (Ready s (.pleave f) g →
      exec (.pleave f) s = .next (
        if ls = [] then issued s g
        else if o.v = false then trapped s g .bounds (BitVec.ofNat 64 n)
        else issued (setPop s k { o with slots := o.slots.filter (fun e => !(e.2.1 = s.cur && ls.contains e.2.2.1)) }) g)) ∧
    (Ready s (.pstat f) g → uniformOk s.cur g f.c = true →
      let w0 := if o.v then o.gen.toNat * 2 ^ 32 + nlive o * 2 ^ 12 + 1 else 0
      let w1 := if o.v then o.cap * 2 ^ 40 + o.target * 2 ^ 20 + o.slots.length else 0
      let h := sset (sset g f.oa.toNat (BitVec.ofNat 64 w0)) (f.oa.toNat + 1) (BitVec.ofNat 64 w1)
      exec (.pstat f) s = .next (issued s (if mode then writePred h f.ob.toNat ls (fun l => (liveLanes o s.cur).contains l) else h))) ∧
    (Ready s (.plin f) g → exec (.plin f) s = .next (issued s (writePairs g f.oa.toNat ls (fun l => mget g.lin l)))) ∧
    (Ready s (.resample f) g →
      let off := (sget g f.ob.toNat).extractLsb' 0 32
      let h := settleAll g
      (o.v = false → exec (.resample f) s = .next (trapped s g .bounds (BitVec.ofNat 64 n))) ∧
      (∀ r, o.v = true → windowReg g = some r → exec (.resample f) s = .next (trapped s g .illdep (BitVec.ofNat 64 r))) ∧
      (o.v = true → windowReg g = none →
        let out := mine.filter (fun l => !ls.contains l)
        (out ≠ [] → exec (.resample f) s = .next (trapped s g .popdiv (maskOf 64 out))) ∧
        (out = [] → mode = false → offOk off = false → exec (.resample f) s = .next (trapped s g .bounds (sget g f.ob.toNat))) ∧
        (out = [] → (mode = true ∨ offOk off = true) →
          (mine = [] → exec (.resample f) s = .next (issued s (writePred g f.oc.toNat ls (fun _ => false)))) ∧
          (∀ e, mine ≠ [] → g.arrived = false → quiet g = true → h.poison = none → g.fabErr = some e →
            exec (.resample f) s = .next (trapped s h .fabric e)) ∧
          (mine ≠ [] → g.arrived = false → quiet g = true → h.poison = none → g.fabErr = none → relWait s s.cur h 4 = true →
            exec (.resample f) s = .next (parked s g)) ∧
          (mine ≠ [] → g.arrived = false → quiet g = true → h.poison = none → g.fabErr = none → relWait s s.cur h 4 = false →
            let r : Arrival := { agent := s.cur, draw := mode, off, pdst := f.oc.toNat, parts := maskOf 32 ls, v := h.v, p := h.p,
                                 weights := (liveLanes o s.cur).map (fun l => (slotid s.cur h l, vget h f.oa.toNat l)) }
            exec (.resample f) s = .next (parked (progress (setPop s k { o with arrivals := o.arrivals ++ [r] })) { h with arrived := true })) ∧
          (mine ≠ [] → (g.arrived = true ∨ quiet g = false) → exec (.resample f) s = .next (parked s g)))))

/-- The commit gives the object its next generation and takes its arrivals; the same lanes hold its slots, and each slot's LIN tells the
generation, whether it is vacant, and its parent or itself. Once the parents' safe-point tables have been read and the register logs have
room, each clone has the carried V registers of its parent as they stood at the parent's arrival, each arrival's lanes have their
predicate, true where live, and the warps go on; until then no arrival completes (R135, R253, R445, R447 to R449). That the copies wait
for a table that has to be read is the model's choice (log 10). Systematic resampling: the counts add up to the target, which the live
slots then number, and each lies less than one from its share, for every offset (R446). -/
def Obligations.CommitsResampleSystematically : Prop :=
  (∀ (part ctx pop : Nat) (s : State),
    let k := (ckey part ctx, pop)
    let o := popAt s k
    popReady o = true → o.target ≤ o.slots.length →
    (o.slots.map Prod.fst).Nodup → (o.slots.map (fun e => (e.2.1, e.2.2.1))).Nodup → (∀ e ∈ o.slots, e.2.2.1 < 32) →
    (o.arrivals.map Arrival.agent).Nodup → (∀ r ∈ o.arrivals, r.pdst < 7) →
    (∀ e ∈ s.agents, mwf e.2.v = true ∧ mwf e.2.p = true ∧ mwf e.2.lin = true) →
    ∃ t c, exec (.resampleCommit part ctx pop) s = .next t ∧ (popAt (commitPop s k o) k).copy = some c ∧
      let o' := popAt t k
      let s1 := progress (commitPop s k o)
      let done := (copyPop s1 k c).2
      let parents := ((c.clones.filterMap (fun p => slotAgent c.slots p.1)).map Prod.fst).eraseDups
      o'.gen = o.gen + 1 ∧ o'.arrivals = [] ∧ o'.target = o.target ∧ o'.cap = o.cap ∧ o'.seed = o.seed ∧
      o'.slots.map (fun e => (e.1, e.2.1, e.2.2.1)) = (sortSlots o.slots).map (fun e => (e.1, e.2.1, e.2.2.1)) ∧
      nlive o' = (if nlive o = 0 then 0 else o.target) ∧ c.slots = o'.slots ∧ c.arrivals = o.arrivals ∧
      (o'.copy = if done then none else some c) ∧
      (∀ e ∈ o'.slots, ∀ h, agent s e.2.1 = some h → ∃ h', agent t e.2.1 = some h' ∧
        let parent := (c.clones.find? (fun p => p.2 = e.1)).map Prod.fst
        mget h'.lin e.2.2.1 = linWord (o.gen + 1) (!e.2.2.2) parent.isSome pop (parent.getD e.1)) ∧
      (done = true → ∀ r ∈ o.arrivals, ∀ h, agent s r.agent = some h → ∃ h', agent t r.agent = some h' ∧ h'.arrived = false ∧
        ∀ l < 32, r.parts.getLsbD l = true →
          pget h' r.pdst l = o'.slots.any (fun e => e.2.1 = r.agent && e.2.2.1 = l && e.2.2.2)) ∧
      (done = false → ∀ a h, agent s a = some h → ∃ h', agent t a = some h' ∧ h'.arrived = h.arrived ∧ h'.v = h.v ∧ h'.p = h.p) ∧
      (done = true → ∀ cms, (carries parents s1).2 = some cms → ∀ p ∈ c.clones, ∀ am lm ad ld,
        slotAgent c.slots p.1 = some (am, lm) → slotAgent c.slots p.2 = some (ad, ld) →
        ∀ r gm gd h, o.arrivals.find? (fun r => r.agent = am) = some r → agent s am = some gm → agent s ad = some gd → agent t ad = some h →
          ∀ n < min gm.alloc gd.alloc, ((lkp cms am).getD none).all (fun x => x.vlive.getLsbD n) = true →
            vget h n ld = mget r.v (n * 32 + lm))) ∧
  (∀ (n u : Nat) (xs : List Nat), xs ≠ [] →
    let ys := if xs.foldl (· + ·) 0 = 0 then xs.map (fun _ => 1) else xs
    let w := ys.foldl (· + ·) 0
    (offspring n u xs).foldl (· + ·) 0 = n ∧ (offspring n u xs).length = xs.length ∧
    ∀ i (h : i < (offspring n u xs).length) (h' : i < ys.length),
      (offspring n u xs)[i] * w < n * ys[i] + w ∧ n * ys[i] < (offspring n u xs)[i] * w + w)

/-! ## The notice store (28). -/

/-- NOTICE sends a notice and, once it is injected, writes its ticket, or one of tick 0 where it cannot be sent; OBJECT sends an
objection ahead of other flits and traps LATEOBJ after the close; NAWAIT waits for an outcome, NSTAT reads it and the counters,
NREAD the next pending notice in precedence order, NFILTER sets a block's filter, NWIN the window (R461, R466 to R473). -/
def Obligations.NoticeOperations : Prop :=
  ∀ (f : FmtA) (s : State) (g : Agent), uniformOk s.cur g f.c = true →
    let d := sget g f.oa.toNat
    let x := sget g f.ob.toNat
    let key := ckey g.part g.ctx
    (Ready s (.nwin f) g → exec (.nwin f) s = .next (issued s { g with nwin := f.sub.setWidth 8 })) ∧
    (Ready s (.notice f) g →
      let grp := groupOf s key (d.extractLsb' 0 8).toNat
      ((d.extractLsb' 17 15 ≠ 0 ∨ grp = none) → exec (.notice f) s = .next (trapped s g .bounds d)) ∧
      (∀ gr, d.extractLsb' 17 15 = 0 → grp = some gr →
        (agentRank s gr g = none → exec (.notice f) s = .next (trapped s g .perm d)) ∧
        (∀ rank, agentRank s gr g = some rank →
          let done (t : Nat) : State := issued s { sset g f.oc.toNat (ticketWord (d.extractLsb' 0 8).toNat rank t) with mpSt := .none, chkptAt := none }
          (∀ t, g.mpSt = .injected t → exec (.notice f) s = .next (done t)) ∧
          (g.mpSt = .unreachable → exec (.notice f) s = .next (done 0)) ∧
          (g.mpSt = .none → g.fabErr = none → postedBy s gr rank < 16 → groupExport s gr g.part g.fn = false → relWait s s.cur g 5 = false →
            mpFull s = false →
            let fl := mkFlit s g.part (fnGen s g.fn) (groupDest gr) 1
              (noticePayload (sget g (f.oa.toNat + 1)) (d.extractLsb' 32 32) gr.gid.toNat g.nwin.toNat rank (d.extractLsb' 8 9).toNat)
            exec (.notice f) s = .next (parked (progress (mpEnqueue s ⟨fl, some s.cur⟩)) { g with mpSt := .queued }))))) ∧
    (∀ gr, groupOf s key (d.extractLsb' 56 8).toNat = some gr →
      let note := ticketNotice gr d
      (Ready s (.object f) g →
        (agentRank s gr g = none → exec (.object f) s = .next (trapped s g .perm d)) ∧
        (∀ rank, agentRank s gr g = some rank →
          (∀ t, g.mpSt = .injected t → exec (.object f) s = .next (issued s { g with mpSt := .none, chkptAt := none })) ∧
          (g.mpSt = .late → exec (.object f) s = .next (trapped s { g with mpSt := .none, chkptAt := none } .lateobj d)) ∧
          (g.mpSt = .none → note = none → exec (.object f) s = .next (trapped s g .bounds d)) ∧
          (∀ n, g.mpSt = .none → note = some n → closeOf n ≤ podTick s → exec (.object f) s = .next (trapped s g .lateobj d)) ∧
          (∀ n, g.mpSt = .none → note = some n → podTick s < closeOf n → groupExport s gr g.part g.fn = false → mpFull s = false →
            let fl := mkFlit s g.part (fnGen s g.fn) (groupDest gr) 2 (objPayload n.itick gr.gid.toNat n.rank rank)
            exec (.object f) s = .next (parked (progress (mpEnqueue s ⟨fl, some s.cur⟩)) { g with mpSt := .queued })))) ∧
      (Ready s (.nawait f) g →
        exec (.nawait f) s = .next (
          if note.any (fun n => n.out = 1 || (n.out = 5 && podTick s < effectOf n + 4)) then parked s g
          else issued s { sset g f.oc.toNat (resultWord note) with
            acqHold := if note.any (fun n => n.out = 2) then memOut g else g.acqHold })) ∧
      (Ready s (.nstat f) g → exec (.nstat f) s = .next (issued s (sset g f.oc.toNat (resultWord note)))) ∧
      (Ready s (.nstatCnt f) g →
        exec (.nstatCnt f) s = .next (issued s (sset g f.oc.toNat (gr.flate ++ gr.disc ++ gr.appl)))) ∧
      (Ready s (.nread f) g →
        let t := wideTick s (d.extractLsb' 0 48).toNat
        let r := (d.extractLsb' 48 6).toNat
        let cand := gr.notices.filter (fun n => n.out = 1 && n.seen &&
          (d.extractLsb' 0 48 = 0 || t < n.itick || (t = n.itick && r < n.rank)))
        let put (v : Nat → W64) : Agent := sset (sset (sset (sset g f.oc.toNat (v 0)) (f.oc.toNat + 1) (v 1)) (f.oc.toNat + 2) (v 2)) (f.oc.toNat + 3) (v 3)
        (cand = [] → exec (.nread f) s = .next (issued s (put (fun _ => 0)))) ∧
        (cand ≠ [] → ∃ n ∈ cand, (∀ m ∈ cand, precedes m n = false) ∧
          exec (.nread f) s = .next (issued s (put (fun i => match i with
            | 0 => ticketWord gr.handle n.rank n.itick
            | 1 => n.key ++ BitVec.ofNat 32 (n.word * 256 + gr.handle)
            | 2 => n.value
            | _ => BitVec.ofNat 64 (closeOf n - 1))))))) ∧
    (Ready s (.nfilter f) g →
      let slot := (x.extractLsb' 0 3).toNat
      let mode := (x.extractLsb' 4 2).toNat
      let bad := x.extractLsb' 6 50 ≠ 0 ∨ x.getLsbD 3 = true ∨ mode = 3
      let grp := groupOf s key (x.extractLsb' 56 8).toNat
      ((bad ∨ grp = none) → exec (.nfilter f) s = .next (trapped s g .bounds x)) ∧
      (∀ gr, ¬bad → grp = some gr → agentRank s gr g = none → exec (.nfilter f) s = .next (trapped s g .perm x)) ∧
      (∀ gr rank k, ¬bad → grp = some gr → agentRank s gr g = some rank → block s g.blk = some k →
        let rest := k.filters.filter (fun e => e.1 ≠ slot)
        exec (.nfilter f) s = .next (issued (setBlock s g.blk { k with
          filters := if mode = 0 then rest else rest ++ [(slot, (x.extractLsb' 56 8).toNat, d, x)] }) g)))

/-! ## The network engine (04, 21). -/

namespace Sys2Proof.Machine

/-- The posting operations by OP of Table 4-3; XATOM is FETCH_ADD or, with its modifier, CMP_SWAP. -/
def postOps (f : FmtA) : List (Instr × Nat) :=
  [(.xwrite f, 1), (.xread f, 2), (.xsend f, 3), (.xatom f, if f.sub.getLsbD 1 then 5 else 4), (.xflush f, 6)]
/-- The checks on a post's operands that trap (R387), in order. -/
def postTrap (s : State) (g : Agent) (op : Nat) (q la ra : W64) (len : Nat) : Option (Cause × W64) :=
  match qpAt s (q.extractLsb' 0 12).toNat with
  | none => some (.perm, q)
  | some p =>
    if q.extractLsb' 12 52 ≠ 0 ∨ p.ctx ≠ ckey g.part g.ctx ∨ (p.st ≠ .rts ∧ p.st ≠ .error) then some (.perm, q)
    else if 0x100000 < len ∨ ((op = 4 ∨ op = 5) ∧ len ≠ 8) then some (.bounds, BitVec.ofNat 64 len)
    else if (op = 4 ∨ op = 5) ∧ la.extractLsb' 0 3 ≠ 0 then some (.align, la)
    else if (op = 4 ∨ op = 5) ∧ ra.extractLsb' 0 3 ≠ 0 then some (.align, ra)
    else none
/-- The local pages a post reads or writes. -/
def postSegs (op : Nat) (la : W64) (len : Nat) : List Seg := if op = 6 ∨ len = 0 then [] else [⟨0, op = 2 || op = 4 || op = 5, la.toNat, len⟩]

end Sys2Proof.Machine

/-- A posting operation traps by its checks, and otherwise, its local pages pinned, counts in OUTC and appends its entry to the queue
pair, or in Error completes FLUSHED at once; a full queue makes it wait. XPOLL waits like a load, and leaves the 32 bytes of a completion
entry pending, the last three words zero where PHASE differs (R332, R340, R387, R388, R100). Which of these operations take a pending FABRIC is the model's reading (log 49). -/
def Obligations.NetworkPostsAndPolls : Prop :=
  ∀ (f : FmtA) (s : State) (g : Agent), uniformOk s.cur g f.c = true →
    let r (i : Nat) : W64 := sget g (f.oa.toNat + i)
    let q := sget g f.ob.toNat
    let len := ((r 2).extractLsb' 0 32).toNat
    (∀ p ∈ postOps f, Ready s p.1 g →
      let atom := p.2 = 4 ∨ p.2 = 5
      (∀ c v, postTrap s g p.2 q (r 0) (r 1) len = some (c, v) → exec p.1 s = .next (trapped s g c v)) ∧
      (∀ cx pins qp, postTrap s g p.2 q (r 0) (r 1) len = none → ctxOf s g.part g.ctx = some cx →
        pinAll (.agent s.cur) cx g.die 4096 (postSegs p.2 (r 0) len) 4096 (setAgent s s.cur g) [] = (setAgent s s.cur g, pins, .done) →
        qpAt s (q.extractLsb' 0 12).toNat = some qp →
        let off := pins.any (fun x => x.loc ≠ .dev s.mod.poddev)
        let busy := qp.sqDepth ≤ qp.sq.length ∨ 1023 ≤ outcGet g 5 ∨ relWait s s.cur g (if off then 5 else 4) = true
        (busy → exec p.1 s = .next (parked s g)) ∧
        (¬busy →
          let w : NetWq := { op := p.2, fence := f.sub.getLsbD 0, compl := complOf f, laddr := r 0, raddr := r 1, len := len,
                             rkey := (r 2).extractLsb' 32 32, opa := if atom then sget g f.oc.toNat else 0,
                             opb := if atom then sget g (f.oc.toNat + 1) else 0, wrid := r 3, gen := g.gen, owner := s.cur, blk := g.blk,
                             launch := g.launch, opId := s.opSeq, pins, tick := podTick s }
          let s1 := setAgent { s with opSeq := s.opSeq + 1 } s.cur (counted s g f 5)
          let s2 := if timeShared s g.part then postExport s1 g.part else s1
          exec p.1 s = .next (moved (if qp.st = .error then netComplete s2 qp w 0 7
            else modQp s2 qp.qpn (fun p => { p with sq := p.sq ++ [w] })))))) ∧
    (Ready s (.xpoll f) g →
      (q.extractLsb' 0 5 ≠ 0 → exec (.xpoll f) s = .next (trapped s g .align q)) ∧
      (q.extractLsb' 0 5 = 0 → (acqWait g = true ∨ ioFind s (.agent s.cur) 0 = none ∧ overlaps s s.cur g (vaBlocks q.toNat 32) = true) →
        exec (.xpoll f) s = .next (parked s g)) ∧
      (∀ cx pa, q.extractLsb' 0 5 = 0 → acqWait g = false → overlaps s s.cur g (vaBlocks q.toNat 32) = false →
        homeOf s cx q.toNat ≠ .at_ (.host s.mod.poddev) → ctxOf s g.part g.ctx = some cx → ioFind s (.agent s.cur) 0 = none →
        hbmAt s cx (cacheOf s.cur) q.toNat .rd = some pa → poisoned s false pa 32 = false →
        let w (k : Nat) : W64 := BitVec.ofNat 64 (readNum s.mem.hbm (pa + 8 * k) 8)
        let hit := (w 0).getLsbD 0 = (sget g f.oc.toNat).getLsbD 0
        let vals := (List.range 4).map (fun k => (f.oa.toNat + k, if k = 0 ∨ hit then w k else 0))
        exec (.xpoll f) s = .next (issued
          { s with opSeq := s.opSeq + 2, sched := { s.sched with ios := s.sched.ios.filter (fun i => i.who ≠ .agent s.cur) } }
          (addPend g (s.opSeq + 1) f.c.la.toNat 0 (rcs 1 f.oa.toNat 4) ⟨[], vals, 0, none⟩))))

/-! ## Events of agents (11, 21, 07, 06). -/

namespace Sys2Proof.Machine

/-- n words of code from va, every page of them at hand in the agent's cache, executable, in this device's HBM (R227). -/
def codeAt (s : State) (cx : Ctx) (a : AgentId) : Nat → W64 → Option (List W64)
  | 0, _ => some []
  | n + 1, va => match hbmFor (.agent a) s cx (cacheOf a) va.toNat .fetch, codeAt s cx a n (va + 8) with
    | some pa, some ws => some (BitVec.ofNat 64 (readNum s.mem.hbm pa 8) :: ws)
    | _, _ => none
/-- A clause header legal for a warp or a stream (R227, Table 8-7). -/
def HeaderLegal (h : Hdr) (stream : Bool) : Prop :=
  h.cwait.toNat ≤ 5 ∧ (h.cwait = 0 → h.thr = 0) ∧
  if stream then (h.cls = 0 ∨ h.cls = 5 ∨ h.cls = 6 ∨ h.cls = 9) ∧ h.cwait = 0 else h.cls.toNat ≤ 9 ∧ h.cls ≠ 6
/-- A word legal at place i of a clause: its class is 0 or the clause's, a word that may continue elsewhere is the last, and its window
ends with the clause (R228). -/
def WordLegal (cx : Ctx) (h : Hdr) (i : Nat) (w : W64) : Prop :=
  ∀ op, mapOpcode (some cx) (w.extractLsb' 0 10).toNat = some op →
    (classOf op = 0 ∨ classOf op = h.cls.toNat) ∧
    ((0x030 ≤ op ∧ op ≤ 0x035 ∨ op = 0x042 ∨ 0x2A0 ≤ op ∧ op ≤ 0x2A2) → i = h.count.toNat) ∧
    (w.extractLsb' 10 4).toNat + i ≤ h.count.toNat
/-- The stream or warp is resident and runs, holds no clause and no trap, and its context exists. -/
def Fetching (s : State) (a : AgentId) (g : Agent) (cx : Ctx) : Prop :=
  agent s a = some g ∧ g.trapPend = none ∧ g.waited = false ∧ g.ended = false ∧ g.haltForm = .no ∧ g.clause = none ∧ ctxOf s g.part g.ctx = some cx
/-- An agent asked to halt that runs still. -/
def Halting (s : State) (a : AgentId) (g : Agent) : Prop :=
  agent s a = some g ∧ g.haltReq.isSome = true ∧ g.haltForm = .no ∧ g.ended = false

end Sys2Proof.Machine

/-- CLAUSE_FETCH fetches a clause whole, checks header and words, and takes its waits: CWAIT, which is not made again once it is over, then
DRAIN; a header or word that fails
raises ILLCLAUSE at the header, TVAL the address of the first failing word. A word whose page cannot be fetched raises its cause at the
header before any check, TVAL its address (R227 to R229).
That the two waits belong to an entry at the first word is the model's reading (log 17). -/
def Sys2Proof.Machine.ClausesAreFetchedWhole : Prop :=
  (∀ (a : AgentId) (s : State) (g : Agent) (cx : Ctx) (j : Nat) (pre : List W64) (f : XFault), Fetching s a g cx →
    codeAt s cx a j g.pc = some pre → (∀ w ∈ pre.head?, j ≤ (w.extractLsb' 0 4).toNat + 1) →
    let va := g.pc + BitVec.ofNat 64 (8 * j)
    farOk va.toNat = true → faultAt s (.agent a) (ctxKey cx) va.toNat .fetch = some f →
    exec (.clauseFetch a) s = .next (progress (raiseHdr (takeFault s (.agent a) (ctxKey cx) va.toNat) a g f.code va))) ∧
  ∀ (a : AgentId) (s : State) (g : Agent) (cx : Ctx) (w : W64) (ws : List W64), Fetching s a g cx →
    codeAt s cx a 1 g.pc = some [w] → codeAt s cx a ((w.extractLsb' 0 4).toNat + 1) (g.pc + 8) = some ws →
    (parseHdr w = none → exec (.clauseFetch a) s = .next (progress (raiseHdr s a g Cause.illclause.code g.pc))) ∧
    (∀ h, parseHdr w = some h →
      (¬HeaderLegal h (isStream a) → exec (.clauseFetch a) s = .next (progress (raiseHdr s a g Cause.illclause.code g.pc))) ∧
      (HeaderLegal h (isStream a) →
        let held := { g with clause := some ⟨h, ws⟩, resumed := false }
        let counted := { held with clause := some ⟨{ h with cwait := 0 }, ws⟩ }
        let began (x : Agent) : State := progress (setAgent s a { settle x with waited := true })
        (∀ i x, ws[i]? = some x → ¬WordLegal cx h i x → (∀ j y, j < i → ws[j]? = some y → WordLegal cx h j y) →
          exec (.clauseFetch a) s = .next (progress (raiseHdr s a g Cause.illclause.code (g.pc + BitVec.ofNat 64 (8 * (i + 1)))))) ∧
        ((∀ i x, ws[i]? = some x → WordLegal cx h i x) →
          let cls := h.cwait.toNat
          let count := g.outc.extractLsb' (10 * cls - 10) 10
          let out := g.pend.any (fun p => p.left ≠ 0)
          (g.idx ≠ 0 → exec (.clauseFetch a) s = .next (progress (setAgent s a { held with waited := true }))) ∧
          (g.idx = 0 → cls = 0 → exec (.clauseFetch a) s = .next (if h.drain && out then park (setAgent s a held) a else began held)) ∧
          (∀ e, g.idx = 0 → cls ≠ 0 → g.fabErr = some e → exec (.clauseFetch a) s = .next (progress (raiseHdr s a held Cause.fabric.code e))) ∧
          (g.idx = 0 → cls ≠ 0 → g.fabErr = none → exec (.clauseFetch a) s = .next (
            if h.thr.toNat < count.toNat then park (setAgent s a held) a
            else if h.drain && out then park (setAgent s a counted) a else began counted)))))

/-- RESULT_WRITEBACK writes a result that has come, with its flags, and ends its pending mark; TRAP_ENTRY enters the handler, or ends the
agent where there is none; WARP_PROMOTION marks a warp not chosen for 2,048 cycles; JOIN_POLL lets a waiting JOIN whose read has come read
its counter again;
WARP_HALT halts at a safe point with its live registers, or at the next boundary with all (R132, R166, R244, R253, R296, R378).
That a stream halts at its next boundary is the model's reading (log 28). -/
def Sys2Proof.Machine.AgentEventsAct : Prop :=
  (∀ (a : AgentId) (s : State) (g : Agent) (p : Pend), agent s a = some g → p ∈ g.pend → p.win = 0 → p.left = 0 →
    (∀ x ∈ g.pend, x.id = p.id → x = p) →
    let poison := match g.poison with
      | some x => some x
      | none => p.res.poison.map Prod.snd
    exec (.resultWriteback a p.id) s = .next (progress (setAgent s a { g with
      pend := g.pend.filter (fun x => x.id ≠ p.id), v := msetAll g.v p.res.v, s := msetAll g.s p.res.s,
      fmt := orFlags g.fmt p.res.flags, poison := poison }))) ∧
  (∀ (a : AgentId) (s : State) (g : Agent) (c : Nat) (v : W64) (code : Nat), agent s a = some g → g.trapPend = some (c, v, code) →
    (∀ p ∈ g.pend, p.left = 0) → g.tprio = false →
    let hdr := 0x10000 ≤ code
    (g.tvec ≠ 0 → Yields (exec (.trapEntry a) s) (fun t => ∃ h, agent t a = some h ∧ h.pc = g.tvec ∧ h.clause = none ∧ h.idx = 0 ∧ h.tprio = true ∧
      h.tcause = BitVec.ofNat 64 ((if hdr then 0 else code) * 65536 + c) ∧ h.tval = v ∧ h.tpcx = (if hdr then g.pc else curAddr g) ∧
      h.posHdr = g.pc ∧ h.posIdx = (if hdr then none else some g.idx) ∧ h.trapPend = none ∧ h.pend = [] ∧ h.depthAt = g.recs.length ∧
      h.written = false ∧ t.mem = s.mem ∧ t.blocks = (leaveSidings s a).blocks)) ∧
    (g.tvec = 0 → Yields (exec (.trapEntry a) s) (fun t => ∃ r, t.sched.faults = s.sched.faults ++ [r] ∧ r.cause = c ∧ r.inner = 0 ∧ r.tval = v ∧
      r.tpcx = (if hdr then g.pc else curAddr g) ∧ r.ctx = g.ctx ∧ r.fn = g.fn ∧ r.die = g.die ∧ r.slot = slotOf a ∧
      ∀ l ∈ s.sched.launches, l.id = g.launch → l.failed = none → ∃ m ∈ t.sched.launches, m.id = l.id ∧
        m.failed = some (0x80000000 + slotOf a * 256 + c)))) ∧
  (∀ (c : CoreId) (n : Nat) (s : State) (g : Agent), agent s (.warp c n) = some g → g.promo = false → g.haltForm = .no → g.ended = false →
    s.waiting.contains (.warp c n) = false →
    exec (.warpPromotion (.warp c n)) s = .next (if g.tried + 2048 ≤ s.fab.cycles then setAgent s (.warp c n) { g with promo := true }
      else setAgent s (.warp c n) g)) ∧
  (∀ (a : AgentId) (s : State) (g : Agent), agent s a = some g → g.joinAt.isSome = true →
    let s1 := setAgent s a { g with joinAt := some s.fab.podNs }
    exec (.joinPoll a) s = .next (if joinRead s a
      then progress { s1 with sched := { s.sched with ios := s.sched.ios.filter (fun i => i.who ≠ .agent a) } } else s)) ∧
  (∀ (a : AgentId) (s : State) (g : Agent), Halting s a g →
    (∀ l, safeHere s a g = some l → Yields (exec (.warpHalt a) s) (fun t => ∃ h, agent t a = some h ∧ h.haltForm = .safe ∧
      h.pc = g.pc ∧ h.mx.running = false ∧
      (∀ r k, (g.pend.any (fun p => p.dst.any (fun x => x.file = 0 && x.num = r))) = false → k < 32 →
        vget h r k = if l.vlive.getLsbD r then vget g r k else 0) ∧
      (∀ r, (g.pend.any (fun p => p.dst.any (fun x => x.file = 1 && x.num = r))) = false →
        sget h r = if l.slive.getLsbD r then sget g r else 0))) ∧
    (safeHere s a g = none → haltDue s a g = true → Yields (exec (.warpHalt a) s) (fun t => ∃ h, agent t a = some h ∧ h.haltForm = .boundary ∧
      h.pc = g.pc ∧ h.v = g.v ∧ h.s = g.s ∧ h.p = g.p ∧ h.mx.running = false ∧ (g.waited = true → h.clause = g.clause ∧ h.idx = g.idx))))

/-- The events of one warp or stream: clause fetch, results, trap entry, promotion, JOIN polls and halts, as the two statements above say. -/
def Obligations.AgentEvents : Prop := ClausesAreFetchedWhole ∧ AgentEventsAct

/-! ## Events of the scheduler (07). -/

namespace Sys2Proof.Machine

/-- The head packet of a work queue that may act: the ring, its request, the packet's header word and body. -/
def PacketAt (s : State) (fn q : Nat) (r : Ring) (x : WqReq) (h : W64) (b : List W64) : Prop :=
  ringAt s fn q = some r ∧ ringReady s r = true ∧ ringBad s r = none ∧ headReq r = some x ∧ headPkt r = some (h, b)
/-- The function reads its queues, and its used elements are no held exports. -/
def Reads (s : State) (fn : Nat) : Prop :=
  ∃ f, func s fn = some f ∧ f.reading = true ∧ (fn = 0 ∨ timeShared s f.part.toNat = false)
/-- The request of a ring is answered: its used element is the one new element (Table 5-8). -/
def Answered (s t : State) (r : Ring) (status done detail : Nat) : Prop :=
  ∃ x, headReq r = some x ∧ t.host.used = s.host.used ++ [⟨r.fn, r.q + 2, x.hdr.cookie, status, done, detail, [], if x.bad then 0 else 16⟩]
/-- The packet in progress or at the head of a ring has finished: the next packet of the request stands at the head, or, after its last
packet, the request is answered with status 0 and DONE its packet count (R110, R141). -/
def PacketDone (s t : State) (r : Ring) : Prop :=
  ∃ x h b, headReq r = some x ∧ headPkt r = some (h, b) ∧
    (r.pkt + 1 < x.hdr.count.toNat →
      ringAt t r.fn r.q = some { r with pkt := r.pkt + 1, off := r.off + (h.extractLsb' 16 16).toNat, busy := false, since := s.fab.podNs, count := 0 } ∧
      t.host.used = s.host.used) ∧
    (x.hdr.count.toNat ≤ r.pkt + 1 → Reads s r.fn → Answered s t r 0 x.hdr.count.toNat 0)
/-- No access of the queue is kept, so that its packet begins. -/
def NoIo (s : State) (who : IoWho) : Prop := ∀ i ∈ s.sched.ios, i.who ≠ who
/-- A warp or stream starts as Table 7-8 gives: at its code, S0 its frame and S1 its join word, everything else as dispatched. -/
def StartsAt (h : Agent) (code frame join : W64) (launch : Nat) : Prop :=
  h.pc = code ∧ sget h 0 = frame ∧ sget h 1 = join ∧ h.launch = launch ∧ h.v = [] ∧ h.p = [] ∧ h.exm = BitVec.allOnes 32 ∧ h.fmt = 0x10 ∧
  h.tvec = 0 ∧ h.tprio = false ∧ h.pend = [] ∧ h.outc = 0 ∧ h.recs = [] ∧ h.clause = none ∧ h.haltForm = .no

end Sys2Proof.Machine

/-- TEAM_DISPATCH makes the next team resident, or every team of a GANG launch together: its blocks on the cores the map gives, its warps
and stream at their code; CONTINUATION_POP makes a record resident in the same way, or discards one of an older generation;
QUEUE_RESERVATION reserves for the oldest record after 20 µs (R152, R153, R155, R156).
Which launch comes first on a core is the model's reading (log 48). -/
def Sys2Proof.Machine.RecordsBecomeResident : Prop :=
  (∀ (id : Nat) (s : State) (l : Launch), s.sched.launches.find? (fun x => x.id = id) = some l → canDispatch s l = true →
    (l.gang = true → Yields (exec (.teamDispatch id) s) (fun t => (t.sched.launches.find? (fun x => x.id = id)).map Launch.next = some l.teams)) ∧
    (l.gang = false → Yields (exec (.teamDispatch id) s) (fun t => ∃ new tm,
      let entry (i : Nat) : W64 := l.map.getD (l.next * (l.bpt + 1) + i) 0
      t.blocks = s.blocks ++ new ∧ new.length = l.bpt + 1 ∧
      (∀ i e, new[i]? = some e → e.2.core = mapCore (entry i) ∧ e.2.launch = l.id ∧ e.2.ctx = l.ctx ∧ e.2.part = l.part ∧ e.2.blockNo = i ∧
        e.2.team = tm.id ∧ e.2.warps = l.wpb + 1 ∧ e.2.regs = l.regs ∧ e.2.shmem = l.shmem ∧ e.2.mem = [] ∧ e.2.wps = [] ∧ e.2.sids = []) ∧
      t.sched.teams = s.sched.teams ++ [tm] ∧ tm.launch = l.id ∧ tm.gteam = l.rank * l.teams + l.next ∧ tm.blocks = new.map Prod.fst ∧
      tm.stream.isSome = decide (l.tcode ≠ 0) ∧
      (t.sched.launches.find? (fun x => x.id = id)).map Launch.next = some (l.next + 1) ∧
      ∀ a h, agent t a = some h → agent s a = some h ∨
        (h.team = tm.id ∧ StartsAt h (if isStream a then l.tcode else l.code) l.frame l.joinp l.id ∧
          (isStream a = false → h.live = BitVec.allOnes 32 ∧ h.alloc = 32 + 16 * l.regs))))) ∧
  (∀ (site : PopSite) (s : State) (c : Cont), popChoice s site = some c →
    (genCmp c.gen.toNat (fnGen s c.fn).toNat ≠ .current → Yields (exec (.continuationPop site) s) (fun t =>
      (∀ x ∈ t.sched.conts, x.id ≠ c.id) ∧ t.blocks = s.blocks ∧ t.agents = s.agents)) ∧
    (genCmp c.gen.toNat (fnGen s c.fn).toNat = .current → Yields (exec (.continuationPop site) s) (fun t =>
      (∀ x ∈ t.sched.conts, x.id ≠ c.id) ∧ (∀ r ∈ t.sched.resvs, r.2.2 ≠ c.id) ∧
      (∀ k, site = .core k → ∃ n b, t.blocks = s.blocks ++ [(n, b)] ∧ b.core = k ∧ b.launch = c.launch ∧ b.ctx = c.ctx ∧ b.part = c.part ∧
        b.warps = c.warps + 1 ∧ b.regs = c.regs ∧ b.shmem = c.shmem ∧ b.mem = [] ∧
        ∀ a h, agent t a = some h → agent s a = some h ∨ (h.blk = n ∧ StartsAt h c.code c.frame c.join c.launch ∧ h.live = BitVec.allOnes 32)) ∧
      (∀ d n, site = .ctl d n → ∃ a h, isStream a = true ∧ agent t a = some h ∧ h.die = d ∧ h.cluster = n ∧
        StartsAt h c.code c.frame c.join c.launch)))) ∧
  (∀ (part die prio : Nat) (s : State) (c : Cont) (r : List Cont),
    s.sched.conts.filter (fun x => x.part = part && x.die = die && x.prio = prio) = c :: r → c.born + 20000 ≤ s.fab.podNs →
    (part, die, c.id) ∉ s.sched.resvs →
    exec (.queueReservation part die prio) s = .next (progress { s with sched := { s.sched with resvs := s.sched.resvs ++ [(part, die, c.id)] } }))

/-- LAUNCH_PACKET checks its fields and its map, entry by entry, and begins the launch with the fields of Table 7-3, or is rejected with
the first failing entry; LAUNCH_FINISH ends a launch whose work is over: the packet finishes, or is rejected with status 9 where a warp
ended by fault (R141, R145, R147). -/
def Sys2Proof.Machine.LaunchesBeginAndFinish : Prop :=
  (∀ (fn q : Nat) (s : State) (r : Ring) (x : WqReq) (h : W64) (b : List W64) (cx : Ctx) (l : Launch) (m : List W64),
    PacketAt s fn q r x h b → h.extractLsb' 0 8 = 1 → reqCtx s fn x = some cx → launchDesc s cx h b = some l → NoIo s (.queue fn q) →
    m.length = l.teams * (l.bpt + 1) →
    (∀ i e, m[i]? = some e → ∃ pa, hbmFor (.queue fn q) s cx agentDie ((b.getD 3 0).toNat + 4 * i) .rd = some pa ∧ cleanNum s pa 4 = some e.toNat) →
    let l' := { l with map := m }
    ((∀ i, i < m.length → placeCheck s l' i = true) → l.joinp = 0 → Yields (exec (.launchPacket fn q) s) (fun t => ∃ n w,
      w = b.getD 5 0 ∧ t.sched.launches = s.sched.launches ++ [n] ∧ ringAt t fn q = some { r with busy := true } ∧
      n.fn = fn ∧ n.q = q ∧ n.node = none ∧ n.ctx = x.hdr.ctxid.toNat ∧ n.code = b.getD 0 0 ∧ n.tcode = b.getD 1 0 ∧ n.frame = b.getD 2 0 ∧
      n.map = m ∧ n.teams * n.nrank = (w.extractLsb' 48 16).toNat ∧ n.bpt = (w.extractLsb' 46 2).toNat ∧ n.wpb = (w.extractLsb' 42 4).toNat ∧
      n.regs = (w.extractLsb' 38 4).toNat ∧ n.shmem = (w.extractLsb' 29 9).toNat ∧ n.prio = (w.extractLsb' 27 2).toNat ∧ n.gang = w.getLsbD 26 ∧
      n.next = 0 ∧ n.failed = none ∧ n.liveRecs = n.teams * (n.bpt + 1) + (if n.tcode = 0 then 0 else n.teams))) ∧
    (∀ i, i < m.length → placeCheck s l' i = false → (∀ j, j < i → placeCheck s l' j = true) → Reads s fn →
      Yields (exec (.launchPacket fn q) s) (fun t => Answered s t r 6 r.pkt i ∧ t.sched.launches = s.sched.launches))) ∧
  (∀ (fn q : Nat) (s : State) (r : Ring) (x : WqReq) (p : W64 × List W64) (l : Launch), ringAt s fn q = some r → r.busy = true →
    headReq r = some x → headPkt r = some p →
    s.sched.launches.find? (fun l => l.fn = fn && l.q = q && l.node = none) = some l → launchDone s l = true →
    Yields (exec (.launchFinish fn q) s) (fun t => (∀ k ∈ t.sched.launches, k.id ≠ l.id) ∧
      (l.failed = none → PacketDone s t r) ∧ (∀ d, l.failed = some d → Reads s fn → Answered s t r 9 r.pkt d)))

/-- Dispatch, continuation queues, LAUNCH packets and their end, as the two statements above say. -/
def Obligations.RecordsAndLaunches : Prop := RecordsBecomeResident ∧ LaunchesBeginAndFinish

/-! ## Packets of the work queues (05, 07, 09). -/

namespace Sys2Proof.Machine

/-- n far words from va, each at hand in this device's HBM and clean, as the packet engines read them (R112). -/
def wordsAt (who : IoWho) (s : State) (cx : Ctx) : Nat → Nat → Option (List W64)
  | 0, _ => some []
  | n + 1, va => match (hbmFor who s cx agentDie va .rd).bind (fun pa => cleanNum s pa 8), wordsAt who s cx n (va + 8) with
    | some x, some ws => some (BitVec.ofNat 64 x :: ws)
    | _, _ => none
/-- The comparison of Table 7-2 at a width. -/
def fenceCmpAt {w : Nat} (cmp : BitVec 3) (x y : BitVec w) : Bool :=
  match cmp.toNat with
  | 0 => x == y
  | 1 => x != y
  | 2 => y.ule x
  | 3 => x.ult y
  | 4 => y.sle x
  | _ => x.slt y
/-- Whether every counter of a fence compares true, all of them at hand: none where some read would leave or wait. -/
def fenceHolds (who : IoWho) (s : State) (cx : Ctx) : List (W64 × W64 × W64) → Option Bool
  | [] => some true
  | (a, v, c) :: r =>
    let big := c.getLsbD 3
    match (hbmFor who s cx agentDie a.toNat .rd).bind (fun pa => cleanNum s pa (if big then 8 else 4)), fenceHolds who s cx r with
    | some x, some b =>
      some ((if big then fenceCmpAt (c.extractLsb' 0 3) (BitVec.ofNat 64 x) v
             else fenceCmpAt (c.extractLsb' 0 3) (BitVec.ofNat 32 x) (v.extractLsb' 0 32)) && b)
    | _, _ => none
/-- A fence entry as Table 7-2 lays it out. -/
def FenceEntry (e : W64 × W64 × W64) : Prop :=
  e.2.2.extractLsb' 4 60 = 0 ∧ e.2.2.extractLsb' 0 3 ≠ 6 ∧ e.2.2.extractLsb' 0 3 ≠ 7 ∧ (e.2.2.getLsbD 3 = false → e.2.1.extractLsb' 32 32 = 0) ∧
  e.1.toNat % (if e.2.2.getLsbD 3 then 8 else 4) = 0
def fenceOf (s : State) (fn q : Nat) : Option FencePk := s.sched.fences.find? (fun f => f.fn = fn && f.q = q)
/-- The successors of a graph node that receive an arrival, and the graph after it: each node's arrivals count toward its next start, and
nodes that have enough start (R162). -/
def Arrives (g g' : Graph) (n : Nat) (ts : List Nat) : Prop :=
  g'.nodes = g.nodes ∧ g'.failed = none ∧
  (∀ k, k < g.nodes.length → k ≠ 0xFFFF →
    let starts : Bool := isRunning g' k && !(g.running.any (fun r => r.1 = k && r.1 ≠ n))
    arrivals g' k + (if starts then max 1 ((nodeW g k 7).extractLsb' 8 16).toNat else 0) = arrivals g k + ts.count k) ∧
  (∀ r ∈ g.running, r.1 ≠ n → r ∈ g'.running)

end Sys2Proof.Machine

/-- SIGNAL writes its value and finishes; TIMER sets the period of its queue's watchdog; LAYOUT writes a layout record of its context, or
makes it invalid, and an ill-formed one is rejected (R112, R139, R209). -/
def Sys2Proof.Machine.SignalTimerAndLayoutPackets : Prop :=
  ∀ (fn q : Nat) (s : State) (r : Ring) (x : WqReq) (h : W64) (b : List W64) (cx : Ctx), PacketAt s fn q r x h b →
    let len := (h.extractLsb' 16 16).toNat
    (h.extractLsb' 0 8 = 5 → len = 3 → h.extractLsb' 33 31 = 0 → reqCtx s fn x = some cx → NoIo s (.queue fn q) →
      let n := if h.getLsbD 32 then 8 else 4
      let a := (b.getD 0 0).toNat
      (∀ pa, a % n = 0 → undoFull s cx.part = false → hbmFor (.queue fn q) s cx agentDie a .wr = some pa → Yields (exec (.signalPacket fn q) s) (fun t =>
        t.mem.hbm = writeBytes s.mem.hbm pa (leBytes n (b.getD 1 0).toNat) ∧ PacketDone s t r)) ∧
      (a % n ≠ 0 → Reads s fn → Yields (exec (.signalPacket fn q) s) (fun t => Answered s t r 2 r.pkt 0 ∧ t.mem = s.mem))) ∧
    (h.extractLsb' 0 8 = 6 → len = 1 → hasFeature s fn 13 = true → Yields (exec (.timerPacket fn q) s) (fun t =>
      (∃ r', ringAt t fn q = some r' ∧ r'.period = (h.extractLsb' 32 32).toNat) ∧
      PacketDone s t { r with period := (h.extractLsb' 32 32).toNat })) ∧
    (h.extractLsb' 0 8 = 4 → len = 9 → h.extractLsb' 48 16 = 0 → hasFeature s fn 10 = true → reqCtx s fn x = some cx →
      let rec_ := BitVec.ofNat 512 (joinWords b)
      let put (v : BitVec 512) : List Ctx := s.xl.ctxs.map (fun c =>
        if c.part = cx.part ∧ c.ctxid = cx.ctxid then { c with layouts := mset c.layouts (h.extractLsb' 32 16).toNat v } else c)
      (rec_.getLsbD 0 = false → Yields (exec (.layoutPacket fn q) s) (fun t => t.xl.ctxs = put 0 ∧ PacketDone s t r)) ∧
      (rec_.getLsbD 0 = true → layoutOk rec_ = true → Yields (exec (.layoutPacket fn q) s) (fun t =>
        t.xl.ctxs = put (setFld rec_ 135 120 cx.ctxid) ∧ PacketDone s t r)) ∧
      (rec_.getLsbD 0 = true → layoutOk rec_ = false → Reads s fn → Yields (exec (.layoutPacket fn q) s) (fun t =>
        Answered s t r 2 r.pkt 0 ∧ t.xl = s.xl)))

/-- A FENCE passes in the round that finds every comparison of Table 7-2 true, and otherwise reads again at least 250 ns after the start of
its last round (R142). -/
def Sys2Proof.Machine.FencesPollInRounds : Prop :=
  (∀ (fn q : Nat) (s : State) (r : Ring) (x : WqReq) (h : W64) (b : List W64) (cx : Ctx) (v : Bool), PacketAt s fn q r x h b →
    h.extractLsb' 0 8 = 2 → NoIo s (.queue fn q) → fenceOf s fn q = none → reqCtx s fn x = some cx →
    let n := (h.extractLsb' 32 32).toNat
    let es := groupsOf3 b
    1 ≤ n → n ≤ 12 → (h.extractLsb' 16 16).toNat = 1 + 3 * n → (∀ e ∈ es, FenceEntry e) → fenceHolds (.queue fn q) s cx es = some v →
    Yields (exec (.fencePacket fn q) s) (fun t =>
      (v = true → PacketDone s t r ∧ fenceOf t fn q = none) ∧
      (v = false → ringAt t fn q = some { r with busy := true } ∧ fenceOf t fn q = some ⟨fn, q, es, s.fab.podNs, false⟩))) ∧
  (∀ (fn q : Nat) (s : State) (r : Ring) (x : WqReq) (h : W64) (b : List W64) (cx : Ctx) (v : Bool) (f : FencePk), ringAt s fn q = some r →
    headReq r = some x → headPkt r = some (h, b) → r.busy = true → tenantRuns s fn = true → fenceOf s fn q = some f → f.going = false →
    reqCtx s fn x = some cx → NoIo s (.queue fn q) → fenceHolds (.queue fn q) s cx f.conds = some v →
    (s.fab.podNs < f.at_ + 250 → exec (.fenceRound fn q) s = .next s) ∧
    (f.at_ + 250 ≤ s.fab.podNs → Yields (exec (.fenceRound fn q) s) (fun t =>
      (v = true → PacketDone s t r ∧ fenceOf t fn q = none) ∧
      (v = false → fenceOf t fn q = some { f with at_ := s.fab.podNs } ∧ ringAt t fn q = some r))))

/-- GRAPH reads its nodes once, checks them, and starts those of PRED 0, at most 16 at once in ascending number; a finished node sends
its arrivals, a COND or WHILE node to NEXT0 and NEXT1 or to NEXT2 and NEXT3 by its word; the packet finishes when no node runs and none
is ready (R160 to R163). The name that owns a COPY node's claim is the model's (log 52). -/
def Sys2Proof.Machine.GraphsRunTheirNodes : Prop :=
  (∀ (fn q : Nat) (s : State) (r : Ring) (x : WqReq) (h : W64) (b : List W64) (cx : Ctx) (ws : List W64), PacketAt s fn q r x h b →
    h.extractLsb' 0 8 = 3 → (h.extractLsb' 16 16).toNat = 3 → h.extractLsb' 32 32 = 0 → hasFeature s fn 9 = true → reqCtx s fn x = some cx →
    NoIo s (.queue fn q) →
    let a := (b.getD 0 0).toNat
    let n := (b.getD 1 0).toNat
    a % 64 = 0 → 1 ≤ n → n ≤ 4096 → wordsAt (.queue fn q) s cx (8 * n) a = some ws →
    let ns := (List.range n).map (fun i => (ws.drop (8 * i)).take 8)
    let first := (List.range n).filter (fun i => ((ns.getD i []).getD 7 0).extractLsb' 8 16 = 0)
    (ns.all (nodeOk ns) = true → first = [] → Yields (exec (.graphPacket fn q) s) (fun t => PacketDone s t r ∧ t.sched.graphs = s.sched.graphs)) ∧
    (ns.all (nodeOk ns) = true → first ≠ [] → Yields (exec (.graphPacket fn q) s) (fun t => ∃ g, t.sched.graphs = s.sched.graphs ++ [g] ∧
      g.fn = fn ∧ g.q = q ∧ g.ctx = cx.ctxid ∧ g.nodes = ns ∧ g.failed = none ∧
      g.running.map Prod.fst = first.take 16 ∧
      ringAt t fn q = some { r with busy := true })) ∧
    (ns.all (nodeOk ns) = false → Reads s fn → Yields (exec (.graphPacket fn q) s) (fun t =>
      Answered s t r 2 r.pkt 0 ∧ t.sched.graphs = s.sched.graphs))) ∧
  (∀ (fn q n : Nat) (s : State) (r : Ring) (x : WqReq) (p : W64 × List W64) (g : Graph) (cx : Ctx) (cl : Option (ClaimId × Nat)) (pa : Nat),
    ringAt s fn q = some r → headReq r = some x → headPkt r = some p → graphAt s fn q = some g → g.failed = none →
    g.running.find? (fun x => x.1 = n) = some (n, cl) → s.xl.ctxs.find? (fun c => c.fn = fn && c.ctxid = g.ctx) = some cx →
    tenantRuns s fn = true → NoIo s (.node fn q n) →
    let next (i : Nat) : Nat := ((nodeW g n 0).extractLsb' (16 * i) 16).toNat
    let a := (nodeW g n 6).toNat
    let ends (t : State) (ts : List Nat) : Prop := ∃ g', Arrives g g' n ts ∧
      if g'.running = [] then graphAt t fn q = none ∧ PacketDone s t r else graphAt t fn q = some g'
    (nodeType g n = 3 →
      let k := if (nodeW g n 4).getLsbD 0 then 8 else 4
      a % k = 0 → undoFull s cx.part = false → hbmFor (.node fn q n) s cx agentDie a .wr = some pa → Yields (exec (.graphNodeFinish fn q n) s) (fun t =>
        t.mem.hbm = writeBytes s.mem.hbm pa (leBytes k (nodeW g n 5).toNat) ∧ ends t [next 0, next 1, next 2, next 3])) ∧
    (∀ w, (nodeType g n = 4 ∨ nodeType g n = 5) → hbmFor (.node fn q n) s cx agentDie a .rd = some pa → cleanNum s pa 4 = some w →
      Yields (exec (.graphNodeFinish fn q n) s) (fun t => ends t (if w ≠ 0 then [next 0, next 1] else [next 2, next 3]))) ∧
    (∀ l, nodeType g n = 1 → s.sched.launches.find? (fun l => l.fn = fn && l.q = q && l.node = some n) = some l → launchDone s l = true →
      l.failed = none → Yields (exec (.graphNodeFinish fn q n) s) (fun t => (∀ m ∈ t.sched.launches, m.id ≠ l.id) ∧
        ends t [next 0, next 1, next 2, next 3])))

/-- The packets of a work queue other than LAUNCH, as the three statements above say. -/
def Obligations.PacketsOfTheWorkQueues : Prop := SignalTimerAndLayoutPackets ∧ FencesPollInRounds ∧ GraphsRunTheirNodes

/-! ## Events of claims, flows and collectives (02, 22). -/

namespace Sys2Proof.Machine

/-- An arriving packet with a header of Table 2-3, neither too old nor of another generation than its tenant's, where it tells whose it is
(R34, R38, R53, R80). -/
def Fresh (s : State) (p : Packet) : Prop :=
  headerOk p = true ∧ tooOld s p = false ∧
  (match pktTenant s p with
    | some v => genCmp p.gen.toNat (fnGen s v).toNat
    | none => genOfPart s p.part.toNat p.gen.toNat) = .current

end Sys2Proof.Machine

/-- CLAIM_PHASE_COMPLETE: a waiting CLAIM whose claim has nothing left to obtain makes it READY and its warp goes on (R396).
RESERVATION_QUEUE_GRANT asks for the head of the queue over the fewest paths that have room on both links, 656 data slots in all, and asks each
junction; nothing overtakes the head, which leaves the queue when RESERVATION_REPLY has granted its last path; a denial ends the claim's requests,
here of a claim that does not flow (R30, R31). That an abandoned request stands at the head again is the model's reading (log 44), and so are other devices' ports (log 20). -/
def Sys2Proof.Machine.ClaimsAreSeatedAndRouted : Prop :=
  (∀ (id : ClaimId) (s : State) (c : Claim) (g : Agent) (f : FmtA), claimAt s id = some c → c.st = .walking → c.work = .plain →
    agent s c.owner = some g → g.haltForm = .no → c.owner ∈ s.waiting → g.trapPend = none → decodeIn s g (curWord g) = some (.claim f) →
    uniformOk c.owner g f.c = true → handleOf s c.owner g f.kh.toNat = some (id, c) → Seated s id c →
    Yields (exec (.claimPhaseComplete id) s) (fun t =>
      claimAt t id = some { c with st := .ready, routed := true, queued := false, cause := 0, reason := 0 } ∧
      agent t c.owner = some (stampEnd s.fab.cycles (advance g)) ∧ t.waiting = [])) ∧
  (∀ (s : State) (id : ClaimId) (tgt : Nat) (out : Bool) (r : List (ClaimId × Nat × Bool)) (c : Claim), s.fab.resvQ = (id, tgt, out) :: r →
    claimAt s id = some c →
    let part := c.ctx / 65536
    let ports := pathPorts s part tgt
    let room (n i j : Nat) : Bool := pathFits s id part tgt out n i j
    let rest (n j : Nat) : List Nat := ports.filter (fun k => j < k && room n 1 k)
    let holds (n j : Nat) : Prop := ports.find? (room n 0) = some j ∧ n ≤ (rest n j).length + 1
    (headOut s id tgt out = true ∨ (∀ n j, 1 ≤ n → n ≤ ports.length → ¬holds n j) → exec .reservationQueueGrant s = .next (progress s)) ∧
    (∀ n j, headOut s id tgt out = false → 1 ≤ n → n ≤ ports.length → holds n j → (∀ m k, 1 ≤ m → m < n → ¬holds m k) →
      Yields (exec .reservationQueueGrant s) (fun t => ∃ rs es, t.fab.resvQ = s.fab.resvQ ∧ t.fab.resvs = s.fab.resvs ++ rs ∧
        t.fab.entries = s.fab.entries ++ es ∧ rs.map Resv.j = j :: (rest n j).take (n - 1) ∧ (rs.map Resv.data).sum = 656 ∧ es.length = n ∧
        (∀ x ∈ rs, x.claim = id ∧ x.tgt = tgt ∧ x.out = out ∧ x.granted = false ∧ x.ctl = (x.data + 63) / 64 ∧
          x.data = 656 / n + if x.j = j then 656 % n else 0) ∧
        (∀ (i : Nat) (x : Resv) (e : Entry), rs[i]? = some x → es[i]? = some e → e.pkt.kind = 0x20 ∧ e.pkt.tgt = BitVec.ofNat 8 (144 + x.j) ∧ e.owner = .resv id x.j ∧
          e.pkt.body = .resvReq ⟨id, s.mod.poddev, tgt, part, out, x.data, x.ctl⟩)))) ∧
  (∀ (p : Packet) (s : State) (e : Entry) (r : ResvReply), Fresh s p → tagEntry s p = some e → p.body = .resvReply r → e.owner = .resv r.claim r.j →
    (∀ c, claimAt s r.claim = some c → c.st ≠ .flowing) →
    Yields (exec (.reservationReply p) s) (fun t => (∀ e ∈ t.fab.entries, e.owner ≠ .resv r.claim r.j) ∧
      (r.granted = true →
        let given (x : Resv) : Bool := x.granted || (x.claim = r.claim && x.j = r.j)
        let path (q : ClaimId × Nat × Bool) (x : Resv) : Bool := x.claim = q.1 && x.tgt = q.2.1 && x.out = q.2.2
        t.fab.resvs = s.fab.resvs.map (fun x => { x with granted := given x }) ∧
        t.fab.resvQ = s.fab.resvQ.filter (fun q => !(q.1 = r.claim && s.fab.resvs.any (path q) && s.fab.resvs.all (fun x => !path q x || given x))) ∧
        ∀ c, claimAt s r.claim = some c → claimAt t r.claim = some { c with queued := t.fab.resvQ.any (fun q => q.1 = r.claim) }) ∧
      (r.granted = false → (∀ x ∈ t.fab.resvs, x.claim ≠ r.claim) ∧ (∀ x ∈ t.fab.resvQ, x.1 ≠ r.claim) ∧
        ∀ c, claimAt s r.claim = some c → claimAt t r.claim = some { c with denied := true, queued := false })))

/-- FLOW_LEG_ACK places a leg's bytes and acknowledges it; bytes of a destination word that the leg leaves unfinished wait for the next leg, so
that a word is placed at once (R351). With the last leg the flow ends: its completion is delivered and the claim is READY. HALO_PATH_MATCH starts a
halo's path with its own legs, where the claim has its routes (R399, R407). When a leg is due is the model's reading (log 12). A leg of another
device's flow is placed in this device's memory, or read from it, where a route of the partition allows it, its generation is current and its
bytes are the partition's, and is answered in the control slots (R29, R52, R53, R399). -/
def Sys2Proof.Machine.LegsArePlacedAndAcknowledged : Prop :=
  (∀ (id : ClaimId) (s : State) (c : Claim) (l : Leg) (data : List Byte) (loc : Loc) (ps pd : Nat), claimAt s id = some c → c.st = .flowing →
    c.work = .plain → srcSpace c = 7 → dstSpace c = 7 → l.n < 65536 → c.legs.find? (fun x => x.n = l.n && !x.acked) = some l →
    0 < l.len → l.off + l.len ≤ c.flowLen → l.src = descAt c 0 + c.doneB + l.off → l.dst = descAt c 1 + c.esz + l.off → l.src % 8 = 0 → l.dst % 8 = 0 →
    c.stage = [] → c.ahead = [] → pinAt c l.sw l.src = some (loc, ps) → pinAt c l.dw l.dst = some (.dev s.mod.poddev, pd) →
    (loc = .dev s.mod.poddev → ∀ i, i < l.len → poisoned s false (ps + i) 1 = false) →
    (loc ≠ .dev s.mod.poddev → data.length = l.len ∧ loc ≠ .host s.mod.poddev ∧ routesOk s id c (tgtOf loc) false = true) →
    let bytes := if loc = .dev s.mod.poddev then readBytes s.mem.hbm ps l.len else data
    let wait := if l.off + l.len = c.flowLen then 0 else l.len % 8
    let put := writeBytes s.mem.hbm pd (bytes.take (l.len - wait))
    let rest := c.legs.map (fun x => if x.n = l.n then { x with acked := true } else x)
    (∀ cx, ctxByKey s c.ctx = some cx → ∀ a ∈ [l.src, l.dst],
      homeOf { s with mem := { s.mem with hbm := put } } cx a ≠ .at_ (.host s.mod.poddev)) →
    (rest.any (fun x => !x.acked) = true → Yields (exec (.flowLegAck id (.own l.n) data []) s) (fun t => t.mem.hbm = put ∧
      ∃ c', claimAt t id = some c' ∧ c'.legs = rest ∧ c'.st = .flowing ∧ c'.psn = c.psn ∧
        c'.stage = (List.range wait).map (fun i => (l.dst + (l.len - wait) + i, bytes.getD (l.len - wait + i) 0, false)))) ∧
    (rest.any (fun x => !x.acked) = false → wait = 0 → c.orphan = false → c.inval = none → Yields (exec (.flowLegAck id (.own l.n) data []) s) (fun t =>
      t.mem.hbm = put ∧
      (∃ c', claimAt t id = some c' ∧ c'.st = (if c.park then .parked else .ready) ∧ c'.legs = [] ∧ c'.pins = c.pins ∧ c'.stage = []) ∧
      ∀ k g, c.compl = .tag k → k < 64 → agent s c.owner = some g → hasOp g c.opId = true →
        ∃ h, agent t c.owner = some h ∧ h.tags = g.tags ||| (1#64 <<< k)))) ∧
  (∀ (id : ClaimId) (s : State) (c : Claim) (k : Nat) (p : Nat × Nat × Nat × Nat), claimAt s id = some c → c.st = .flowing → c.work = .halo →
    c.paths.find? (fun p => p.1 = k) = some p → k ∉ c.started →
    let len := ((c.desc.getD 3 0).extractLsb' 0 17).toNat
    Yields (exec (.haloPathMatch id k) s) (fun t => claimAt t id = some { c with
      started := c.started ++ [k]
      legs := c.legs ++ if c.routed then paceLegs s.fab.podNs (cutLegs 0 8 (len / 2048 + 4) (64 * k)
        ((c.paths.findIdx? (fun p => p.1 = k)).getD c.paths.length * len) ((c.desc.getD 0 0).toNat + p.2.2.1) p.2.2.2 len) else [] })) ∧
  (∀ (id : ClaimId) (s : State) (src part n pa len : Nat) (gen : BitVec 16) (data : List Byte),
    (peerOk s src part gen pa data.length = true → Yields (exec (.flowLegAck id (.place src part gen n pa) data []) s) (fun t =>
      t.mem.hbm = writeBytes s.mem.hbm pa data ∧ t.fab.legOut = s.fab.legOut ++ [(src, id, n, [], [])] ∧ t.agents = s.agents)) ∧
    (peerOk s src part gen pa data.length = false →
      exec (.flowLegAck id (.place src part gen n pa) data []) s = .next (progress s)) ∧
    (peerOk s src part gen pa len = true → Yields (exec (.flowLegAck id (.ask src part gen n pa len) data []) s) (fun t =>
      t.mem = s.mem ∧ t.agents = s.agents ∧ ∃ bad, t.fab.legOut = s.fab.legOut ++ [(src, id, n, readBytes s.mem.hbm pa len, bad)] ∧
        ((∀ i, i < len → poisoned s false (pa + i) 1 = false) → bad = []))))

/-- COLL_MATCH, for a source in this device's memory: when the shares of the other ranks have come and agree, the destination receives what
R409 gives and the claim is released; a mismatch completes every one with status 4 and writes nothing (R405, R409). -/
def Sys2Proof.Machine.CollectivesCombineInRankOrder : Prop :=
  ∀ (part ctx cid : Nat) (s : State) (id : ClaimId) (c : Claim) (shares : List CollShare) (ps pd : Nat), shares ≠ [] →
    (∀ x ∈ shares, (x.word.extractLsb' 35 16).toNat = cid) →
    s.eng.colls.filter (fun x => x.1 = part * 65536 + ctx && x.2.1 = cid) = [(part * 65536 + ctx, cid, id)] → claimAt s id = some c →
    (∀ r, r < c.nrank → r ≠ c.rank → ∃ x ∈ shares, x.rank = r) →
    let w := c.desc.getD 2 0
    let kind := nfld c.spec 2 0
    let b := (w.extractLsb' 0 21).toNat
    let root := (w.extractLsb' 27 8).toNat
    let agree (x : CollShare) : Prop := x.dup = false ∧ x.rank ≠ c.rank ∧ x.spec.toNat = c.spec ∧ x.word.extractLsb' 0 21 = w.extractLsb' 0 21 ∧
      x.word.extractLsb' 27 8 = w.extractLsb' 27 8
    let n := if kind = 1 then c.nrank * b else if kind = 3 ∧ c.rank ≠ root then 0 else b
    srcHere s c 0 (c.desc.getD 0 0).toNat n = true →
    let released (t : State) : Prop := claimAt t id = none ∧ (slotAt t id).gen = (slotAt s id).gen + 1
    ((∃ x ∈ shares, ¬agree x) → Yields (exec (.collMatch part ctx shares) s) (fun t => released t ∧ t.mem = s.mem)) ∧
    ((∀ x ∈ shares, agree x) → srcSpace c = 7 → dstSpace c = 7 →
      (∀ i, i < n → pinAt c 0 ((c.desc.getD 0 0).toNat + i) = some (.dev s.mod.poddev, ps + i)) →
      (∀ cx, ctxByKey s c.ctx = some cx → hasFeature s cx.fn 7 = false) →
      let share (r : Nat) : List Byte := if r = c.rank then readBytes s.mem.hbm ps n else ((shares.find? (fun x => x.rank = r)).map CollShare.data).getD []
      let all := (List.range c.nrank).map share
      let res := match kind with
        | 0 => collReduce (nfld c.spec 4 3) (collTy c.spec) all
        | 1 => collReduce (nfld c.spec 4 3) (collTy c.spec) (all.map (fun x => (x.drop (c.rank * b)).take b))
        | 2 => all.flatten
        | _ => all.getD root []
      (∀ i, i < res.length → pinAt c 1 ((c.desc.getD 1 0).toNat + i) = some (.dev s.mod.poddev, pd + i)) →
      Yields (exec (.collMatch part ctx shares) s) (fun t => released t ∧ t.mem.hbm = writeBytes s.mem.hbm pd res)) ∧
    (∀ (x y z : Nat), x < 2 ^ 32 → y < 2 ^ 32 → z < 2 ^ 32 →
      collReduce 0 .s32 [leBytes 4 x, leBytes 4 y, leBytes 4 z] = leBytes 4 ((x + y + z) % 2 ^ 32))

/-- The events of claims, flows and collectives, as the three statements above say. -/
def Obligations.ClaimEvents : Prop := ClaimsAreSeatedAndRouted ∧ LegsArePlacedAndAcknowledged ∧ CollectivesCombineInRankOrder

/-! ## Events of translation (03). -/

namespace Sys2Proof.Machine

/-- A packet on its way: it leaves on the partition's next live port, or nothing leaves (R35). -/
def sentBut (s : State) (avoid : List Nat) (p : Packet) : List (Nat × Packet) := match nextPort s avoid p.part.toNat p.tgt.toNat with
  | none => []
  | some j => [(j, p)]
def sentBy (s : State) (p : Packet) : List (Nat × Packet) := sentBut s [] p
/-- The answer to a packet: to its source, under its number (R36). -/
def backTo (s : State) (p : Packet) (kind : Nat) (body : PktBody) : Packet :=
  { mkPkt s p.part.toNat p.gen p.src.toNat kind body with seq := p.seq }
/-- A record is written to a function that takes records and holds none (R113, R114). -/
def Posted (s t : State) (fn kind ctx : Nat) (payload : BitVec 256) : Prop :=
  ∀ f, func s fn = some f → f.reading = true → f.buffers ≠ 0 → f.held = [] → (fn = 0 ∨ timeShared s f.part.toNat = false) →
    (⟨fn, kind, f.seq.toNat, f.gen.toNat, ctx, s.fab.podNs, payload⟩ : EvRec) ∈ t.host.events
/-- A command of a function is answered (R117, Table 5-8). -/
def Replied (s t : State) (fn : Nat) (cookie : W64) (status detail : Nat) (data : List Byte) : Prop :=
  (fn, cookie) ∈ s.host.busy → Reads s fn → t.host.used = s.host.used ++ [⟨fn, 0, cookie, status, 0, detail, data, 16 + data.length⟩]
/-- A grant request asked for the page of a pending request, toward its home (R66). -/
def askedOf (s : State) (c : Ctx) (r : GrantReq) (l : Loc) : Packet :=
  { mkPkt s c.part (ctxGen s c) (tgtOf l) 0x10 (.grantReq c.ctxid r.va r.acc) with seq := s.fab.nextTag }
/-- A request of a home's own translation agent that finds the page at hand with the permission it needs. -/
def AtHand (s : State) (key va : Nat) (acc : Acc) (x : Xlat) : Prop :=
  faultAt s .peer key va acc = none ∧ cacheHit s key agentDie va = some x ∧ serves x acc = true
/-- The failures a page leaves to those that asked for a kind of access (R65). -/
def failures (ctx va code : Nat) (asks : List (IoWho × Acc)) (kind : Acc → Bool) : List XFault :=
  (asks.filter (fun x => kind x.2)).map (fun x => ⟨ctx, va / 4096, x.2, code, x.1⟩)
/-- A sequenced packet performed for the first time by a running stream, and the window as it finds it (R37). -/
def FirstHere (s : State) (p : Packet) (t : TgtStream) : Prop :=
  let t0 := tgtAt s p.src.toNat p.part.toNat
  Fresh s p ∧ t0.run = true ∧ t = retireLow t0 p.low ∧ seqGe p.seq t.base = true ∧ p.seq ∉ t.done ∧ (p.seq - t.base).toNat < 1024 ∧
  begun (setTgt s (slideWin t)) p = false
/-- Nothing of any context is under way on the device. -/
def NothingUnderWay (s : State) : Prop := s.eng.slots = [] ∧ s.net.qps = [] ∧ s.net.inops = [] ∧ allEntries s = [] ∧ s.host.reads = []
/-- A host page entry with a new LOC, where one is given, its MIG bit as given and WB clear; nothing else changed (R77, R79). -/
def EntryBecomes (e x : W64) (mig : Bool) (frame : Option Nat) : Prop :=
  (∀ f, frame = some f → x.extractLsb' 12 36 = BitVec.ofNat 36 (f / 4096)) ∧ x.getLsbD 1 = mig ∧ x.getLsbD 2 = false ∧
  ∀ i, i < 64 → i ≠ 1 → i ≠ 2 → (frame = none ∨ i < 12 ∨ 48 ≤ i) → x.getLsbD i = e.getLsbD i

end Sys2Proof.Machine

/-- A two-stage walk that ends in a translation covers the address asked for, grants what both leaves grant, which is at least what the
access needs, has set D where the access writes, and leads into HBM (R60 to R62), whichever stacks are lost (log 65). -/
def Sys2Proof.Machine.WalksTranslateWhatTheyAllow : Prop :=
  ∀ (lost : BitVec 12) (m n : Memory) (wc new : WCache) (root1 root2 va : Nat) (acc : Acc) (v sz pa gpa pm : Nat) (d : Bool),
    walkAll lost m wc root1 root2 va acc = (n, .ok v sz pa gpa pm d, new) →
    v ≤ va ∧ va < v + sz ∧ pm &&& accNeed acc = accNeed acc ∧ (accWrites acc = true → d = true) ∧ pa < hbmEnd

/-- WALK_COMPLETE ends a walk that has one of its die's 256 walkers: its translation enters the cache of the die that asked, or the fault is kept for the lanes that wait, or
the walk waits for a stage-2 answer, its request recorded and posted to the PF (R63 to R65). The layout of the record is the model's (log 46), and so
is PERM for a walk that ends in a lost stack (log 65). -/
def Sys2Proof.Machine.WalksEnd : Prop :=
  ∀ (n : Nat) (s : State) (w : Walk) (c : Ctx), s.xl.walks.find? (fun x => x.n = n && x.s2 = none) = some w → ctxByKey s w.ctx = some c →
    s.xl.grantIn = [] → onWalker s w = true →
    let r := walkAll s.mod.stackLost s.mem.hbm (walkCache s w.ctx w.die) c.stage1 c.stage2 w.va w.acc
    let gone (t : State) : Prop := t.xl.walks = s.xl.walks.filter (fun x => x.n ≠ w.n) ∧ t.mem.hbm = r.1
    let failed (code : Nat) : Prop := Yields (exec (.walkComplete n) s) (fun t => gone t ∧ t.xl.cache = s.xl.cache ∧
      t.xl.faults = s.xl.faults ++ failures w.ctx w.va code w.asks (fun k => k = w.acc))
    (∀ va sz pa gpa pm d, r.2.1 = .ok va sz pa gpa pm d → lostAt s pa = true → failed Cause.perm.code) ∧
    (∀ va sz pa gpa pm d, r.2.1 = .ok va sz pa gpa pm d → lostAt s pa = false → Yields (exec (.walkComplete n) s) (fun t => gone t ∧
      t.xl.faults = s.xl.faults ∧ t.xl.cache.head? = some ⟨w.ctx, va, sz, .dev s.mod.poddev, pa, gpa, nfld pm 3 3 = 1, nfld pm 4 4 = 1, nfld pm 5 5 = 1, d, false, w.die⟩)) ∧
    (r.2.1 = .xlate → failed Cause.xlate.code) ∧
    (r.2.1 = .perm → failed Cause.perm.code) ∧
    (∀ gpa wr, r.2.1 = .s2 gpa wr →
      let kind := if wr then 1 else if w.acc = .fetch then 2 else 0
      Yields (exec (.walkComplete n) s) (fun t => t.mem.hbm = r.1 ∧ t.xl.cache = s.xl.cache ∧
      (∃ sent, t.xl.s2 = s.xl.s2 ++ [⟨s.xl.s2Next, c.fn, ctxGen s c, ctxKey c, gpa, kind, sent⟩]) ∧
      (∀ x ∈ t.xl.walks, x.n = w.n → x.s2 = some s.xl.s2Next) ∧ t.xl.walks.length = s.xl.walks.length ∧
      ∀ f, func s 0 = some f → f.reading = true → f.buffers ≠ 0 → f.held = [] → s.host.heldS2 = [] →
        (⟨0, 0x05, f.seq.toNat, f.gen.toNat, c.ctxid, s.fab.podNs,
          payWords [gpa, c.ctxid + (ctxGen s c).toNat * 2 ^ 16 + kind * 2 ^ 32, s.xl.s2Next]⟩ : EvRec) ∈ t.host.events))

/-- GRANT_REQUEST is answered from the home's translation with the requester entered in the directory, with a forward, or with a fault;
W is granted only where D is set, and a translation that does not serve the request is walked anew (R62, R64). A request that meets an invalidation of its page, or needs a walk, is held (R66 to R69, R72, R73). -/
def Sys2Proof.Machine.GrantRequestsAreAnswered : Prop :=
  ∀ (p : Packet) (s : State) (ctx va : Nat) (acc : Acc), Fresh s p → p.body = .grantReq ctx va acc →
    s.xl.grantIn.any (fun x => x.src = p.src && x.seq = p.seq) = false →
    let key := ckey p.part.toNat ctx
    let answered (a : GrantAns) (more : State → Prop) : Prop :=
      Yields (exec (.grantRequest p) s) (fun t => t.fab.outbox = s.fab.outbox ++ sentBy s (backTo s p 0x19 (.grantAns a)) ∧ more t)
    let plain (_ : State) : Prop := True
    let kept (t : State) : Prop := t.xl.grantIn = s.xl.grantIn ++ [p] ∧ t.fab.outbox = s.fab.outbox
    (invalCovers s false key va = true → exec (.grantRequest p) s = .next (progress { s with xl := { s.xl with grantIn := s.xl.grantIn ++ [p] } })) ∧
    (invalCovers s false key va = false → ctxByKey s key = none → answered (.fault false) plain) ∧
    (∀ c, invalCovers s false key va = false → ctxByKey s key = some c →
      (∀ f, movedTo s c va = some f → answered (.forward f.1 f.2) plain) ∧
      (∀ f a, s.xl.fwds = [f] → f.q.ctx = ctxKey c → f.loc ≠ .dev s.mod.poddev →
        (if f.q.gpa then gpaOf s.mod.stackLost s.mem.hbm c.stage1 c.stage2 va = some a else a = va) → f.q.base ≤ a → a < f.q.base + f.q.size →
        movedTo s c va = some (f.loc, f.pa + (a - f.q.base) / 4096 * 4096)) ∧
      (movedTo s c va = none →
        (∀ f, faultAt s .peer key va acc = some f → answered (.fault (f.code = Cause.perm.code)) plain) ∧
        (∀ x, AtHand s key va acc x → invalCovers s true key (x.gpa + (va - x.va)) = false →
          answered (.grant x.va x.size x.loc x.pa x.rd (x.w && x.d)) (fun t => ∃ d ∈ t.xl.dir, d.ctx = key ∧ d.va = x.va ∧ (d.wide = true ∨ p.src.toNat ∈ d.holders))) ∧
        (∀ x, AtHand s key va acc x → invalCovers s true key (x.gpa + (va - x.va)) = true → Yields (exec (.grantRequest p) s) kept) ∧
        (faultAt s .peer key va acc = none → (∀ x, cacheHit s key agentDie va = some x → serves x acc = false) → pendingXl s key agentDie va = false →
          (homeVia s agentDie c va).2 ≠ .at_ (.host s.mod.poddev) → Yields (exec (.grantRequest p) s) (fun t => kept t ∧
            t.xl.walks = s.xl.walks ++ [⟨s.xl.nextId, key, alignDown va 4096, acc, agentDie, none, [(.peer, acc)]⟩]))))

/-- GRANT_RESPONSE caches the granted translation, faults the lanes that wait, or follows a forward, at most four in a row; a response to a
request whose page was taken back is dropped and the request sent again (R66, R68, R72, R73).
Where repeated abandonment and forwards end is the model's reading (log 43). -/
def Sys2Proof.Machine.GrantResponsesAreUsed : Prop :=
  ∀ (p : Packet) (s : State) (e : Entry) (n : Nat) (r : GrantReq) (a : GrantAns), Fresh s p → tagEntry s p = some e → e.owner = .grant n →
    p.body = .grantAns a → s.xl.grants.find? (fun x => x.n = n) = some r →
    let gone (t : State) : Prop := (∀ x ∈ t.xl.grants, x.n ≠ n) ∧ ∀ x ∈ t.fab.entries, x.ref ≠ e.ref
    let faulted (code : Nat) : Prop := Yields (exec (.grantResponse p) s) (fun t => gone t ∧
      t.xl.faults = s.xl.faults ++ failures r.ctx r.va code r.asks (fun k => code ≠ Cause.perm.code || k = r.acc) ∧ t.xl.cache = s.xl.cache)
    let asked (l : Loc) : Prop := ∀ c, ctxByKey s r.ctx = some c → Yields (exec (.grantResponse p) s) (fun t =>
      t.fab.outbox = s.fab.outbox ++ sentBy s (askedOf s c r l) ∧ t.xl.cache = s.xl.cache ∧ t.xl.faults = s.xl.faults ∧
      ∃ x ∈ t.fab.entries, x.owner = .grant n ∧ x.ref = .tag s.fab.nextTag)
    (r.stale = true → asked r.home) ∧
    (r.stale = false →
      (∀ v sz l pa rd w, a = .grant v sz l pa rd w → Yields (exec (.grantResponse p) s) (fun t => gone t ∧
        t.xl.cache.head? = some ⟨r.ctx, v, sz, l, pa, noGpa, rd, w, false, true, true, r.die⟩ ∧
        t.xl.faults = s.xl.faults ++ if allowed ⟨r.ctx, v, sz, l, pa, noGpa, rd, w, false, true, true, r.die⟩ r.acc then []
          else failures r.ctx r.va Cause.perm.code r.asks (fun k => k = r.acc))) ∧
      (∀ perm, a = .fault perm → faulted (if perm then Cause.perm.code else Cause.xlate.code)) ∧
      (∀ l pa, a = .forward l pa →
        (4 ≤ r.fwds → faulted Cause.xlate.code) ∧
        (r.fwds < 4 → ownsLoc s (r.ctx / 65536) l = false → faulted Cause.perm.code) ∧
        (r.fwds < 4 → ownsLoc s (r.ctx / 65536) l = true → asked l)))

/-- ATS_TRANSLATION_COMPLETION caches a host page in every die, without W while the page is write-blocked, or asks for the page by PRI while the VF
has fewer requests out than its share of 512; PRI_RESPONSE lets the access ask again, or faults it; a response of an older generation is counted
and used by nothing (R75, R79, R80). How the share is rounded is the model's (log 47). -/
def Sys2Proof.Machine.HostTranslationsArrive : Prop :=
  (∀ (id : Nat) (s : State) (a : Ats) (r : Option AtsAns), s.xl.ats.find? (fun x => x.id = id && !x.pri) = some a →
    (∀ f, func s a.fn = some f → f.gen ≠ a.gen → Yields (exec (.atsTranslationCompletion id r) s) (fun t =>
      func t a.fn = some { f with stale := sat32 f.stale } ∧ t.xl.cache = s.xl.cache ∧ ∀ x ∈ t.xl.ats, x.id ≠ id)) ∧
    (fnGen s a.fn = a.gen →
      (∀ x, r = some x → s.xl.grantIn = [] → (∀ m ∈ s.xl.migs, m.stage ≠ 3) → Yields (exec (.atsTranslationCompletion id r) s) (fun t =>
        (∀ d, d < 5 → cacheHit t a.ctx d a.va = some ⟨a.ctx, a.va, 4096, .host s.mod.poddev, x.pa, noGpa, x.rd, x.w && !writeBlocked s a.ctx a.va, false, true, false, d⟩) ∧
        ∀ y ∈ t.xl.ats, y.id ≠ id)) ∧
      (r = none → (s.xl.ats.filter (fun x => x.pri && x.fn = a.fn)).length < priShare s a.fn → Yields (exec (.atsTranslationCompletion id r) s) (fun t =>
        (∀ x ∈ t.xl.ats, x.id = id → x.pri = true) ∧ t.xl.ats.length = s.xl.ats.length ∧ t.xl.cache = s.xl.cache)) ∧
      (r = none → priShare s a.fn ≤ (s.xl.ats.filter (fun x => x.pri && x.fn = a.fn)).length → Yields (exec (.atsTranslationCompletion id r) s) (fun t =>
        (∀ x ∈ t.xl.ats, x.id ≠ id) ∧ t.xl.cache = s.xl.cache)))) ∧
  (∀ (pgi : Nat) (s : State) (a : Ats) (ok : Bool), s.xl.ats.find? (fun x => x.id = pgi && x.pri) = some a →
    (∀ f, func s a.fn = some f → f.gen ≠ a.gen → Yields (exec (.priResponse pgi ok) s) (fun t =>
      func t a.fn = some { f with stale := sat32 f.stale } ∧ t.xl.faults = s.xl.faults ∧ ∀ x ∈ t.xl.ats, x.id ≠ pgi)) ∧
    (fnGen s a.fn = a.gen → s.xl.grantIn = [] → Yields (exec (.priResponse pgi ok) s) (fun t =>
      (∀ x ∈ t.xl.ats, x.id ≠ pgi) ∧ t.xl.cache = s.xl.cache ∧
      t.xl.faults = s.xl.faults ++ if ok then [] else failures a.ctx a.va Cause.xlate.code a.asks (fun _ => true))))

/-- The events of translation: walks, grants and host translations, as the five statements above say. -/
def Obligations.TranslationsAreObtained : Prop :=
  WalksTranslateWhatTheyAllow ∧ WalksEnd ∧ GrantRequestsAreAnswered ∧ GrantResponsesAreUsed ∧ HostTranslationsArrive

/-- INVALIDATION removes every translation of the range that the device holds and makes its pending grant requests stale; it is
acknowledged when nothing uses the page any longer. INVALIDATION_ACK sends that acknowledgement, or ends this home's own invalidation;
STUCK_INVALIDATION reports it after 100 µs (R70 to R72). The layout of its record is the model's (log 46). -/
def Sys2Proof.Machine.PagesAreTakenBack : Prop :=
  (∀ (p : Packet) (s : State) (tw : TgtStream) (ctx va size : Nat) (why : TakeBack), FirstHere s p tw → p.body = .inval ctx va size why →
    (∀ i ∈ s.xl.invalIn, i.n ≠ s.xl.nextId) →
    let q : Range := ⟨ckey p.part.toNat ctx, va, size, false⟩
    let taken (t : State) : Prop := (∀ x ∈ t.xl.cache, x.ctx = q.ctx → rangesMeet x.va x.size va size = false) ∧
      (∀ x ∈ s.xl.cache, x.ctx ≠ q.ctx ∨ rangesMeet x.va x.size va size = false → x ∈ t.xl.cache) ∧
      ∀ r ∈ t.xl.grants, r.ctx = q.ctx → va ≤ r.va → r.va < va + size → r.stale = true
    Yields (exec (.invalidation p) s) taken ∧
    (NothingUnderWay s → Yields (exec (.invalidation p) s) (fun t => t.xl.invalIn = s.xl.invalIn ∧
      t.fab.outbox = s.fab.outbox ++ sentBy s (backTo s p 0x18 (.ack none)))) ∧
    (writesUse s q = true → Yields (exec (.invalidation p) s) (fun t => t.fab.outbox = s.fab.outbox ∧
      t.xl.invalIn = s.xl.invalIn ++ [⟨s.xl.nextId, p, q, s.fab.podNs⟩]))) ∧
  (∀ (n : Nat) (s : State) (i : InvalIn), s.xl.invalIn.find? (fun x => x.n = n) = some i →
    (pageQuiet s i.q = false → exec (.invalidationAck n) s = .next (progress s)) ∧
    (pageQuiet s i.q = true → Yields (exec (.invalidationAck n) s) (fun t => (∀ x ∈ t.xl.invalIn, x.n ≠ n) ∧
      t.fab.outbox = s.fab.outbox ++ sentBy s (backTo s i.pkt 0x18 (.ack none))))) ∧
  (∀ (n : Nat) (s : State) (i : Inval), s.xl.invalIn.find? (fun x => x.n = n) = none → s.xl.invals.find? (fun x => x.n = n) = some i →
    (i.wait ≠ [] ∨ i.done = true ∨ pageQuiet s i.q = false → exec (.invalidationAck n) s = .next (progress s)) ∧
    (i.wait = [] → i.done = false → pageQuiet s i.q = true → s.xl.grantIn = [] →
      (i.what = .none → Yields (exec (.invalidationAck n) s) (fun t => ∀ x ∈ t.xl.invals, x.n ≠ n)) ∧
      (∀ tag, i.what = .ats tag → Yields (exec (.invalidationAck n) s) (fun t => (∀ x ∈ t.xl.invals, x.n ≠ n) ∧
        t.host.atsDone = s.host.atsDone ++ [tag])) ∧
      (∀ fn ck, i.what = .cmd fn ck none → (∀ x ∈ s.xl.invals, x.n ≠ n → x.what = .none) → Yields (exec (.invalidationAck n) s) (fun t =>
        (∀ x ∈ t.xl.invals, x.n ≠ n) ∧ Replied s t fn ck 0 0 [])))) ∧
  (∀ (n : Nat) (s : State) (i : Inval), s.xl.invals.find? (fun x => x.n = n && x.wait ≠ [] && !x.stuck && x.since + 100000 ≤ s.fab.podNs) = some i →
    Yields (exec (.stuckInvalidation n) s) (fun t => (∀ x ∈ t.xl.invals, x.n = n → x.stuck = true) ∧
      Posted s t 0 0x06 (i.q.ctx % 65536) (payWords [i.q.base] + payMask (i.wait.map Prod.fst))))

/-- ATS_INVALIDATE_REQUEST takes a range back at its home, while fewer than 32 of the host's are outstanding: the translations of the range go, and every holder of a grant of the range that
the directory names is sent an invalidation (R70, R76). -/
def Sys2Proof.Machine.HoldersAreInvalidated : Prop :=
  ∀ (tag part ctx va size : Nat) (s : State),
    let key := ckey part ctx
    let hit (d : GrantDir) : Bool := d.ctx = key && rangesMeet d.va d.size va size
    atsInvals s < 32 → Yields (exec (.atsInvalidateRequest tag part ctx va size) s) (fun t =>
      (∀ x ∈ t.xl.cache, x.ctx = key → rangesMeet x.va x.size va size = false) ∧ t.xl.dir = s.xl.dir.filter (fun d => !hit d) ∧
      ∃ i, t.xl.invals = s.xl.invals ++ [i] ∧ i.n = s.xl.nextId ∧ i.q = ⟨key, va, size, false⟩ ∧ i.why = .unmap ∧ i.what = .ats tag ∧
        i.since = s.fab.podNs ∧ i.stuck = false ∧ i.done = false ∧
        (∀ d ∈ s.xl.dir, hit d = true → d.wide = false → ∀ h ∈ d.holders, h ≠ s.mod.poddev → (h, d.va, d.size) ∈ i.wait) ∧
        ∀ h ∈ i.wait, h.1 ≠ s.mod.poddev ∧ ∃ e ∈ t.fab.entries ++ t.fab.waitQ, e.owner = .inval i.n ∧ e.pkt.kind = 0x11 ∧
          e.pkt.tgt = BitVec.ofNat 8 h.1 ∧ e.pkt.body = .inval (key % 65536) h.2.1 h.2.2 .unmap)

/-- MIGRATION_COPY_DONE takes back what was lent of the host copy; with the end of that invalidation the frame enters the page's host entry, MIG
is set and WB cleared, the page's translations go and the command ends with OK. MIGRATION_TIMEOUT clears WB 20 µs later where the copy is not made,
and ends it with ABORTED.
LOCAL_REVOKE_TIMEOUT puts the queue pairs that use a page, for a request of their own or of a peer, into Error 100 µs after it was taken back
(R79, R99, R100). That lent translations go before the entry is written is the model's reading (log 70). -/
def Sys2Proof.Machine.PagesMigrate : Prop :=
  (∀ (n : Nat) (s : State) (m : Migr), s.xl.migs.find? (fun x => x.n = n && x.stage = 2) = some m → Yields (exec (.migrationCopyDone n) s) (fun t =>
    (∀ x ∈ t.xl.migs, x.n = n → x.stage = 4) ∧ (∀ x ∈ t.xl.cache, x.ctx = m.ctx → rangesMeet x.va x.size m.va 4096 = false) ∧
    ∃ i ∈ t.xl.invals, i.q = ⟨m.ctx, m.va, 4096, false⟩ ∧ i.why = .migrate ∧ i.what = .migr n ∧ i.done = false)) ∧
  (∀ (k n : Nat) (s : State) (i : Inval) (m : Migr) (c : Ctx), s.xl.invalIn.find? (fun x => x.n = k) = none →
    s.xl.invals.find? (fun x => x.n = k) = some i → i.wait = [] → i.done = false → pageQuiet s i.q = true → i.what = .migr n →
    s.xl.migs.find? (fun x => x.n = n && x.stage = 4) = some m → ctxByKey s m.ctx = some c → s.xl.grantIn = [] →
    Yields (exec (.invalidationAck k) s) (fun t =>
      (∃ x : W64, EntryBecomes (BitVec.ofNat 64 (hostPte s c m.va)) x true (some m.frame) ∧
        t.mem.hbm = writeBytes s.mem.hbm (hostEntryAt s c m.va) (leBytes 8 x.toNat)) ∧
      (∀ x ∈ t.xl.cache, x.ctx = m.ctx → rangesMeet x.va x.size m.va 4096 = false) ∧ (∀ x ∈ t.xl.migs, x.n ≠ n) ∧
      Replied s t m.fn m.cookie 0 0 [])) ∧
  (∀ (n : Nat) (s : State) (m : Migr) (c : Ctx), s.xl.migs.find? (fun x => x.n = n && (x.since + 20000 ≤ s.fab.podNs && x.stage ≠ 2 && x.stage ≠ 4)) = some m →
    ctxByKey s m.ctx = some c → s.xl.grantIn = [] → Yields (exec (.migrationTimeout n) s) (fun t =>
      (∃ x : W64, EntryBecomes (BitVec.ofNat 64 (hostPte s c m.va)) x false none ∧
        t.mem.hbm = writeBytes s.mem.hbm (hostEntryAt s c m.va) (leBytes 8 x.toNat)) ∧
      (∀ x ∈ t.xl.migs, x.n ≠ n) ∧ Replied s t m.fn m.cookie 9 0 [])) ∧
  (∀ (n : Nat) (s : State) (i : Inval), s.xl.invals.filter (fun x => x.n = n) = [i] →
    (s.fab.podNs < i.since + 100000 → exec (.localRevokeTimeout n) s = .next (progress s)) ∧
    (i.since + 100000 ≤ s.fab.podNs → (s.net.qps.map Qp.qpn).Nodup → Yields (exec (.localRevokeTimeout n) s) (fun t =>
      ∀ x ∈ s.net.qps, x.sq.any (fun w => w.pins.any (pinHit_ i.q x.ctx)) = true ∨ inUses s i.q x = true → ∃ y ∈ t.net.qps, y.qpn = x.qpn ∧ y.st = .error ∧ y.sq = [])))

/-- Pages taken back and migrated, as the three statements above say. -/
def Obligations.PagesAreTakenBackAndMigrate : Prop := PagesAreTakenBack ∧ HoldersAreInvalidated ∧ PagesMigrate

/-! ## Events of the word plane (02, 16). -/

namespace Sys2Proof.Machine

/-- A reply is kept with the pending operation it belongs to, for the lanes named; nothing is written yet (R244, R326). -/
def ReplyKept (g h : Agent) (id : Nat) (vals : List (Nat × Nat)) (fl : FlagBits) (bad : Option Nat) : Prop :=
  h.pend.length = g.pend.length ∧ h.v = g.v ∧ h.s = g.s ∧ h.pc = g.pc ∧ ∀ (i : Nat) (q : Pend), g.pend[i]? = some q →
    ∃ r, h.pend[i]? = some r ∧ (q.id ≠ id → r = q) ∧ (q.id = id → r.id = id ∧ r.dst = q.dst ∧ r.left = q.left - 1 ∧ r.res.s = q.res.s ∧
      r.res.v = q.res.v ++ vals.flatMap (fun x => laneRes (pendDst g id).1 (pendDst g id).2 x.1 x.2) ∧ r.res.flags = q.res.flags ||| fl ∧
      (q.res.poison = none → r.res.poison.map Prod.fst = bad))
/-- FARW of the agent an entry is for; of another that has its slot since nothing changes (R203). -/
def lessFarw (g : Agent) (e : Entry) : Agent := if g.born = e.born then farwSet g (farwGet g - 1) else g
/-- The first fabric error of a warp is kept: the far address of the lowest lane of the packet (R325). -/
def errOf (g : Agent) (va : W64) : Option W64 := match g.fabErr with
  | some x => some x
  | none => some va
/-- The answers of an entry that has failed: a write is counted out of FARW, a read's lanes read zero; the error is kept for the agent the entry is
for, and not for one that has its slot since (R39, R203, R325). -/
def EntryFails (s t : State) (e : Entry) : Prop :=
  let kept (g : Agent) : Option W64 := if g.born = e.born then errOf g e.va else g.fabErr
  (∀ a g, e.owner = .store a → agent s a = some g → agent t a = some { lessFarw g e with fabErr := kept g }) ∧
  (∀ a id sx ls g, e.owner = .load a id sx ls → agent s a = some g → ∃ h, agent t a = some h ∧ h.fabErr = kept g ∧ h.outc = g.outc ∧
    ReplyKept g h id (ls.map (fun l => (l.1, 0))) 0 none) ∧
  (∀ a id ls o q g, e.owner = .atomic a id ls o q → agent s a = some g → ∃ h, agent t a = some h ∧ h.fabErr = kept g ∧
    h.outc = (lessFarw g e).outc ∧ ReplyKept g h id (ls.map (fun l => (l, 0))) 0 none) ∧
  (∀ n o, e.owner = .io n o → (∀ i ∈ t.sched.ios, i.n = n → i.st = .failed) ∧
    ∀ a g, o = some a → agent s a = some g → agent t a = some (if isWriteEntry e then lessFarw g e else g))

end Sys2Proof.Machine

/-- ACKNOWLEDGEMENT completes the entry its number names: a store leaves FARW, an atomic's value reaches its lanes, a holder has
invalidated, a stream reset starts the stream at number 1; READ_RESPONSE brings a read's values to its lanes; an answer that matches nothing
is dropped; a lane that met poison receives zero (R36, R37, R41, R320, R326, R480). -/
def Sys2Proof.Machine.AnswersReachTheirEntries : Prop :=
  (∀ (p : Packet) (s : State) (v : Option W64), Fresh s p → p.body = .ack v →
    (seqEntry s p = none → exec (.acknowledgement p) s = .next (progress s)) ∧
    (∀ e, seqEntry s p = some e →
      let gone (t : State) : Prop := s.fab.waitQ = [] → t.fab.entries = s.fab.entries.filter (fun x => x.ref ≠ e.ref)
      (∀ a g, e.owner = .store a → agent s a = some g → Yields (exec (.acknowledgement p) s) (fun t => gone t ∧
        agent t a = some (lessFarw g e))) ∧
      (∀ a id ls o q g x, e.owner = .atomic a id ls o q → agent s a = some g → v = some x → Yields (exec (.acknowledgement p) s) (fun t => gone t ∧
        ∃ h, agent t a = some h ∧ h.outc = (lessFarw g e).outc ∧
          (p.psn = false → ReplyKept g h id (ls.zip (reqRun q x.toNat).1) (reqRun q x.toNat).2.2 none) ∧
          (p.psn = true → ReplyKept g h id (ls.map (fun l => (l, 0))) 0 (some (ls.headD 0))))) ∧
      (∀ a id ls o q, e.owner = .atomic a id ls o q → v = none → exec (.acknowledgement p) s = .next (progress s)) ∧
      (∀ n va sz ctx why, e.owner = .inval n → e.pkt.body = .inval ctx va sz why → Yields (exec (.acknowledgement p) s) (fun t => gone t ∧
        ∀ i ∈ t.xl.invals, i.n = n → ∀ w ∈ i.wait, w.1 ≠ e.pkt.tgt.toNat ∨ w.2.1 ≠ va)) ∧
      (∀ n o x, e.owner = .io n o → v = some x → Yields (exec (.acknowledgement p) s) (fun t => gone t ∧
        ∀ i ∈ t.sched.ios, i.n = n → i.st = .got (leBytes 8 x.toNat) p.psn)) ∧
      (∀ n o, e.owner = .io n o → v = none → e.pkt.kind = 0x11 → Yields (exec (.acknowledgement p) s) (fun t => gone t ∧
        (∀ i ∈ t.sched.ios, i.n = n → i.st = .got [] false) ∧
        ∀ a g, o = some a → agent s a = some g → agent t a = some (lessFarw g e))) ∧
      (e.owner = .reset → s.fab.waitQ = [] → Yields (exec (.acknowledgement p) s) (fun t => gone t ∧
        (srcOf t p.src.toNat p.part.toNat).run = true ∧ (srcOf t p.src.toNat p.part.toNat).next = 1)))) ∧
  (∀ (p : Packet) (s : State) (vals : List (List Byte × Bool)), Fresh s p → p.body = .data vals →
    (tagEntry s p = none → exec (.readResponse p) s = .next (progress s)) ∧
    (∀ e, tagEntry s p = some e →
      (∀ a id sx ls g, e.owner = .load a id sx ls → agent s a = some g → Yields (exec (.readResponse p) s) (fun t =>
        t.fab.entries = s.fab.entries.filter (fun x => x.ref ≠ e.ref) ∧ ∃ h, agent t a = some h ∧ h.outc = g.outc ∧
          ReplyKept g h id (ls.map (fun l => (l.1, if (vals.getD l.2 ([], false)).2 then 0 else extend sx (leVal (vals.getD l.2 ([], false)).1)))) 0
            ((ls.find? (fun l => (vals.getD l.2 ([], false)).2)).map Prod.fst))) ∧
      (∀ n o, e.owner = .io n o → Yields (exec (.readResponse p) s) (fun t => t.fab.entries = s.fab.entries.filter (fun x => x.ref ≠ e.ref) ∧
        ∀ i ∈ t.sched.ios, i.n = n → i.st = .got (vals.headD ([], false)).1 (vals.headD ([], false)).2))))

/-- ROUTE_ERROR and PACKET_ABANDON, 50 µs after the first transmission, end an entry with an error; a sequenced packet that meets a
route error closes its stream, which enters reset form when its last entry has gone; a grant request goes on by a port that has drawn none while
there is one (R39 to R41, R66, R325). That a claim's request stands at the queue's head again is the model's reading (log 44), and so are a route
error on the stream reset itself (log 21) and which owned ports lead to a home (log 43). -/
def Sys2Proof.Machine.FailuresEndTheirEntries : Prop :=
  (∀ (p : Packet) (s : State) (e : Entry) (vals : List (List Byte × Bool)), Fresh s p → p.body = .data vals → tagEntry s p = some e →
    ((∃ a, ownerAgent e.owner = some a) ∨ (∃ n o, e.owner = .io n o) → Yields (exec (.routeError p) s) (fun t => EntryFails s t e ∧
      t.fab.entries = s.fab.entries.filter (fun x => x.ref ≠ e.ref))) ∧
    (∀ n r c, e.owner = .grant n → s.xl.grants.find? (fun x => x.n = n) = some r → ctxByKey s r.ctx = some c →
      let bad := (r.port.toList ++ r.bad).eraseDups
      let all : Prop := ∀ j, j < 18 → ownsJct s (r.ctx / 65536) j = true → (tgtOf r.home < 144 ∨ j = tgtOf r.home - 144) → j ∈ bad
      (all → Yields (exec (.routeError p) s) (fun t => (∀ x ∈ t.xl.grants, x.n ≠ n) ∧
        t.xl.faults = s.xl.faults ++ failures r.ctx r.va Cause.perm.code r.asks (fun k => k = r.acc))) ∧
      (¬all → Yields (exec (.routeError p) s) (fun t =>
        t.fab.outbox = s.fab.outbox ++ sentBut s bad (askedOf s c r r.home) ∧ ∀ x ∈ t.xl.grants, x.n = n → x.bad = bad)))) ∧
  (∀ (p : Packet) (s : State) (e : Entry) (v : Option W64), Fresh s p → p.body = .ack v → seqEntry s p = some e →
    (∃ a, ownerAgent e.owner = some a) ∨ (∃ n o, e.owner = .io n o) ∨ e.owner = .reset → Yields (exec (.routeError p) s) (fun t => EntryFails s t e ∧
      (s.fab.waitQ = [] → t.fab.entries = s.fab.entries.filter (fun x => x.ref ≠ e.ref) ∧ (srcOf t p.src.toNat p.part.toNat).run = false ∧
        ((∀ x ∈ s.fab.entries, x.ref ≠ e.ref → isSeq x p.src.toNat p.part.toNat = false) →
          e.pkt.tgt = p.src → e.pkt.part = p.part → srcOf t p.src.toNat p.part.toNat = ⟨p.src.toNat, p.part.toNat, false, 0, s.fab.podNs, none⟩)))) ∧
  (∀ (r : EntryRef) (s : State) (e : Entry), entryOf s r = some e →
    (s.fab.podNs < e.first + 50000 → exec (.packetAbandon r) s = .next (progress s)) ∧
    (e.first + 50000 ≤ s.fab.podNs →
      ((∃ a, ownerAgent e.owner = some a) ∨ (∃ n o, e.owner = .io n o) → Yields (exec (.packetAbandon r) s) (fun t => EntryFails s t e ∧
        (s.fab.waitQ = [] → t.fab.entries = s.fab.entries.filter (fun x => x.ref ≠ r)))) ∧
      (e.owner = .reset → exec (.packetAbandon r) s = .next (progress { s with fab := { s.fab with
        entries := s.fab.entries.filter (fun x => x.ref ≠ r) } })) ∧
      (∀ n q c, e.owner = .grant n → s.xl.grants.find? (fun x => x.n = n) = some q → ctxByKey s q.ctx = some c →
        (livePorts s (q.ctx / 65536) (tgtOf q.home) = [] → Yields (exec (.packetAbandon r) s) (fun t => (∀ x ∈ t.xl.grants, x.n ≠ n) ∧
          t.xl.faults = s.xl.faults ++ failures q.ctx q.va Cause.fabric.code q.asks (fun _ => true))) ∧
        (livePorts s (q.ctx / 65536) (tgtOf q.home) ≠ [] → Yields (exec (.packetAbandon r) s) (fun t =>
          t.fab.outbox = s.fab.outbox ++ sentBut s q.bad (askedOf s c q q.home) ∧ t.xl.faults = s.xl.faults))) ∧
      (∀ id j x tag, e.owner = .resv id j → r = .tag tag → s.fab.resvs.find? (fun y => y.claim = id && y.j = j && !y.granted) = some x →
        Yields (exec (.packetAbandon r) s) (fun t => t.fab.resvQ = s.fab.resvQ ∧
          t.fab.resvs = s.fab.resvs.filter (fun y => !(y.claim = id && y.tgt = x.tgt && y.out = x.out))))))

/-- RETRANSMIT_TIMEOUT sends an entry again, 2 µs after its last transmission and at most 30 µs after its first, with RTX, a fresh STAMP and
LOW; STREAM_RESET_SEND opens a stream in reset form once 46 µs have passed, with TICK in LOW; nothing else of a stream in reset form is sent; STREAM_WAIT_TIMEOUT ends packets
that waited 50 µs behind resets (R38, R41). That a stream's reset waits for a packet is the model's reading (log 45). -/
def Sys2Proof.Machine.PacketsAreSentAgain : Prop :=
  (∀ (r : EntryRef) (s : State) (e : Entry), entryOf s r = some e →
    (s.fab.podNs < e.last + 2000 ∨ e.first + 30000 < s.fab.podNs ∨ streamDown s e = true → exec (.retransmitTimeout r) s = .next (progress s)) ∧
    (e.last + 2000 ≤ s.fab.podNs → s.fab.podNs ≤ e.first + 30000 → streamDown s e = false →
      let avoid := match e.owner with
        | .grant n => ((s.xl.grants.find? (fun g => g.n = n)).map GrantReq.bad).getD []
        | _ => []
       Yields (exec (.retransmitTimeout r) s) (fun t =>
      (∃ low, t.fab.outbox = s.fab.outbox ++ sentBut s avoid { e.pkt with rtx := true, stamp := stampNow s, low := low } ∧
        (∀ tag, r = .tag tag → low = e.pkt.low) ∧ (e.owner = .reset → low = e.pkt.low) ∧
        (∀ tgt part q, r = .seq tgt part q → e.owner ≠ .reset → low = oldest s e.pkt.tgt.toNat e.pkt.part.toNat q)) ∧
      t.fab.entries.length = s.fab.entries.length ∧ ∀ x ∈ t.fab.entries, x.ref = r → x.last = s.fab.podNs))) ∧
  (∀ (tgt part : Nat) (s : State),
    let x := srcOf s tgt part
    let due : Prop := x.run = false ∧ x.next = 0 ∧ x.since + 46000 ≤ s.fab.podNs ∧ waiters s tgt part ≠ [] ∧ ∀ e ∈ s.fab.entries, isSeq e tgt part = false
    (¬due → exec (.streamResetSend tgt part) s = .next (progress s)) ∧
    (due → Yields (exec (.streamResetSend tgt part) s) (fun t => ∃ e, t.fab.entries = s.fab.entries ++ [e] ∧ e.ref = .seq tgt part 0 ∧ e.owner = .reset ∧
      e.first = s.fab.podNs ∧ e.last = s.fab.podNs ∧ e.pkt.kind = 0x22 ∧ e.pkt.seq = 0 ∧ e.pkt.low = BitVec.ofNat 24 (podTick s) ∧
      some e.pkt.gen = (waiters s tgt part).head?.map (fun w => w.pkt.gen) ∧ e.pkt.tgt = BitVec.ofNat 8 tgt ∧ e.pkt.part = BitVec.ofNat 16 part ∧
      t.fab.outbox = s.fab.outbox ++ sentBy s e.pkt ∧ t.fab.waitQ = s.fab.waitQ ∧ (srcOf t tgt part).tried = some (x.tried.getD s.fab.podNs)))) ∧
  (∀ (tgt part : Nat) (s : State),
    let x := srcOf s tgt part
    let out (e : Entry) : Bool := !x.run && x.next = 0 && x.tried.any (fun t => max e.first t + 50000 ≤ s.fab.podNs)
    ((∀ e ∈ waiters s tgt part, out e = false) → exec (.streamWaitTimeout tgt part) s = .next (progress s)) ∧
    ((∀ e ∈ waiters s tgt part, out e = true → ∃ a, e.owner = .store a) → Yields (exec (.streamWaitTimeout tgt part) s) (fun t =>
      t.fab.waitQ = s.fab.waitQ.filter (fun e => !(e.pkt.tgt.toNat = tgt && e.pkt.part.toNat = part && out e)) ∧ t.fab.entries = s.fab.entries ∧
      ∀ e ∈ waiters s tgt part, out e = true → ∀ a g, e.owner = .store a → agent s a = some g → g.born = e.born →
        ∃ h, agent t a = some h ∧ h.fabErr.isSome = true)))

/-- The source side of the word plane, as the three statements above say. -/
def Obligations.WordPlaneSources : Prop := AnswersReachTheirEntries ∧ FailuresEndTheirEntries ∧ PacketsAreSentAgain

namespace Sys2Proof.Machine

/-- The request of an atomic packet: its address, its order, what it does (R480). -/
def AtomAsked (p : Packet) (addr : Nat) (ordered : Bool) (q : AtomReq) : Prop := pktReq p.body = some (addr, ordered, q)
/-- An atomic performed at its home in HBM: the new value is stored, and the acknowledgement carries the old one; a poisoned line is left
as it is and the acknowledgement says so (R326, R480). -/
def PerformedHere (s t : State) (p : Packet) (tw : TgtStream) (addr : Nat) (q : AtomReq) : Prop :=
  let n := Ty.bytes (reqTy q)
  let v := readNum s.mem.hbm addr n
  let bad := poisoned s false addr n
  t.mem.hbm = (if bad then s.mem.hbm else writeBytes s.mem.hbm addr (leBytes n (reqRun q v).2.1)) ∧
  t.fab.outbox = s.fab.outbox ++ sentBy s { backTo s p 0x18 (.ack (some (if bad then 0 else BitVec.ofNat 64 v))) with psn := bad } ∧
  (tgtAt t p.src.toNat p.part.toNat).base = (markDone tw p.seq).base ∧ (tgtAt t p.src.toNat p.part.toNat).done = (markDone tw p.seq).done ∧
  (p.seq, (if bad then 0 else BitVec.ofNat 64 v), bad, s.fab.podNs) ∈ (tgtAt t p.src.toNat p.part.toNat).fetched

end Sys2Proof.Machine

/-- READ_PACKET is answered with the values at its addresses, poisoned ones marked, or waits for host memory; a packet too old is discarded,
one of an older generation counted (R34, R36, R38, R53, R326, R347). The context of a host access is the model's reading (log 63), and so is
that the running tenant's STALE counts an old packet that names no other (log 72). -/
def Sys2Proof.Machine.ReadsAreAnswered : Prop :=
  ∀ (p : Packet) (s : State) (accs : List (Nat × Nat)), p.body = .read accs →
    (headerOk p = false → exec (.readPacket p) s = .next (progress { s with fab := { s.fab with wordDisc := s.fab.wordDisc + 1 } })) ∧
    (headerOk p = true → tooOld s p = true → exec (.readPacket p) s = .next (progress s)) ∧
    (∀ v f, headerOk p = true → tooOld s p = false → genOfPart s p.part.toNat p.gen.toNat = .older → runVf s p.part.toNat = some v → func s v = some f →
      Yields (exec (.readPacket p) s) (fun t => func t v = some { f with stale := sat32 f.stale } ∧ t.fab = s.fab ∧ t.mem = s.mem)) ∧
    (Fresh s p → (∀ a ∈ accs, hostPageOf s p a.1 = none) → (∀ a ∈ accs, a.1 < hostTag) →
      let vals := accs.map (fun a => if poisoned s false a.1 a.2 then (List.replicate a.2 0, true) else (readBytes s.mem.hbm a.1 a.2, false))
      Yields (exec (.readPacket p) s) (fun t => t.mem = s.mem ∧
        t.fab.outbox = s.fab.outbox ++ sentBy s { backTo s p 0x19 (.data vals) with psn := vals.any Prod.snd })) ∧
    (Fresh s p → (∀ a ∈ accs, hostPageOf s p a.1 = none) → (∃ a ∈ accs, hostTag ≤ a.1) → s.host.reads = [] →
      Yields (exec (.readPacket p) s) (fun t => t.fab = s.fab ∧
        t.host.reads = [⟨s.opSeq, hostKey s p (spanOf accs).1, hostPasid s p (spanOf accs).1, (spanOf accs).1 - hostTag, (spanOf accs).2, .reply p, [], [], 0, 0⟩]))

/-- A sequenced packet meets the procedure of R37: a stream that does not run answers with a route error; a number performed before is
acknowledged again with its stored value and does nothing more; a number beyond the window is counted and discarded; WRITE_PACKET stores
its bytes in lane order and is acknowledged (R37, R41, R321, R326). That a repetition of a packet begun is ignored is the model's reading (log 42). -/
def Sys2Proof.Machine.WritesArePerformedOnce : Prop :=
  (∀ (p : Packet) (s : State),
    let t0 := tgtAt s p.src.toNat p.part.toNat
    let tw := retireLow t0 p.low
    Fresh s p →
      (t0.run = false → Yields (exec (.writePacket p) s) (fun t => t.fab.outbox = s.fab.outbox ++ sentBy s (routeErr s p true) ∧ t.mem = s.mem)) ∧
      (t0.run = true → (seqGe p.seq tw.base = false ∨ p.seq ∈ tw.done) → Yields (exec (.writePacket p) s) (fun t => t.mem = s.mem ∧
        (∀ x, tw.fetched.find? (fun y => y.1 = p.seq) = some x →
          t.fab.outbox = s.fab.outbox ++ sentBy s { backTo s p 0x18 (.ack (some x.2.1)) with psn := x.2.2.1 }) ∧
        (tw.fetched.find? (fun y => y.1 = p.seq) = none → t.fab.outbox = s.fab.outbox ++ sentBy s (backTo s p 0x18 (.ack none))))) ∧
      (t0.run = true → seqGe p.seq tw.base = true → p.seq ∉ tw.done → 1024 ≤ (p.seq - tw.base).toNat → Yields (exec (.writePacket p) s) (fun t =>
        t.fab.wordDisc = s.fab.wordDisc + 1 ∧ t.fab.outbox = s.fab.outbox ∧ t.mem = s.mem))) ∧
  (∀ (p : Packet) (s : State) (tw : TgtStream) (accs : List (Nat × List Byte)), FirstHere s p tw → p.body = .write accs →
    (∀ a ∈ accs, a.1 < hostTag ∧ hostPageOf s p a.1 = none) → Yields (exec (.writePacket p) s) (fun t =>
      t.mem.hbm = accs.foldl (fun m a => writeBytes m a.1 a.2) s.mem.hbm ∧ t.mem.yard = s.mem.yard ∧
      t.fab.outbox = s.fab.outbox ++ sentBy s (backTo s p 0x18 (.ack none)) ∧ tgtAt t p.src.toNat p.part.toNat = markDone (slideWin tw) p.seq ∧
      (p.psn = true → ∀ a ∈ accs, a.2 ≠ [] → poisoned t false a.1 1 = true)))

/-- ATOMIC_PACKET and CAS_PACKET are performed at their home; an ordered packet waits until it is the lowest number not performed, and
ORDERED_PACKET_RELEASE performs it then, where the undo log has room, or drops it where its generation has passed (R135, R323, R349, R480). -/
def Sys2Proof.Machine.AtomicPacketsArePerformed : Prop :=
  (∀ (p : Packet) (s : State) (t0 : TgtStream) (addr : Nat) (o : Bool) (q : AtomReq), FirstHere s p t0 → AtomAsked p addr o q → hostPageOf s p addr = none →
    let tw := slideWin t0
    (addr < hostTag → (o = false ∨ p.seq = tw.base) → Yields (exec (.atomicPacket p) s) (fun t => PerformedHere s t p tw addr q)) ∧
    (addr < hostTag → Yields (exec (.casPacket p) s) (fun t => PerformedHere s t p tw addr q)) ∧
    (o = true → p.seq ≠ tw.base → Yields (exec (.atomicPacket p) s) (fun t => t.mem = s.mem ∧ t.fab.outbox = s.fab.outbox ∧
      tgtAt t p.src.toNat p.part.toNat = { tw with held := tw.held ++ [p] })) ∧
    (hostTag ≤ addr → (o = false ∨ p.seq = tw.base) → Yields (exec (.atomicPacket p) s) (fun t => t.mem = s.mem ∧ t.fab.outbox = s.fab.outbox ∧
      t.host.reads = s.host.reads ++ [⟨s.opSeq, hostKey s p addr, hostPasid s p addr, addr - hostTag, Ty.bytes (reqTy q), .reply p, [], [], 0, 0⟩]))) ∧
  (∀ (src part : Nat) (s : State) (p : Packet) (addr : Nat) (q : AtomReq), p ∈ (tgtAt s src part).held → p.src.toNat = src → p.part.toNat = part →
    (∀ x ∈ (tgtAt s src part).held, x.src.toNat = src ∧ x.part.toNat = part ∧ (pktReq x.body).any (fun y => y.2.1) = true) →
    (∀ x ∈ (tgtAt s src part).held, x.seq = p.seq → x = p) → s.host.reads = [] → s.xl.invalIn = [] → AtomAsked p addr true q →
    addr < hostTag → hostPageOf s p addr = none → p.seq = (tgtAt s src part).base → undoFull s part = false →
    (genOfPart s part p.gen.toNat = .current → Yields (exec (.orderedPacketRelease src part) s) (fun t =>
      PerformedHere s t p (tgtAt s src part) addr q ∧ p ∉ (tgtAt t src part).held)) ∧
    (genOfPart s part p.gen.toNat ≠ .current → Yields (exec (.orderedPacketRelease src part) s) (fun t =>
      t.mem = s.mem ∧ t.fab.outbox = s.fab.outbox ∧ p ∉ (tgtAt t src part).held))) ∧
  (∀ (src part : Nat) (s : State), (∀ x ∈ (tgtAt s src part).held, orderedWait s x = true) →
    exec (.orderedPacketRelease src part) s = .next (progress s))

/-- FETCHED_VALUE_EXPIRY forgets a value 368 ticks after its packet was performed; STREAM_RESET opens the stream at number 1 with an empty
window, and a repeat of it changes nothing, both acknowledged (R37, R41). HOST_READ_COMPLETION delivers what host memory held to the access that
waits, stores the new value of a host atomic, which sees the stores posted since its read left (R331), and puts a migrating page into its frame; a packet
of a generation that has passed is answered and performed no more (R79, R347, R349). -/
def Sys2Proof.Machine.TargetsResetAndComplete : Prop :=
  (∀ (src part : Nat) (seq : BitVec 24) (s : State), Yields (exec (.fetchedValueExpiry src part seq) s) (fun t =>
    (∀ x, x ∈ (tgtAt t src part).fetched ↔ x ∈ (tgtAt s src part).fetched ∧ (x.1 ≠ seq ∨ s.fab.podNs < x.2.2.2 + 46000)) ∧
    (tgtAt t src part).base = (tgtAt s src part).base ∧ (tgtAt t src part).done = (tgtAt s src part).done)) ∧
  (∀ (p : Packet) (s : State), Fresh s p →
    let w := tgtAt s p.src.toNat p.part.toNat
    let again : Prop := w.run = true ∧ ∃ at_, w.lastReset = some (p.low, at_) ∧ s.fab.podNs ≤ at_ + 46000
    Yields (exec (.streamReset p) s) (fun t => t.fab.outbox = s.fab.outbox ++ sentBy s (backTo s p 0x18 (.ack none)) ∧ t.mem = s.mem ∧
      (again → tgtAt t p.src.toNat p.part.toNat = w) ∧
      (¬again → tgtAt t p.src.toNat p.part.toNat = ⟨p.src.toNat, p.part.toNat, true, 1, [], [], [], some (p.low, s.fab.podNs)⟩ ∧
        ∀ i ∈ t.xl.invalIn, i.pkt.src = p.src → i.pkt.part = p.part → i.pkt.kind = 0x10))) ∧
  (∀ (id : Nat) (data : List Byte) (s : State) (r : HostRead),
    s.host.reads.find? (fun x => x.id = id && x.len = data.length && hostIssued s x) = some r →
    let gone (t : State) : Prop := t.host.reads.map HostRead.id = (s.host.reads.filter (fun x => x.id ≠ id)).map HostRead.id
    let seen := leVal (hostSeen r data)
    (∀ a pd sx l va g, r.act = .load a pd sx l va → agent s a = some g → Yields (exec (.hostReadCompletion id data) s) (fun t => gone t ∧
      ∃ h, agent t a = some h ∧ ReplyKept g h pd [(l, extend sx (leVal data))] 0 none)) ∧
    (∀ a pd ls o q g, r.act = .atomic a pd ls o q → agent s a = some g → Yields (exec (.hostReadCompletion id data) s) (fun t => gone t ∧
      t.host.writes = s.host.writes ++ [(r.pasid, r.addr, leBytes (Ty.bytes (reqTy q)) (reqRun q seen).2.1)] ∧
      ∃ h, agent t a = some h ∧ ReplyKept g h pd (ls.zip (reqRun q seen).1) (reqRun q seen).2.2 none)) ∧
    (∀ p addr o q, r.act = .reply p → AtomAsked p addr o q → replyLives s r p = true → Yields (exec (.hostReadCompletion id data) s) (fun t => gone t ∧
      t.host.writes = s.host.writes ++ [(r.pasid, r.addr, leBytes (Ty.bytes (reqTy q)) (reqRun q seen).2.1)] ∧
      t.fab.outbox = s.fab.outbox ++ sentBy s (backTo s p 0x18 (.ack (some (BitVec.ofNat 64 seen)))))) ∧
    (∀ p, r.act = .reply p → replyLives s r p = false → Yields (exec (.hostReadCompletion id data) s) (fun t => gone t ∧
      t.host.writes = s.host.writes ∧ t.fab = s.fab ∧ t.mem = s.mem)) ∧
    (∀ p accs, r.act = .reply p → p.body = .read accs → replyLives s r p = true → Yields (exec (.hostReadCompletion id data) s) (fun t => gone t ∧
      t.fab.outbox = s.fab.outbox ++ sentBy s (backTo s p 0x19 (.data (accs.map (fun a => ((data.drop (a.1 - (spanOf accs).1)).take a.2, false))))))) ∧
    (∀ n, r.act = .io n → Yields (exec (.hostReadCompletion id data) s) (fun t => gone t ∧ ∀ i ∈ t.sched.ios, i.n = n → i.st = .got data false)) ∧
    (∀ n q, r.act = .ioAtom n q → Yields (exec (.hostReadCompletion id data) s) (fun t => gone t ∧
      t.host.writes = s.host.writes ++ [(r.pasid, r.addr, leBytes (Ty.bytes (reqTy q)) (reqRun q seen).2.1)] ∧
      ∀ i ∈ t.sched.ios, i.n = n → i.st = .got (hostSeen r data) false)) ∧
    (∀ n m, r.act = .migr n → s.xl.migs.find? (fun x => x.n = n) = some m → Yields (exec (.hostReadCompletion id data) s) (fun t => gone t ∧
      t.mem.hbm = writeBytes s.mem.hbm m.frame data ∧ ∀ x ∈ t.xl.migs, x.n = n → x.stage = 2)))

/-- The target side of the word plane, as the four statements above say. -/
def Obligations.WordPlaneTargets : Prop := ReadsAreAnswered ∧ WritesArePerformedOnce ∧ AtomicPacketsArePerformed ∧ TargetsResetAndComplete

/-! ## Events of junctions, links and pod time (02). -/

namespace Sys2Proof.Machine

/-- A record is written to every function of a list, once each, where it takes records and holds none (R50, R113). -/
def PostedAll (s t : State) (fns : List Nat) (kind ctx : Nat) (payload : BitVec 256) : Prop :=
  ∀ pre fn post, fns = pre ++ fn :: post → fn ∉ pre → Posted s t fn kind ctx payload
/-- Junction j's answer to a reservation request, under the request's number (R30, R36, R52). -/
def resvAnswer (s : State) (j : Nat) (p : Packet) (r : ResvReq) (ok : Bool) : Packet :=
  { mkPkt s r.part p.gen r.src 0x21 (.resvReply ⟨r.claim, j, ok⟩) with src := BitVec.ofNat 8 (144 + j), seq := p.seq }
/-- The device links a reservation's data come in by and leave by at the junction: none where the junction is that end (R30). -/
def pathEnds (r : ResvReq) : Option Nat × Option Nat :=
  let port (x : Nat) : Option Nat := if x < 144 then some x else none
  if r.out then (port r.src, port r.dst) else (port r.dst, port r.src)
/-- Slots of a frame mapped from one link of a junction to the other: no milepost slot, none in use, no slot twice, and each output slot 1 to
64 flit times after its input slot (R27, R30). -/
def SlotsMapped (s : State) (j : Nat) (src dst : Option Nat) (l : List (Nat × Nat)) : Prop :=
  (l.map Prod.fst).Nodup ∧ (l.map Prod.snd).Nodup ∧ ∀ x ∈ l, x.1 % 16 ≠ 15 ∧ x.2 % 16 ≠ 15 ∧
    (∀ a, src = some a → x.1 ∉ jUsed s j a true) ∧ (∀ b, dst = some b → x.2 ∉ jUsed s j b false) ∧
    (src.isSome = true → dst.isSome = true → ∃ k, 1 ≤ k ∧ k ≤ 64 ∧ x.2 = (x.1 + k) % 1024)
/-- The partition's route leads from an input port of junction j to a target (R52). -/
def RouteHeld (s : State) (j part port tgt : Nat) : Prop :=
  port ∈ jPorts s j part ∧ (if tgt < 144 then tgt ∈ jPorts s j part else tgt = 144 + j)

end Sys2Proof.Machine

/-- RESERVATION_REQUEST, with a header of Table 2-3, not too old and of its partition's generation, is denied without a route, answered again where it
was granted before, granted where both links have room in both directions, with its maps from input slots to output slots, and else not answered; with another header it is discarded and counted at its
input port, and one of a generation that has passed is discarded too. JUNCTION_WORD_FLIT discards and counts a packet of
an unassigned kind or target or with a reserved bit set, drops one too old, discards and counts one the pool of 256 flits has no room for, answers
one without a route with a route error, and sends every other on; JUNCTION_MILEPOST_COPY copies a flit to every port of its destinations (R28, R30,
R31, R34, R38, R44, R52, R53). Which slots the junction picks, what it leaves unanswered and returns, and when a flit leaves the pool is the
model's (logs 20, 41, 46). -/
def Sys2Proof.Machine.JunctionsRouteAndReserve : Prop :=
  (∀ (j : Nat) (p : Packet) (r : ResvReq) (s : State), p.body = .resvReq r →
    let count (s : State) : Nat := ((s.fab.jPool.find? (fun x => x.1 = j && x.2.1 = p.src.toNat)).map (fun x => x.2.2)).getD 0
    ((headerOk p = false ∨ p.kind ≠ 0x20) → Yields (exec (.reservationRequest j p) s) (fun t => count t = count s + 1 ∧
      t.fab.jOut = s.fab.jOut ∧ t.fab.jSlots = s.fab.jSlots)) ∧
    (headerOk p = true → p.kind = 0x20 → (tooOld s p = true ∨ genOfSender s p.part.toNat p.gen.toNat ≠ .current) →
      Yields (exec (.reservationRequest j p) s) (fun t => t.fab = s.fab))) ∧
  (∀ (j : Nat) (p : Packet) (r : ResvReq) (s : State), p.body = .resvReq r → headerOk p = true → p.kind = 0x20 → tooOld s p = false →
    genOfSender s p.part.toNat p.gen.toNat = .current →
    let e := pathEnds r
    let data := seatSlots s j e.1 e.2 r.data
    let ctl := seatSlots s j e.2 e.1 r.ctl
    let room : Prop := jRoom s j r = true ∧ data.length = r.data ∧ ctl.length = r.ctl
    let before : Prop := ∃ x ∈ s.fab.jSlots, x.j = j ∧ x.req = r
    let answered (ok : Bool) (t : State) : Prop := t.fab.jOut = s.fab.jOut ++ [(r.src, resvAnswer s j p r ok)]
    (¬RouteHeld s j r.part r.src r.dst → Yields (exec (.reservationRequest j p) s) (fun t => answered false t ∧ t.fab.jSlots = s.fab.jSlots)) ∧
    (RouteHeld s j r.part r.src r.dst → before → Yields (exec (.reservationRequest j p) s) (fun t => answered true t ∧ t.fab.jSlots = s.fab.jSlots)) ∧
    (RouteHeld s j r.part r.src r.dst → ¬before → room → Yields (exec (.reservationRequest j p) s) (fun t => answered true t ∧
      t.fab.jSlots = s.fab.jSlots ++ [⟨j, r, data, ctl⟩] ∧ SlotsMapped s j e.1 e.2 data ∧ SlotsMapped s j e.2 e.1 ctl)) ∧
    (RouteHeld s j r.part r.src r.dst → ¬before → ¬room → exec (.reservationRequest j p) s = .next (progress s))) ∧
  (∀ (j port : Nat) (p : Packet) (s : State),
    let known : Prop := p.kind.toNat ∈ [0x10, 0x11, 0x12, 0x13, 0x18, 0x19, 0x1A, 0x20, 0x21, 0x22] ∧ p.tgt.toNat ≤ 161 ∧ p.rsv = 0
    let count (s : State) : Nat := ((s.fab.jPool.find? (fun x => x.1 = j && x.2.1 = port)).map (fun x => x.2.2)).getD 0
    let taken : Prop := known ∧ tooOld s p = false ∧ jHeld s j port + flitsOf p ≤ 256
    (¬known → Yields (exec (.junctionWordFlit j port p) s) (fun t => count t = count s + 1 ∧ t.fab.jOut = s.fab.jOut)) ∧
    (known → tooOld s p = true → exec (.junctionWordFlit j port p) s = .next (progress s)) ∧
    (known → tooOld s p = false → 256 < jHeld s j port + flitsOf p → Yields (exec (.junctionWordFlit j port p) s) (fun t =>
      count t = count s + 1 ∧ t.fab.jOut = s.fab.jOut ∧ t.fab.jSlots = s.fab.jSlots)) ∧
    (taken → ¬RouteHeld s j p.part.toNat port p.tgt.toNat →
      (∀ r, p.body = .resvReq r → Yields (exec (.junctionWordFlit j port p) s) (fun t => t.fab.jOut = s.fab.jOut ++ [(r.src, resvAnswer s j p r false)])) ∧
      ((∀ r, p.body ≠ .resvReq r) → Yields (exec (.junctionWordFlit j port p) s) (fun t => t.fab.jOut = s.fab.jOut ++
        [(port, routeErr s p (p.kind.toNat ∈ [0x11, 0x12, 0x13, 0x22]))]))) ∧
    (taken → RouteHeld s j p.part.toNat port p.tgt.toNat →
      (∀ r u, p.body = .resvReq r → p.kind = 0x20 → p.tgt.toNat = 144 + j → exec (.reservationRequest j p) s = .next u →
        Yields (exec (.junctionWordFlit j port p) s) (fun t => t.fab.jOut = u.fab.jOut ∧ t.fab.jSlots = u.fab.jSlots)) ∧
      ((∀ r, p.body = .resvReq r → p.tgt.toNat ≠ 144 + j) → Yields (exec (.junctionWordFlit j port p) s) (fun t =>
        t.fab.jOut = s.fab.jOut ++ [(p.tgt.toNat, p)])))) ∧
  (∀ (j : Nat) (f : Flit) (s : State), Yields (exec (.junctionMilepostCopy j f) s) (fun t => ∃ l, t.fab.jMpOut = s.fab.jMpOut ++ l ∧
    (l.map Prod.fst).Nodup ∧ ∀ d g, (d, g) ∈ l ↔ d < 144 ∧ f.dest.getLsbD d = true ∧ g = f))

/-- LINK_UP and LINK_DOWN follow a port's link and post to the functions that own it; a lost fabric link opens a loss window of 16 ticks and
revokes the claims whose paths it carried; LINK_REPLAY is counted; LINK_MAP_FLIT replaces a junction's map (R33, R47, R49, R50, R400). The port
numbers in the records are the model's (logs 39, 46), and so is which loss opens a window (log 76). -/
def Sys2Proof.Machine.LinksComeAndGo : Prop :=
  (∀ (j : Nat) (s : State),
    Yields (exec (.linkUp (.fab j)) s) (fun t => (j < 18 → t.fab.fabUp.getLsbD j = true) ∧ (∀ i, i ≠ j → t.fab.fabUp.getLsbD i = s.fab.fabUp.getLsbD i) ∧
      PostedAll s t (portOwners s (.fab j)) 0x01 0xFFFF (payWords [j])) ∧
    Yields (exec (.linkUp (.eth j)) s) (fun t => (j < 8 → t.fab.ethUp.getLsbD j = true) ∧ (∀ i, i ≠ j → t.fab.ethUp.getLsbD i = s.fab.ethUp.getLsbD i) ∧
      PostedAll s t (portOwners s (.eth j)) 0x01 0xFFFF (payWords [32 + j])) ∧
    Yields (exec (.linkDown (.fab j)) s) (fun t => t.fab.fabUp.getLsbD j = false ∧ (∀ i, i ≠ j → t.fab.fabUp.getLsbD i = s.fab.fabUp.getLsbD i) ∧
      t.fab.losses = s.fab.losses ++ [(j, podTick s - 16, podTick s)] ∧
      (∀ id c, s.eng.slots = [(id, ⟨0, some c⟩)] → c.st = .ready → (∃ r ∈ s.fab.resvs, r.claim = id ∧ r.j = j) →
        claimAt t id = some { c with st := .revoked, reason := 3, routed := false, queued := false, park := false, inval := none, cause := 0 } ∧
        ∀ r ∈ t.fab.resvs, r.claim ≠ id) ∧
      (s.eng.slots = [] → PostedAll s t (portOwners s (.fab j)) 0x02 0xFFFF (payWords [j]))) ∧
    Yields (exec (.linkDown (.eth j)) s) (fun t => t.fab.ethUp.getLsbD j = false ∧ (∀ i, i ≠ j → t.fab.ethUp.getLsbD i = s.fab.ethUp.getLsbD i) ∧
      t.eng = s.eng ∧ PostedAll s t (portOwners s (.eth j)) 0x02 0xFFFF (payWords [32 + j]))) ∧
  (∀ (p : PortId) (s : State), Yields (exec (.linkReplay p) s) (fun t =>
    lkp t.fab.replays p = some ((lkp s.fab.replays p).getD 0 + 1) ∧ ∀ q, q ≠ p → lkp t.fab.replays q = lkp s.fab.replays q)) ∧
  (∀ (j : Nat) (down : List Nat) (s : State), Yields (exec (.linkMapFlit j down) s) (fun t =>
    (lkp t.fab.linkDownMap j).getD [] = down ∧ (∀ i, i ≠ j → lkp t.fab.linkDownMap i = lkp s.fab.linkDownMap i) ∧
    (∀ id c, s.eng.slots = [(id, ⟨0, some c⟩)] → c.st = .ready →
      ((∃ r ∈ s.fab.resvs, r.claim = id ∧ r.j = j ∧ r.tgt ∈ down ∧ mapDown s j r.tgt = false) →
        claimAt t id = some { c with st := .revoked, reason := 3, routed := false, queued := false, park := false, inval := none, cause := 0 }) ∧
      ((∀ r ∈ s.fab.resvs, r.claim = id → r.j = j → r.tgt ∉ down) → claimAt t id = some c))))

/-- TIME_BASE_FLIT: a synchronised device takes the master's time, never backward; one that is not closes on it by at most 1 ns in each
microsecond; a copy ahead of the master's keeps its lead in mind, to lose it as time passes (the model's choice, log 3). TIME_MASTER_TAKEOVER names
the lowest junction all of whose device links are up, else the lowest of those with the most up, and none where no junction has one.
TIME_BASE_LOST after 1 ms without a flit and TIME_BASE_REGAINED within 4 ns post their records (R47, R48). -/
def Sys2Proof.Machine.PodTimeIsKept : Prop :=
  (∀ (ns : Nat) (s : State), Yields (exec (.timeBaseFlit ns) s) (fun t => s.fab.podNs ≤ t.fab.podNs ∧ t.fab.lastTb = t.fab.podNs ∧
    t.fab.masterHeard = ns ∧ t.fab.lead = t.fab.podNs - ns ∧ (s.fab.synced = true → t.fab.podNs = max s.fab.podNs ns) ∧
    (s.fab.synced = false → t.fab.podNs = min (max s.fab.podNs ns) (s.fab.podNs + (s.fab.podNs / 1000 - s.fab.lastTb / 1000))))) ∧
  (∀ s : State,
    ((∀ i, i < 18 → jUp s i = 0) → Yields (exec .timeMasterTakeover s) (fun t => t.fab.podNs = s.fab.podNs ∧ t.fab.master = none)) ∧
    ((∃ i, i < 18 ∧ jUp s i ≠ 0) → Yields (exec .timeMasterTakeover s) (fun t => t.fab.podNs = s.fab.podNs ∧ ∃ m, t.fab.master = some m ∧ m < 18 ∧
      (∀ i, i < m → jUp s i ≠ 144) ∧
      (jUp s m ≠ 144 → ∀ i, i < 18 → jUp s i ≠ 144 ∧ jUp s i ≤ jUp s m ∧ (i < m → jUp s i < jUp s m))))) ∧
  (∀ s : State,
    (s.fab.synced = true → s.fab.lastTb + 1000000 ≤ s.fab.podNs → Yields (exec .timeBaseLost s) (fun t => t.fab.synced = false ∧
      PostedAll s t (timeFns s) 0x0C 0xFFFF (payWords [1]))) ∧
    (¬(s.fab.synced = true ∧ s.fab.lastTb + 1000000 ≤ s.fab.podNs) → exec .timeBaseLost s = .next (progress s)) ∧
    (let near : Prop := s.fab.podNs < s.fab.lastTb + 1000000 ∧ s.fab.lastTb ≤ s.fab.masterHeard + 4 ∧ s.fab.masterHeard ≤ s.fab.lastTb + 4
     (s.fab.synced = false → near → Yields (exec .timeBaseRegained s) (fun t => t.fab.synced = true ∧ PostedAll s t (timeFns s) 0x0C 0xFFFF (payWords [0]))) ∧
     (¬(s.fab.synced = false ∧ near) → exec .timeBaseRegained s = .next (progress s))))

/-- Junctions, links and pod time, as the three statements above say. -/
def Obligations.JunctionsLinksAndTime : Prop := JunctionsRouteAndReserve ∧ LinksComeAndGo ∧ PodTimeIsKept

/-! ## Events of mileposts and notices (02, 28). -/

namespace Sys2Proof.Machine

/-- Junctions a device can inject a flit on: its three, with live links to every destination (R43, R46). -/
def injectors (s : State) (f : Flit) : List Nat := (mpJcts s.mod.poddev).filter (fun j => mpQualifies s j f.dest)
/-- Those whose opportunity of this tick has not gone out. -/
def openings (s : State) (f : Flit) : List Nat := (injectors s f).filter (fun j => !mpUsed s j)
/-- A flit of the notice store that passes the checks of R457: its group is known here and its sender is the member at its stated rank. -/
def FlitTaken (s : State) (f : Flit) (gid rank : Nat) (grp : NGroup) : Prop :=
  genOfSender s f.part.toNat f.gen.toNat = .current ∧ groupGid s gid = some grp ∧
  ∃ m, grp.members[rank]? = some m ∧ m.dev = f.src.toNat ∧ m.part = f.part.toNat
/-- A notice as the flit that carries it says (Table 28-2). -/
def noticeIn (f : Flit) (t : Nat) (seen : Bool) : Notice :=
  { rank := fld f.payload 135 130, itick := t, win := fld f.payload 143 136, key := f.payload.extractLsb' 160 32,
    word := fld f.payload 129 121, value := f.payload.extractLsb' 192 64, objs := [], out := 1, seen := seen }
/-- The notice's outcome by R459: a conflicting notice goes before it, else it was objected to, else a loss leaves it unknown, else it applies. -/
def outcomeOf (s : State) (grp : NGroup) (n : Notice) : Nat :=
  let first (m : Notice) : Bool := m.itick < n.itick || (m.itick = n.itick && m.rank < n.rank)
  let near (m : Notice) : Bool := m.key = n.key && m.itick ≤ n.itick + n.win + 3 && n.itick ≤ m.itick + m.win + 3
  if grp.notices.any (fun m => first m && near m) then 4
  else if n.objs ≠ [] then 3
  else if unknownHere s grp n then 5 else 2

end Sys2Proof.Machine

/-- MILEPOST_INJECT sends the head of the queue in this tick: notice-store flits on every junction of the device that serves all their
destinations and has its opportunity left, any other on one; the notice then stands known at its device. Without such a junction, or without
pod time, the send ends unreachable; an objection to a closed notice is dropped (R43, R46, R48, R457, R458). -/
def Sys2Proof.Machine.FlitsAreInjected : Prop :=
  (∀ s : State, s.fab.mpQueue = [] → exec .milepostInject s = .next (progress s)) ∧
  (∀ (s : State) (m : MpSend) (r : List MpSend), s.fab.mpQueue = m :: r →
    let late : Prop := m.flit.kind = 2 ∧ objLate s m.flit = true
    let all : Prop := m.flit.kind = 1 ∨ m.flit.kind = 2 ∨ m.flit.kind = 3
    (late → Yields (exec .milepostInject s) (fun t => t.fab.mpQueue = mpNext s.fab.mpQueue ∧ t.fab.mpOut = s.fab.mpOut ∧
      (∀ a g, m.owner = some a → agent s a = some g → agent t a = some { g with mpSt := .late }) ∧
      (m.owner = none → ∀ grp, groupGid s (fld m.flit.payload 207 192) = some grp →
        groupGid t (fld m.flit.payload 207 192) = some { grp with flate := sat16 grp.flate }))) ∧
    (¬late → (injectors s m.flit = [] ∨ s.fab.synced = false) → Yields (exec .milepostInject s) (fun t => t.fab.mpQueue = mpNext s.fab.mpQueue ∧
      t.fab.mpOut = s.fab.mpOut ∧ t.ntc = s.ntc ∧ ∀ a g, m.owner = some a → agent s a = some g → agent t a = some { g with mpSt := .unreachable })) ∧
    (¬late → injectors s m.flit ≠ [] → s.fab.synced = true → openings s m.flit = [] → exec .milepostInject s = .next (progress s)) ∧
    (¬late → s.fab.synced = true → ∀ j js, openings s m.flit = j :: js → Yields (exec .milepostInject s) (fun t =>
      let f := { m.flit with itick := BitVec.ofNat 48 (podTick s) }
      t.fab.mpQueue = mpNext s.fab.mpQueue ∧ (all → t.fab.mpOut = s.fab.mpOut ++ (openings s m.flit).map (fun i => (i, f))) ∧
      (¬all → t.fab.mpOut = s.fab.mpOut ++ [(j, f)]) ∧
      (∀ a g, m.owner = some a → agent s a = some g → agent t a = some { g with mpSt := .injected (podTick s) }) ∧
      (m.flit.kind = 1 → ∀ grp, groupGid s (fld f.payload 159 144) = some grp →
        groupGid t (fld f.payload 159 144) = some { grp with notices := grp.notices ++ [noticeIn f (podTick s) false] }))))

/-- MILEPOST_DELIVERY drops a flit of a newer generation, counts one of an older, and acts on any other by its kind: a notice, an
objection, an outcome, a checkpoint mark, the time base, or the link map; a flit of another kind is counted (R45, R53, R129, Table 2-5).
How the time base and the link map lie in their payloads is the model's (log 46). -/
def Sys2Proof.Machine.FlitsAreDelivered : Prop :=
  ∀ (f : Flit) (s : State),
    (flitGen s f = .newer → exec (.milepostDelivery f) s = .next (progress s)) ∧
    (∀ v x, flitGen s f = .older → f.kind = 4 → markTen f = v → func s v = some x → Yields (exec (.milepostDelivery f) s) (fun t =>
      func t v = some { x with stale := sat32 x.stale } ∧ t.ck = s.ck ∧ t.fab = s.fab)) ∧
    (flitGen s f = .current →
      (f.kind = 1 → exec (.milepostDelivery f) s = exec (.noticeFlit f) s) ∧
      (f.kind = 2 → exec (.milepostDelivery f) s = exec (.objectionFlit f) s) ∧
      (f.kind = 3 → exec (.milepostDelivery f) s = exec (.outcomeFlit f) s) ∧
      (f.kind = 4 → (markOp f = 1 → exec (.milepostDelivery f) s = exec (.cutMark f) s) ∧
        (markOp f = 2 → exec (.milepostDelivery f) s = exec (.doneMark f) s) ∧
        (markOp f = 3 → exec (.milepostDelivery f) s = exec (.commitMark f) s) ∧
        (markOp f = 4 → exec (.milepostDelivery f) s = exec (.sliceendMark f) s) ∧
        (markOp f = 5 → exec (.milepostDelivery f) s = exec (.resetMark f) s) ∧
        (markOp f ∉ [1, 2, 3, 4, 5] → exec (.milepostDelivery f) s = .next (progress s))) ∧
      (f.kind = 5 → exec (.milepostDelivery f) s = exec (.timeBaseFlit (fld f.payload 63 0)) s) ∧
      (f.kind = 6 → exec (.milepostDelivery f) s = exec (.linkMapFlit (f.src.toNat - 0x100) (bitsOf f.payload 144)) s) ∧
      (f.kind = 0 ∨ 6 < f.kind.toNat → Yields (exec (.milepostDelivery f) s) (fun t => t.fab.mpDisc = s.fab.mpDisc + 1 ∧ t.ntc = s.ntc)))

/-- NOTICE_FLIT makes a notice known and visible, where a filter of a member block that matches objects for it; OBJECTION_FLIT counts a
member's first objection of a tick before the close; OUTCOME_FLIT gives an UNKNOWN notice its poster's outcome within 4 ticks of E; a flit
that fails its checks is discarded and counted (R457, R458, R461, R462, R464). -/
def Sys2Proof.Machine.NoticeFlitsAct : Prop :=
  (∀ (f : Flit) (s : State) (grp : NGroup),
    let gid := fld f.payload 159 144
    let rank := fld f.payload 135 130
    let sound : Prop := fld f.payload 120 0 = 0 ∧ 6 ≤ fld f.payload 143 136
    (FlitTaken s f gid rank grp → sound → noticeOf grp rank (wideTick s f.itick.toNat) = none → Yields (exec (.noticeFlit f) s) (fun t =>
      groupGid t gid = some { grp with notices := grp.notices ++ [noticeIn f (wideTick s f.itick.toNat) true] } ∧
      (filterBlocks s = [] → t.fab.mpQueue = s.fab.mpQueue) ∧
      (∀ b k slot rule ctl r m, filterBlocks s = [(b, k)] → k.filters = [(slot, grp.handle, rule, ctl)] → grp.ctx = ckey k.part k.ctx →
        memberRank s grp k.part k.ctx k.gteam k.blockNo = some r → grp.members[r]? = some m → fld ctl 5 4 = 1 →
        (f.payload.extractLsb' 160 32 &&& rule.extractLsb' 0 32) = (rule.extractLsb' 32 32 &&& rule.extractLsb' 0 32) →
        (∀ x ∈ s.fab.mpQueue, x.flit.kind = 2) → t.fab.mpQueue = s.fab.mpQueue ++
          [⟨mkFlit s k.part (fnGen s grp.fn) (groupDest grp) 2 (objPayload (wideTick s f.itick.toNat) gid rank r), none⟩]))) ∧
    (∀ n, FlitTaken s f gid rank grp → sound → noticeOf grp rank (wideTick s f.itick.toNat) = some n → n.seen = true →
      exec (.noticeFlit f) s = .next (progress s)) ∧
    (FlitTaken s f gid rank grp → ¬sound → Yields (exec (.noticeFlit f) s) (fun t => groupGid t gid = some { grp with disc := sat16 grp.disc })) ∧
    (genOfSender s f.part.toNat f.gen.toNat = .current → groupGid s gid = none → Yields (exec (.noticeFlit f) s) (fun t =>
      t.ntc.disc = sat32 s.ntc.disc ∧ t.ntc.groups = s.ntc.groups))) ∧
  (∀ (f : Flit) (s : State) (grp : NGroup),
    let gid := fld f.payload 207 192
    let orank := fld f.payload 185 180
    FlitTaken s f gid orank grp → fld f.payload 179 0 = 0 →
      (noticeOf grp (fld f.payload 191 186) (fld f.payload 255 208) = none → Yields (exec (.objectionFlit f) s) (fun t =>
        groupGid t gid = some { grp with disc := sat16 grp.disc })) ∧
      (∀ n, noticeOf grp (fld f.payload 191 186) (fld f.payload 255 208) = some n →
        (n.objs.any (fun o => o.1 = orank) = true → exec (.objectionFlit f) s = .next (progress s)) ∧
        (n.objs.any (fun o => o.1 = orank) = false → n.out ≠ 1 → Yields (exec (.objectionFlit f) s) (fun t =>
          groupGid t gid = some { grp with disc := sat16 grp.disc })) ∧
        (n.objs.any (fun o => o.1 = orank) = false → n.out = 1 → n.itick + n.win ≤ wideTick s f.itick.toNat → exec (.objectionFlit f) s = .next (progress s)) ∧
        (n.objs.any (fun o => o.1 = orank) = false → n.out = 1 → wideTick s f.itick.toNat < n.itick + n.win → Yields (exec (.objectionFlit f) s) (fun t =>
          ∃ h, groupGid t gid = some h ∧ noticeOf h n.rank n.itick = some { n with objs := n.objs ++ [(orank, wideTick s f.itick.toNat)] })))) ∧
  (∀ (f : Flit) (s : State) (grp : NGroup) (n : Notice),
    let gid := fld f.payload 207 192
    let rank := fld f.payload 191 186
    let res := fld f.payload 185 183
    let due : Prop := n.out = 5 ∧ podTick s ≤ n.itick + n.win + 7 ∧ (res = 2 ∨ res = 3 ∨ res = 4)
    FlitTaken s f gid rank grp → fld f.payload 182 0 = 0 → noticeOf grp rank (fld f.payload 255 208) = some n →
      (¬due → exec (.outcomeFlit f) s = .next (progress s)) ∧
      (due → Yields (exec (.outcomeFlit f) s) (fun t => ∃ h, groupGid t gid = some h ∧ noticeOf h n.rank n.itick = some { n with out := res } ∧
        (res ≠ 2 → t.mem = s.mem ∧ h.appl = grp.appl) ∧ (res = 2 → h.appl = grp.appl + 1))))

/-- NOTICE_DECIDE, at tick E of a pending notice, sets its outcome; one that applies is stored to the boards of this device's members; the
poster's device sends the outcome. OUTCOME_EXPIRY forgets an outcome 1,024 ticks after E; UNKNOWN_OUTCOME_DEADLINE ends the waits on an outcome
that stays unknown (R459, R460, R464). -/
def Sys2Proof.Machine.NoticesAreDecided : Prop :=
  (∀ (gid : BitVec 16) (rank itick : Nat) (s : State) (grp : NGroup) (n : Notice), groupGid s gid.toNat = some grp →
    noticeOf grp rank itick = some n →
    (n.out ≠ 1 ∨ podTick s < n.itick + n.win + 3 → exec (.noticeDecide gid rank itick) s = .next (progress s)) ∧
    (n.out = 1 → n.itick + n.win + 3 ≤ podTick s →
      let out := outcomeOf s grp n
      Yields (exec (.noticeDecide gid rank itick) s) (fun t => ∃ h, groupGid t gid.toNat = some h ∧ noticeOf h rank itick = some { n with out := out } ∧
        (out ≠ 2 → t.mem = s.mem ∧ h.appl = grp.appl) ∧
        (out = 2 → h.appl = grp.appl + 1 ∧
          ((∀ m ∈ grp.members, m.dev ≠ s.mod.poddev) → t.mem = s.mem) ∧
          ∀ m u pa, grp.members.filter (fun x => x.dev = s.mod.poddev) = [m] → boardAt s m n.word .wr = (u, some pa) →
            t.mem.hbm = writeBytes u.mem.hbm pa (leBytes 8 n.value.toNat)) ∧
        (∀ m, grp.members[rank]? = some m →
          (m.dev ≠ s.mod.poddev → t.fab.mpQueue = s.fab.mpQueue) ∧
          (m.dev = s.mod.poddev → t.fab.mpQueue = s.fab.mpQueue ++
            [⟨mkFlit s m.part (fnGen s grp.fn) (groupDest grp) 3 (outPayload itick gid.toNat rank out), none⟩]))))) ∧
  (∀ (gid : BitVec 16) (rank itick : Nat) (s : State) (grp : NGroup), groupGid s gid.toNat = some grp →
    Yields (exec (.outcomeExpiry gid rank itick) s) (fun t => ∃ h, groupGid t gid.toNat = some h ∧ ∀ n, n ∈ h.notices ↔ n ∈ grp.notices ∧
      ¬(n.rank = rank ∧ n.itick = itick ∧ n.out ≠ 1 ∧ n.itick + n.win + 3 + 1024 < podTick s))) ∧
  (∀ (gid : BitVec 16) (rank itick : Nat) (s : State) (grp : NGroup) (n : Notice), groupGid s gid.toNat = some grp →
    noticeOf grp rank itick = some n →
    (n.out = 5 → n.itick + n.win + 7 ≤ podTick s → exec (.unknownOutcomeDeadline gid rank itick) s = .next (progress s)) ∧
    (n.out ≠ 5 ∨ podTick s < n.itick + n.win + 7 → exec (.unknownOutcomeDeadline gid rank itick) s = .next s))

/-- The milepost plane and the notice store, as the four statements above say. -/
def Obligations.MilepostsAndNotices : Prop := FlitsAreInjected ∧ FlitsAreDelivered ∧ NoticeFlitsAct ∧ NoticesAreDecided

/-! ## Events of the module (01). -/

namespace Sys2Proof.Machine

/-- A core that may lead: one of the twelve command cores, which passed its check (R14, R15). -/
def Leads (pass : BitVec 24) (c : Nat) : Prop := c < 24 ∧ c % 2 = 1 ∧ pass.getLsbD c = true
/-- The module holds nothing that power keeps: memories, agents, streams and functions are gone, flash and fuses stay (R21, R23, Table 1-7). -/
def Cleared (s t : State) : Prop :=
  t.mem = ⟨[], [], []⟩ ∧ t.agents = [] ∧ t.blocks = [] ∧ t.fab.srcs = [] ∧ t.fab.tgts = [] ∧ t.fab.entries = [] ∧ t.xl.ctxs = [] ∧ t.host.funcs = [] ∧
  t.part.parts = [] ∧ t.sched.rings = [] ∧ t.net.qps = [] ∧ t.ntc.groups = [] ∧ t.mod.flash = s.mod.flash ∧ t.mod.sel = s.mod.sel
/-- Every VF shows the partition whose table entry names it (R104). -/
def ViewsAgree (s : State) : Prop := ∀ fn f, fn ≠ 0 → func s fn = some f →
  f.part = ((s.part.parts.find? (fun p => (partVfs p).contains fn)).map (fun p => BitVec.ofNat 16 p.part)).getD 0xFFFF

end Sys2Proof.Machine

/-- POWER_GOOD brings the module up with cleared memories, the lowest command core that passed its check leading, the bundle in force and its
version burnt, and FAULT naming what failed; VIRTUAL_FUNCTION_PRESENTATION presents the PF and 32 VFs in generation 1, which need a reset
where bring-up failed; heat beyond its limit and loss of power clear the module (R14, R19, R21 to R24).
The bits of the failure cause are the model's (log 39), the state without power too (logs 1, 2). -/
def Sys2Proof.Machine.TheModuleComesUp : Prop :=
  (∀ (b : BringUp) (s : State),
    (s.mod.power = .ready ∨ s.mod.power = .presented → exec (.powerGood b) s = .next (progress s)) ∧
    (s.mod.power ≠ .ready → s.mod.power ≠ .presented → Yields (exec (.powerGood b) s) (fun t => Cleared s t ∧ t.mod.power = .ready ∧
      t.mod.poddev = b.poddev ∧ t.mod.fwver = b.fwver ∧ t.mod.scFailed = ~~~ b.scPass ∧ t.mod.inForce = s.mod.sel ∧
      (∀ i, i < 12 → t.mod.stackLost.getLsbD i = (!b.scPass.getLsbD (2 * i) && !b.scPass.getLsbD (2 * i + 1))) ∧
      (t.mod.fault.getLsbD 0 = !b.bundleOk) ∧ (t.mod.fault.getLsbD 1 = decide (b.stacksOk ≠ 0xFFF)) ∧ (t.mod.fault.getLsbD 2 = decide (b.diesOk ≠ 0xF)) ∧
      (t.mod.fault = 0 ↔ b.bundleOk = true ∧ b.stacksOk = 0xFFF ∧ b.diesOk = 0xF) ∧
      (b.bundleOk = true → t.mod.rollback = max s.mod.rollback (selVersion s)) ∧ (b.bundleOk = false → t.mod.rollback = s.mod.rollback) ∧
      (∀ c, t.mod.leader = some c → Leads b.scPass c ∧ ∀ d, Leads b.scPass d → c ≤ d) ∧ (t.mod.leader = none → ∀ d, ¬Leads b.scPass d)))) ∧
  (∀ s : State,
    (s.mod.power ≠ .ready → exec .virtualFunctionPresentation s = .next (progress s)) ∧
    (s.mod.power = .ready → Yields (exec .virtualFunctionPresentation s) (fun t => t.mod.power = .presented ∧ t.host.funcs.length = 33 ∧
      (∀ n, 33 ≤ n → func t n = none) ∧ ∀ n, n < 33 → ∃ f, func t n = some f ∧ f.gen = 1 ∧ f.part = 0xFFFF ∧ f.status = 0 ∧ f.reading = false ∧
        f.needsReset = decide (s.mod.fault ≠ 0))) ∧
    Yields (exec .thermalShutdown s) (fun t => Cleared s t ∧ t.mod.power = .shutdown) ∧
    Yields (exec .modulePowerLoss s) (fun t => Cleared s t ∧ t.mod.power = .off ∧ t.mod.rollback = s.mod.rollback))

/-- SERVICE_CORE_TAKEOVER hands a failed core's duties to the other core of its stack, or, when both have failed, withdraws the stack's memory,
with the translations that lead there, and posts it; THERMAL_HIGH halves the token counts and posts the die, THERMAL_RESTORE gives them back; PATROL_SCRUB counts a corrected error
and marks a line that cannot be corrected (R13, R15, R19). What the records hold, and what becomes of a lost stack's accesses, is the model's (logs
46, 65). -/
def Sys2Proof.Machine.TheModuleGuardsItself : Prop :=
  (∀ (sc : Nat) (s : State), sc < 24 →
    let other := if sc % 2 = 0 then sc + 1 else sc - 1
    (s.mod.scFailed.getLsbD other = false → Yields (exec (.serviceCoreTakeover sc) s) (fun t => t.mod.scFailed.getLsbD sc = true ∧
      (s.mod.leader = some sc → t.mod.leader = some other) ∧ t.mod.stackLost = s.mod.stackLost ∧ t.part = s.part ∧ t.host = s.host)) ∧
    (s.mod.scFailed.getLsbD other = true → Yields (exec (.serviceCoreTakeover sc) s) (fun t => t.mod.scFailed.getLsbD sc = true ∧
      t.mod.stackLost.getLsbD (sc / 2) = true ∧
      t.part.parts = s.part.parts.map (fun p => { p with hbmc := (List.range 12).map (fun i => if i = sc / 2 then 0 else p.hbmc.getD i 0) }) ∧
      (∀ u ∈ t.part.units, u.1 / 11 ≠ sc / 2) ∧ (∀ x ∈ t.xl.cache, x.loc = .dev s.mod.poddev → x.pa / 0xC00000000 ≠ sc / 2) ∧
      (pinnedIn s (sc / 2) = [] → ViewsAgree s → PostedAll s t (allFns s) 0x03 0xFFFF (payWords [sc / 2]))))) ∧
  (∀ (die : Nat) (s : State), Yields (exec (.thermalHigh die) s) (fun t => t.mod.halving = true ∧ PostedAll s t (allFns s) 0x04 0xFFFF (payWords [die]) ∧
    ∀ p d, s.part.parts = [p] → d < 4 → tokenCount s p d ≠ 0 →
      ((s.part.tokEff.find? (fun x => x.1 = p.part && x.2.1 = d)).map (fun x => x.2.2)).getD 0 ≠ max 1 (tokenCount s p d / 2) →
      (p.part, d, max 1 (tokenCount s p d / 2)) ∈ t.part.tokPend)) ∧
  (∀ s : State, Yields (exec .thermalRestore s) (fun t => t.mod.halving = false ∧ ∀ p d, s.part.parts = [p] → d < 4 →
    ((s.part.tokEff.find? (fun x => x.1 = p.part && x.2.1 = d)).map (fun x => x.2.2)).getD 0 ≠ tokenCount s p d →
    (p.part, d, tokenCount s p d) ∈ t.part.tokPend)) ∧
  (∀ (line : Nat) (s : State), exec (.patrolScrub line .clean) s = .next s ∧
    exec (.patrolScrub line .correctable) s = .next { s with mod := { s.mod with ceCount := s.mod.ceCount + 1 } } ∧
    Yields (exec (.patrolScrub line .uncorrectable) s) (fun t => poisoned t false (64 * line) 64 = true ∧ t.mem.hbm = s.mem.hbm ∧
      ∀ l, l ≠ line → poisoned t false (64 * l) 64 = poisoned s false (64 * l) 64))

/-- The module's own events, as the two statements above say. -/
def Obligations.TheModule : Prop := TheModuleComesUp ∧ TheModuleGuardsItself

/-! ## Events of the driver, and resets (05, 06). -/

namespace Sys2Proof.Machine

/-- No work of a function's tenant is left on the device: no warp, stream, queue, launch, record or claim; its queue pairs are in Reset (steps 1
to 3 of R130, R101). -/
def TenantStopped (s t : State) (fn : Nat) : Prop :=
  (∀ e ∈ t.agents, e.2.fn ≠ fn) ∧ (∀ r ∈ t.sched.rings, r.fn ≠ fn) ∧ (∀ l ∈ t.sched.launches, l.fn ≠ fn) ∧ (∀ c ∈ t.sched.conts, c.fn ≠ fn) ∧
  (∀ e ∈ t.eng.slots, ∀ c, e.2.claim = some c → c.ctx ∉ keysOf s fn) ∧ (∀ q ∈ t.net.qps, q.fn = fn → q.st = .reset ∧ q.sq = [])
/-- Nor a context, translation, region or group (step 6). -/
def TenantGone (s t : State) (fn : Nat) : Prop :=
  TenantStopped s t fn ∧ (∀ c ∈ t.xl.ctxs, c.fn ≠ fn) ∧ (∀ x ∈ t.xl.cache, x.ctx ∉ keysOf s fn) ∧ (∀ m ∈ t.net.mrs, m.fn ≠ fn) ∧
  (∀ g ∈ t.ntc.groups, g.fn ≠ fn)
/-- A checkpoint mark queued for devices (Table 6-5). -/
def markOf (s : State) (part : Nat) (gen : BitVec 16) (dest : List Nat) (op fn ngen : Nat) : MpSend :=
  ⟨mkFlit s part gen (maskOf 144 dest) 4 (markPayload 0 0 op fn ngen), none⟩

/-- The watchdog's record as function fn is given it: the generation is the one of the function whose packet ran too long (R139, log 30). -/
def expiryOf (s : State) (fn seq : Nat) (gen : BitVec 16) (x : WqReq) (q pkt : Nat) : EvRec :=
  ⟨fn, 0x09, seq, gen.toNat, x.hdr.ctxid.toNat, s.fab.podNs, payWords [q + pkt * 65536]⟩

end Sys2Proof.Machine

/-- DRIVER_NOTIFICATION reads the new chains of an enabled queue: commands wait their turn, event buffers are posted and take what was held, requests
join their ring, a chain no status can be written to needs a reset; while the function does not read its queues the chains stay, to be read when it
does; FEATURES_OK_WRITE fixes an accepted set; CONFIG_REGISTER_WRITE sets the device
status, 0 resetting the function, sets up the queue that is selected, and holds the other common registers (R103 to R108, R114 to R116, R118). The
offsets of the registers and the bits of the status are virtio's, which queue sizes are taken and which chains are malformed the model's
(logs 23, 24). -/
def Sys2Proof.Machine.TheDriverIsServed : Prop :=
  (∀ (fn q : Nat) (chains : List Chain) (s : State) (f : Func), func s fn = some f →
    let f1 := setVq f ((chains.filter (fun c => formOf q c ≠ .noWritable)).foldl (fun v c => readChain v c.descs) (vqOf fn f q))
    let able : Prop := queueOn fn f q = true ∧ (servedBy s.mod fn).isSome = true
    let served : Prop := f.reading = true ∧ able
    let after (P : State → Prop) : Prop := Yields (exec (.driverNotification fn q chains) s) P
    (f.reading = false → exec (.driverNotification fn q chains) s =
      .next (progress { s with host := { s.host with unread := s.host.unread ++ chains.map (fun c => (fn, q, c)) } })) ∧
    (f.reading = true → ¬able → exec (.driverNotification fn q chains) s = .next (progress s)) ∧
    (served →
      (q = 0 → after (fun t => func t fn = some f1 ∧
        t.host.ctlQ = s.host.ctlQ ++ chains.map (fun c => (fn, ⟨fn, c.hdr, c.args, c.len, c.room⟩, formOf 0 c)))) ∧
      (q = 1 → (∀ c ∈ chains, formOf 1 c = .ok) → f.held = [] → f.lost = 0 → (fn = 0 → s.host.heldS2 = []) → s.xl.s2 = [] → after (fun t =>
        func t fn = some { f1 with buffers := f.buffers + chains.length })) ∧
      (∀ r rest, q = 1 → f.held = r :: rest → f.lost = 0 → fn ≠ 0 → (∃ c ∈ chains, formOf 1 c = .ok) → after (fun t =>
        { r with seq := f.seq.toNat } ∈ t.host.events)) ∧
      (1 ≤ q → (∃ c ∈ chains, formOf q c = .noWritable ∨ (q = 1 ∧ formOf q c ≠ .ok)) → after (fun t => ∃ h, func t fn = some h ∧ h.needsReset = true)) ∧
      (2 ≤ q → (∀ c ∈ chains, formOf q c ≠ .noWritable) → chains ≠ [] → after (fun t => func t fn = some f1 ∧
        ∃ r, ringAt t fn (q - 2) = some r ∧ r.reqs = ((ringAt s fn (q - 2)).map Ring.reqs).getD [] ++
          chains.map (fun c => ⟨c.hdr, if formOf q c = .ok then c.words else [], formOf q c ≠ .ok⟩))))) ∧
  (∀ (fn : Nat) (bits : W64) (s : State) (f : Func), func s fn = some f →
    let good : Prop := bits &&& ~~~ (offered s fn) = 0 ∧ bits.extractLsb' 32 3 = 0b111
    (f.status.getLsbD 3 = false → good → Yields (exec (.featuresOkWrite fn bits) s) (fun t =>
      func t fn = some { f with features := bits, status := f.status ||| 8 })) ∧
    (f.status.getLsbD 3 = true ∨ ¬good → Yields (exec (.featuresOkWrite fn bits) s) (fun t => func t fn = some f))) ∧
  (∀ (fn off : Nat) (v : W32) (s : State) (f : Func), func s fn = some f →
    let vq := vqOf fn f (selQueue f)
    let n := v.toNat % 65536
    let becomes (h : Func) : Prop := Yields (exec (.configRegisterWrite fn (.bar off) v) s) (fun t => func t fn = some h)
    let sized : Prop := vq.on = false ∧ n ≤ queueMax fn f vq.num ∧ ∃ k, n = 2 ^ k
    (off = 0x14 → v.extractLsb' 0 8 = 0 → exec (.configRegisterWrite fn (.bar off) v) s = exec (.deviceStatusReset fn) s) ∧
    (off = 0x14 → v.extractLsb' 0 8 ≠ 0 → Yields (exec (.configRegisterWrite fn (.bar off) v) s) (fun t => ∃ h, func t fn = some h ∧
      h.status.getLsbD 3 = f.status.getLsbD 3 ∧ (∀ i, i ≠ 3 → i < 8 → h.status.getLsbD i = v.getLsbD i) ∧
      h.reading = (v.getLsbD 2 && f.status.getLsbD 3 &&
        (f.reading || (!s.host.resets.any (fun r => r.fn = fn) && (!f.needsReset || s.mod.fault ≠ 0)))) ∧ h.gen = f.gen ∧
      (h.reading = true → (servedBy s.mod fn).isSome = true → ∀ q c, queueOn fn f q = true → (fn, q, c) ∉ t.host.unread))) ∧
    (off = 0x18 → (sized → becomes (setVq f { vq with size := n })) ∧ (¬sized → becomes f)) ∧
    (off = 0x1C → (n = 1 ∧ queueMax fn f vq.num ≠ 0 → becomes (setVq f { vq with on := true })) ∧ (¬(n = 1 ∧ queueMax fn f vq.num ≠ 0) → becomes f)) ∧
    (vq.on = false → queueMax fn f vq.num ≠ 0 →
      (off = 0x20 → becomes (setVq f { vq with desc := vq.desc.extractLsb' 32 32 ++ v })) ∧ (off = 0x24 → becomes (setVq f { vq with desc := v ++ vq.desc.extractLsb' 0 32 })) ∧
      (off = 0x28 → becomes (setVq f { vq with driver := vq.driver.extractLsb' 32 32 ++ v })) ∧ (off = 0x2C → becomes (setVq f { vq with driver := v ++ vq.driver.extractLsb' 0 32 })) ∧
      (off = 0x30 → becomes (setVq f { vq with device := vq.device.extractLsb' 32 32 ++ v })) ∧ (off = 0x34 → becomes (setVq f { vq with device := v ++ vq.device.extractLsb' 0 32 }))) ∧
    (off ∈ [0x04, 0x12, 0x15, 0x1E] → becomes f) ∧
    (off < 0x20 → off ∉ [0x04, 0x12, 0x14, 0x15, 0x18, 0x1C, 0x1E] → becomes { f with config := mset f.config off v }) ∧
    (0x40 ≤ off → notifyAt off = false → exec (.configRegisterWrite fn (.bar off) v) s = .next (progress s)) ∧
    (notifyAt off = true → exec (.configRegisterWrite fn (.bar off) v) s = exec (.driverNotification fn ((off - 0x1000) / 4) []) s) ∧
    Yields (exec (.configRegisterWrite fn .msixControl v) s) (fun t => func t fn = some { f with msix := v.getLsbD 15 }) ∧
    Yields (exec (.configRegisterWrite fn .bar0Hi v) s) (fun t => func t fn = some { f with bar0 := v ++ f.bar0.extractLsb' 0 32 }) ∧
    Yields (exec (.configRegisterWrite fn .bar0Lo v) s) (fun t =>
      func t fn = some { f with bar0 := f.bar0.extractLsb' 32 32 ++ v.extractLsb' 16 16 ++ f.bar0.extractLsb' 0 16 }))

/-- DEVICE_STATUS_RESET and FUNCTION_LEVEL_RESET of a VF stop its queues, take its next generation, remove its tenant's work from the device and
send RESET marks to the other devices; after a RESET mark that was seen the generation stays. When the other devices have answered and the tenant's
writes have ended, its contexts and tables go and the status reads 0. A reset of the PF touches no tenant; FUNCTION_LEVEL_RESET returns the PCI
configuration to its reset values as well (R118 to R120, R129, R130). What stays of queue pairs and goes of regions is the model's reading (log 30). -/
def Sys2Proof.Machine.FunctionsAreReset : Prop :=
  (∀ (fn : Nat) (s : State) (f : Func), func s fn = some f → fn ≠ 0 → ∀ i ∈ [Instr.deviceStatusReset fn, .functionLevelReset fn],
    let pci (h : Func) : Prop := i = .functionLevelReset fn → h.msix = false ∧ h.bar0.extractLsb' 16 48 = 0
    (¬(f.needsReset = true ∧ f.resetSeen = true) → Yields (exec i s) (fun t => TenantStopped s t fn ∧
      (∃ h, func t fn = some h ∧ h.gen = genNext f.gen ∧ h.reading = false ∧ h.held = [] ∧ pci h) ∧ (∀ c ∈ t.host.ctlQ, c.1 ≠ fn) ∧
      (∀ b ∈ t.host.busy, b.1 ≠ fn) ∧
      (∃ r ∈ t.host.resets, r.fn = fn ∧ r.cmd = none ∧ r.answer = none ∧ r.quiet = false ∧ r.old = f.gen ∧ r.ngen = genNext f.gen ∧
        r.wait = otherDevs s f.part.toNat ∧ r.ctxs = keysOf s fn ∧ r.sentAt = s.fab.podNs) ∧
      (otherDevs s f.part.toNat ≠ [] → t.fab.mpQueue.getLast? =
        some (markOf s f.part.toNat f.gen (otherDevs s f.part.toNat) 5 fn (genNext f.gen).toNat)))) ∧
    (f.needsReset = true → f.resetSeen = true → Yields (exec i s) (fun t => TenantStopped s t fn ∧
      (∃ h, func t fn = some h ∧ h.gen = f.gen ∧ h.reading = false ∧ pci h) ∧ ∃ r ∈ t.host.resets, r.fn = fn ∧ r.wait = [] ∧ r.ngen = f.gen))) ∧
  (∀ (s : State) (r : ResetOp) (f : Func), s.mod.power ≠ .ready → s.host.resets = [r] → r.wait = [] → writesOut s r.ctxs = false → func s r.fn = some f →
    Yields (step s) (fun t => t.host.resets = [] ∧ (∀ c ∈ t.xl.ctxs, c.fn ≠ r.fn) ∧ (∀ x ∈ t.xl.cache, x.ctx ∉ r.ctxs) ∧ (∀ m ∈ t.net.mrs, m.fn ≠ r.fn) ∧
      (∀ g ∈ t.ntc.groups, g.fn ≠ r.fn) ∧
      (r.answer = none → r.quiet = false → r.cmd = none → func t r.fn = some { f with status := 0, needsReset := s.mod.fault ≠ 0, resetSeen := false, features := 0, seq := 0, buffers := 0, config := [], vqs := [], isr := 0 }))) ∧
  (∀ (s : State) (f : Func), func s 0 = some f → ∀ i ∈ [Instr.deviceStatusReset 0, .functionLevelReset 0], Yields (exec i s) (fun t =>
    (∃ h, func t 0 = some h ∧ h.gen = genNext f.gen ∧ h.status = 0 ∧ h.features = 0 ∧ h.reading = false ∧ h.held = [] ∧ h.seq = 0 ∧ h.buffers = 0 ∧
      h.vqs = [] ∧ (i = .functionLevelReset 0 → h.msix = false ∧ h.bar0.extractLsb' 16 48 = 0)) ∧
    t.agents = s.agents ∧ t.xl.ctxs = s.xl.ctxs ∧ t.xl.cache = s.xl.cache ∧ t.part.parts = s.part.parts ∧ ∀ b ∈ t.host.busy, b.1 ≠ 0))

/-- WATCHDOG_EXPIRY reports a head packet that has run too long in its tenant's slices, with one record to the PF and to its function, and resets the function, which then needs a reset;
RESET_MARK makes this device follow a newer generation and is answered with DONE; RESET_MARK_RESEND repeats a mark 10 µs after the last
(R120, R130, R139). When DONE answers, and what the watchdog's record holds, is the model's reading (log 30). -/
def Sys2Proof.Machine.ResetsSpread : Prop :=
  (∀ (fn q : Nat) (s : State) (r : Ring) (x : WqReq) (f : Func), ringAt s fn q = some r → headReq r = some x → func s fn = some f → fn ≠ 0 →
    let due : Prop := r.period ≠ 0 ∧ tenantRuns s fn = true ∧ r.period * 1000 ≤ r.count + (s.fab.podNs - r.since)
    (¬due → exec (.watchdogExpiry fn q) s = .next (progress s)) ∧
    (due → Yields (exec (.watchdogExpiry fn q) s) (fun t => TenantStopped s t fn ∧
      (canWrite f = true → f.held = [] → expiryOf s fn f.seq.toNat f.gen x q r.pkt ∈ t.host.events) ∧
      (∀ p, func s 0 = some p → canWrite p = true → p.held = [] → expiryOf s 0 p.seq.toNat f.gen x q r.pkt ∈ t.host.events) ∧
      ∃ h, func t fn = some h ∧ h.gen = genNext f.gen ∧ h.reading = false ∧
        (s.host.resets = [] → otherDevs s f.part.toNat = [] → allEntries s = [] → s.host.reads = [] →
          TenantGone s t fn ∧ h.needsReset = true)))) ∧
  (∀ (m : Flit) (s : State) (x : Func), func s (markTen m) = some x →
    let fn := markTen m
    let ng := markNgen m
    (m.kind ≠ 4 ∨ markOp m ≠ 5 ∨ fn = 0 ∨ x.part ≠ m.part → exec (.resetMark m) s = .next (progress s)) ∧
    (m.kind = 4 → markOp m = 5 → fn ≠ 0 → x.part = m.part →
      (genCmp ng.toNat x.gen.toNat = .newer → Yields (exec (.resetMark m) s) (fun t => TenantStopped s t fn ∧
        (∃ h, func t fn = some h ∧ h.gen = ng ∧ h.reading = false ∧ (s.host.resets = [] → h.needsReset = true ∧ h.resetSeen = true)) ∧
        (s.host.resets = [] → allEntries s = [] → s.host.reads = [] → TenantGone s t fn ∧
          t.fab.mpQueue.getLast? = some (markOf s m.part.toNat ng [m.src.toNat] 2 fn ng.toNat)))) ∧
      (genCmp ng.toNat x.gen.toNat ≠ .newer → (∀ r ∈ s.host.resets, r.fn ≠ fn) → Yields (exec (.resetMark m) s) (fun t =>
        t.fab.mpQueue = s.fab.mpQueue ++ [markOf s m.part.toNat ng [m.src.toNat] 2 fn ng.toNat] ∧ t.agents = s.agents ∧ t.host = s.host)))) ∧
  (∀ (fn : Nat) (s : State) (f : Func), func s fn = some f →
    let due (r : ResetOp) : Bool := r.fn = fn && (r.wait ≠ [] && r.sentAt + 10000 ≤ s.fab.podNs)
    (s.host.resets.filter due = [] → exec (.resetMarkResend fn) s = .next (progress s)) ∧
    (∀ r, s.host.resets.filter due = [r] → Yields (exec (.resetMarkResend fn) s) (fun t => { r with sentAt := s.fab.podNs } ∈ t.host.resets ∧
      t.fab.mpQueue = s.fab.mpQueue ++ [markOf s f.part.toNat r.old r.wait 5 fn r.ngen.toNat])))

/-- The driver's events and resets, as the three statements above say. -/
def Obligations.DriversAndResets : Prop := TheDriverIsServed ∧ FunctionsAreReset ∧ ResetsSpread

/-! ## Events of checkpoints, slices and pre-emption (06). -/

namespace Sys2Proof.Machine

/-- A time-shared partition and its checkpoint state on this device. -/
def SharedPart (s : State) (part : Nat) (p : Part) (c : Ck) : Prop := partOf s part = some p ∧ ckOf s part = some c
/-- A mark to devices as it stands in the send queue: nothing where there is no other device (R136, Table 6-5). -/
def markFlits (s : State) (part ten : Nat) (dest : List Nat) (m : BitVec 256) : List MpSend :=
  if dest = [] then [] else [⟨mkFlit s part (fnGen s ten) (maskOf 144 dest) 4 m, none⟩]
/-- The cut of image i has committed: the tenant's older undo bytes are gone, its image is the one a rollback returns to, and its exports
before the cut's tick are held no longer (R136, R137). -/
def Committed (t : State) (part : Nat) (c : Ck) (i : Snap) : Prop :=
  ∃ k j, ckOf t part = some k ∧ k.ctick = none ∧ k.cand = none ∧ k.doneDev = [] ∧ lkp k.images c.cutTen = some j ∧
    j = { i with rings := i.rings.map (fun x => { x with reqs := [], idx := 0 }) } ∧
    k.lines = c.lines.filter (fun u => !(u.1 = c.cutTen && u.2.1 < i.iv)) ∧ k.exports = c.exports.filter (fun x => !(x.2.1 = c.cutTen && x.1 < i.tick)) ∧
    k.undo = c.undo.filter (fun u => !(u.1 = c.cutTen && u.2.1 < i.iv)) ∧ k.tenant = c.tenant
/-- The running tenant has rolled back to its image and the next one runs from its own (R138). -/
def Switched (s t : State) (part : Nat) (p : Part) (c : Ck) (inc : Nat) : Prop :=
  (∃ k, ckOf t part = some k ∧ k.tenant = inc ∧ k.before = some (c.tenant, c.sliceEnd) ∧ k.sliceEnd = c.sliceEnd + 8 * p.slice ∧ k.ctick = none ∧
    k.cand = none ∧ k.images = c.images ∧ k.exports = c.exports.filter (fun x => x.2.1 ≠ c.tenant)) ∧
  (∀ i, lkp c.images inc = some i →
    ((s.agents.map Prod.fst).Nodup → ∀ e ∈ t.agents,
      ((p.hold = false → e ∈ s.agents) ∧ e.1 ∈ s.agents.map Prod.fst ∧ e.2.fn ≠ c.tenant) ∨ ∃ x ∈ i.agents, x.1 = e.1) ∧
    (∀ x ∈ i.agents, ∃ g, (x.1, g) ∈ t.agents ∧ g.v = x.2.v ∧ g.s = x.2.s ∧ g.p = x.2.p ∧ g.pc = x.2.pc ∧ g.idx = x.2.idx ∧ g.clause = x.2.clause ∧
      (p.hold = false → g.haltForm = .no) ∧ g.mx.running = false) ∧
    (p.hold = false → ∀ b ∈ i.blocks, (b.1, { b.2 with halted := false }) ∈ t.blocks) ∧ (∀ l ∈ i.launches, l ∈ t.sched.launches)) ∧
  (∀ iv a old, c.undo = [(c.tenant, iv, a, old)] → iv ≤ c.cutNo → c.undoWait = [] → s.fab.entries = [] → s.fab.waitQ = [] → (∀ k ∈ s.ck, k.exports = []) →
    s.host.reads = [] → (otherDevs s part = [] ∨ 125 * c.sliceEnd + 46000 < s.fab.podNs) → t.mem.hbm = writeBytes s.mem.hbm a [old])

end Sys2Proof.Machine

/-- CHECKPOINT_SCHEDULE on the leader announces the next cut of the running tenant in two marks: CKPT µs after the last cut, or sooner on a
request, or when a log here is seven-eighths full; BACKGROUND_CUT announces one of a tenant that does not run and holds exports; CUT_MARK follows an announcement (R97, R136).
That an event with nothing due is another device's request is the model's reading (log 32). -/
def Sys2Proof.Machine.CutsAreAnnounced : Prop :=
  (∀ (part : Nat) (s : State) (p : Part) (c : Ck), SharedPart s part p c →
    (isLeader s p = false ∨ c.ctick.isSome = true ∨ s.fab.synced = false → exec (.checkpointSchedule part) s = .next (progress s)) ∧
    (isLeader s p = true → c.ctick = none → s.fab.synced = true →
      let periodic := c.lastCut + 8 * p.ckpt
      let asked : Option Nat := if cutDue s part && !logHigh s c then c.askAt else some (c.askAt.getD (podTick s))
      let tick := max (match asked with
        | some a => min periodic (max (a + 4) (c.lastCut + 160))
        | none => periodic) (podTick s + 4)
      let m := markFlits s p.part c.tenant (otherDevs s part) (markPayload tick (c.ckno + 1) 1 c.tenant 0)
      Yields (exec (.checkpointSchedule part) s) (fun t => t.fab.mpQueue = s.fab.mpQueue ++ m ++ m ∧
        ckOf t part = some { c with ckno := c.ckno + 1, ctick := some tick, cutTen := c.tenant, doneDev := [] }))) ∧
  (∀ (part fn : Nat) (s : State) (p : Part) (c : Ck), SharedPart s part p c →
    let due : Prop := isLeader s p = true ∧ c.ctick = none ∧ fn ≠ c.tenant ∧ fn ∈ p.order ∧ s.fab.synced = true
    (¬due → exec (.backgroundCut part fn) s = .next (progress s)) ∧
    (∀ at_, due → heldBy c fn = some at_ →
      let tick := max (max (at_ + 4) (((lkp c.backs fn).map (fun b => b + 160)).getD 0)) (podTick s + 4)
      let m := markFlits s p.part fn (otherDevs s part) (markPayload tick (c.ckno + 1) 1 fn 0)
      Yields (exec (.backgroundCut part fn) s) (fun t => t.fab.mpQueue = s.fab.mpQueue ++ m ++ m ∧
        ckOf t part = some { c with ckno := c.ckno + 1, ctick := some tick, cutTen := fn, doneDev := [] }))) ∧
  (∀ (f : Flit) (s : State) (p : Part) (c : Ck), SharedPart s f.part.toNat p c →
    let good : Prop := f.kind = 4 ∧ markOp f = 1 ∧ isLeader s p = false ∧ markCkno f ≠ c.ckno ∧ markTen f ∈ p.order
    (¬good → exec (.cutMark f) s = .next (progress s)) ∧
    (good → Yields (exec (.cutMark f) s) (fun t => t.agents = s.agents ∧
      ckOf t f.part.toNat = some { c with ckno := markCkno f, ctick := some (markTick f), cutTen := markTen f })))

/-- CUT_TICK takes the tenant's image once its tick has come and the tenant is quiet, and answers the leader with DONE; DONE_MARK counts a
device, the last one committing the cut on the leader, or answers a RESET; COMMIT_MARK commits here and releases what the cut covers;
CUT_TIMEOUT ends a cut 20 µs late (R120, R136, R137). What a cut waits for is the model's reading (log 35). -/
def Sys2Proof.Machine.CutsAreMadeAndCommitted : Prop :=
  (∀ (part : Nat) (s : State) (p : Part) (c : Ck), SharedPart s part p c →
    (cutReady s c = false → exec (.cutTick part) s = .next (progress s)) ∧
    (∀ tick, cutReady s c = true → c.ctick = some tick → c.cutTen = c.tenant →
      let taken (i : Snap) : Prop := i.ckno = c.ckno ∧ i.tick = tick ∧ i.iv = c.cutNo + 1 ∧ i.agents = s.agents.filter (fun e => e.2.fn = c.tenant) ∧
        i.rings = s.sched.rings.filter (fun r => r.fn = c.tenant) ∧ i.yard = s.mem.yard.filter (fun e => inYard s part e.1)
      (isLeader s p = false → Yields (exec (.cutTick part) s) (fun t => t.mem = s.mem ∧
        t.agents = s.agents.map (fun e => if e.2.fn = c.tenant then (e.1, { e.2 with logged := [] }) else e) ∧
        (∃ i, taken i ∧ ckOf t part = some { c with cand := some i, cutNo := c.cutNo + 1, lastCut := tick }) ∧
        (let m := markFlits s p.part c.cutTen [leaderDev p] (markPayload tick c.ckno 2 c.cutTen 0)
         t.fab.mpQueue = s.fab.mpQueue ++ m))) ∧
      (isLeader s p = true → otherDevs s part = [] → c.exports = [] → Yields (exec (.cutTick part) s) (fun t => ∃ i, taken i ∧
        Committed t part c i)))) ∧
  (∀ (f : Flit) (s : State), f.kind = 4 → markOp f = 2 →
    (markNgen f ≠ 0 → Yields (exec (.doneMark f) s) (fun t => ∀ r ∈ t.host.resets, r.fn = markTen f → r.ngen = markNgen f → f.src.toNat ∉ r.wait)) ∧
    (∀ p c i, markNgen f = 0 → SharedPart s f.part.toNat p c → c.ctick.isSome = true → c.ckno = markCkno f → c.cand = some i → i.ckno = c.ckno →
      (isLeader s p = true → (∀ d ∈ otherDevs s f.part.toNat, d = f.src.toNat ∨ d ∈ c.doneDev) → c.exports = [] →
        Yields (exec (.doneMark f) s) (fun t => Committed t f.part.toNat c i ∧
          (let m := markFlits s p.part c.cutTen (otherDevs s f.part.toNat) (markPayload (c.ctick.getD 0) c.ckno 3 c.cutTen 0)
           t.fab.mpQueue = s.fab.mpQueue ++ m ++ m))) ∧
      ((∃ d ∈ otherDevs s f.part.toNat, d ≠ f.src.toNat ∧ d ∉ c.doneDev) → Yields (exec (.doneMark f) s) (fun t =>
        ckOf t f.part.toNat = some { c with doneDev := c.doneDev ++ [f.src.toNat] } ∧ t.fab = s.fab)))) ∧
  (∀ (f : Flit) (s : State) (c : Ck), f.kind = 4 → markOp f = 3 → ckOf s f.part.toNat = some c →
    ((∀ i, c.cand = some i → i.ckno ≠ markCkno f) → exec (.commitMark f) s = .next (progress s)) ∧
    (∀ i, c.cand = some i → i.ckno = markCkno f →
      (c.exports = [] → Yields (exec (.commitMark f) s) (fun t => Committed t f.part.toNat c i)) ∧
      (∀ at_ u, c.exports = [(at_, c.cutTen, .used u)] → (func s u.fn).any (fun x => x.reading) = true → Yields (exec (.commitMark f) s) (fun t =>
        Committed t f.part.toNat c i ∧ t.host.used = s.host.used ++ (if at_ < i.tick then [u] else []))))) ∧
  (∀ (part : Nat) (s : State) (c : Ck), ckOf s part = some c → Yields (exec (.cutTimeout part) s) (fun t =>
    ((∃ k, c.ctick = some k ∧ k + 160 ≤ podTick s) → ckOf t part = some { c with ctick := none, doneDev := [] }) ∧
    (¬(∃ k, c.ctick = some k ∧ k + 160 ≤ podTick s) → ckOf t part = some c)))

/-- SLICE_END on the leader, once the next tenant's memory is undone and no cut of it is under way, and SLICEEND_MARK elsewhere, which first
commits the cut it names where this device has made it, roll the running tenant back to its image, undo the bytes it has written since, and
load the next tenant of ORDER that has work; without one the leader's slice goes on, and a device whose mark has come takes the next of ORDER (R138).
The choice of the next tenant and what the mark says of the next slice end are the model's reading (logs 31, 62). -/
def Sys2Proof.Machine.SlicesEnd : Prop :=
  (∀ (part : Nat) (s : State) (p : Part) (c : Ck), SharedPart s part p c →
    let over_ : Prop := isLeader s p = true ∧ sliceOver s p c = true
    (¬over_ → exec (.sliceEnd part) s = .next (progress s)) ∧
    (over_ → nextTenant s p c = none → Yields (exec (.sliceEnd part) s) (fun t => t.agents = s.agents ∧ t.mem = s.mem ∧
      ckOf t part = some { c with sliceEnd := c.sliceEnd + 8 * p.slice })) ∧
    (∀ inc, over_ → nextTenant s p c = some inc → Yields (exec (.sliceEnd part) s) (fun t => Switched s t part p c inc))) ∧
  (∀ (f : Flit) (s : State) (p : Part) (c : Ck), SharedPart s f.part.toNat p c →
    let good : Prop := f.kind = 4 ∧ markOp f = 4 ∧ isLeader s p = false ∧ markTen f = c.tenant ∧ (markCkno f, markTick f) ∉ c.seen
    (¬good → exec (.sliceendMark f) s = .next (progress s)) ∧
    let marked : Ck := { c with seen := [(markCkno f, markTick f)] }
    let inc : Nat := (nextTenant s p c).getD (turnAfter p c)
    (good → (∀ i, c.cand = some i → i.ckno ≠ markCkno f) → Yields (exec (.sliceendMark f) s) (fun t =>
      Switched s t f.part.toNat p { marked with sliceEnd := markTick f } inc)) ∧
    (∀ i, good → c.cand = some i → i.ckno = markCkno f → c.exports = [] → ∃ (s1 : State) (c1 : Ck), ckOf s1 f.part.toNat = some c1 ∧
      Committed s1 f.part.toNat c i ∧ c1.seen = marked.seen ∧ c1.sliceEnd = c.sliceEnd ∧ s1.agents = s.agents ∧ s1.mem = s.mem ∧ s1.fab = s.fab ∧
      Yields (exec (.sliceendMark f) s) (fun t =>
        Switched s1 t f.part.toNat p { c1 with sliceEnd := markTick f } ((nextTenant s1 p c1).getD (turnAfter p c1))))) ∧
  (∀ (s : State) (p : Part) (c : Ck), sliceOver s p c = true → p.nten ≠ 0 ∧ c.sliceEnd ≤ podTick s ∧
    ∀ inc, nextTenant s p c = some inc → (∀ w ∈ c.undoWait, w.1 ≠ inc) ∧ (c.ctick.isSome = true → inc ≠ c.cutTen)) ∧
  (∀ (s : State) (p : Part) (c : Ck) (inc : Nat), nextTenant s p c = some inc → inc ∈ p.order ∧ hasWork s c inc = true)

/-- CONTEXT_SAVE, when every agent of a pre-emption has halted and its claims are at rest, takes its blocks off their cores; CONTEXT_RESUME lets
them run again where they stood; PRIORITY_PREEMPTION asks the agents of priority 1 or 0 that hold a team of priority 3 back for 100 µs to halt
(R131 to R133, R159, R416). Which agents make way and what a save waits for is the model's reading (log 29). -/
def Sys2Proof.Machine.ContextsGiveWay : Prop :=
  (∀ (part ctx : Nat) (s : State) (p : Pre), s.sched.pre = [p] → p.part = part → p.ctx = ctx → (∃ l n, p.why = .prio l n) → s.part.holdCmd = [] →
    (saveReady s p = false → exec (.contextSave part ctx) s = .next (progress s)) ∧
    (saveReady s p = true → Yields (exec (.contextSave part ctx) s) (fun t => t.sched.pre = [{ p with saved := true }] ∧ t.agents = s.agents ∧
      ∀ b k, (b, k) ∈ t.blocks → (∃ e ∈ s.agents, e.2.blk = b ∧ e.1 ∈ p.agents ∧ isStream e.1 = false) → k.halted = true))) ∧
  (∀ (part ctx : Nat) (s : State) (p : Pre) (c : Ctx) (ck : W64), s.sched.pre = [p] → p.part = part → p.ctx = ctx → p.why = .destroy c.fn ck →
    saveReady s p = true → ctxOf s part ctx = some c → s.part.holdCmd = [] → (∀ r ∈ s.sched.rings, r.busy = false) →
    Yields (exec (.contextSave part ctx) s) (fun t => ctxOf t part ctx = none ∧ (∀ x ∈ t.xl.cache, x.ctx ≠ ctxKey c) ∧
      (∀ e ∈ t.agents, ¬(e.2.fn = c.fn ∧ e.2.ctx = c.ctxid)) ∧ (∀ x ∈ t.net.qps, x.ctx ≠ ctxKey c) ∧ (∀ g ∈ t.ntc.groups, g.ctx ≠ ctxKey c) ∧
      Replied s t c.fn ck 0 0 [])) ∧
  (∀ (part ctx : Nat) (s : State) (p : Pre), s.sched.pre = [p] → p.part = part → p.ctx = ctx →
    (resumeReady s p = false → exec (.contextResume part ctx) s = .next (progress s)) ∧
    (resumeReady s p = true → Yields (exec (.contextResume part ctx) s) (fun t => t.sched.pre = [] ∧
      (∀ a g, agent s a = some g → a ∉ p.agents → agent t a = some g) ∧
      ∀ a g, agent s a = some g → a ∈ p.agents → agent t a = some { g with haltForm := .no, haltReq := none, waitSince := s.fab.cycles, tried := s.fab.cycles, resumed := g.tprio && g.clause.isNone }))) ∧
  (∀ (fn q : Nat) (s : State),
    (prioDue s fn q = none → exec (.priorityPreemption fn q) s = .next (progress s)) ∧
    (∀ l c, prioDue s fn q = some (l, [c]) →
      let as := (s.agents.filter (fun e => e.2.part = l.part && e.2.ctx = c && (inTheWay l e.1 e.2 && e.2.prio ≤ 1))).map Prod.fst
      Yields (exec (.priorityPreemption fn q) s) (fun t => t.sched.pre = s.sched.pre ++ [⟨l.part, c, .prio l.id l.next, as, false, s.fab.podNs⟩] ∧
        ∀ a ∈ as, ∃ h, agent t a = some h ∧ h.haltReq.isSome = true)) ∧
    (∀ l cs, prioDue s fn q = some (l, cs) → ∃ r, ringAt s fn q = some r ∧ l.prio = 3 ∧ r.since + 100000 ≤ s.fab.podNs ∧ canDispatch s l = false ∧
      l.next < l.teams ∧
      canDispatch (without s (((blockers s l).filter (fun e => e.2.part = l.part && e.2.prio ≤ 1)).map Prod.fst)) l = true))

/-- Checkpoints, slices and pre-emption, as the four statements above say. -/
def Obligations.CheckpointsAndPreemption : Prop := CutsAreAnnounced ∧ CutsAreMadeAndCommitted ∧ SlicesEnd ∧ ContextsGiveWay

/-! ## Control commands (05, and the files that own them). -/

namespace Sys2Proof.Machine

/-- A command that passes the checks common to all (R109, R117): the function's generation, the payload COUNT gives, its issuer, and a
partition. -/
def Admitted (s : State) (q : CmdReq) (who : Issuer) (free : Bool) : Prop :=
  ∃ f, func s q.fn = some f ∧ q.hdr.gen = f.gen ∧ q.hdr.count.toNat = q.len ∧ (who = .pf → q.fn = 0) ∧ (who = .vf → q.fn ≠ 0) ∧ (q.fn ≠ 0 → f.part = 0xFFFF → free = true)
/-- The command's used element is the one new element: status, DETAIL and data (R106, R117, Table 5-8). -/
def Ends (s t : State) (q : CmdReq) (status detail : Nat) (data : List Byte) : Prop :=
  Reads s q.fn → t.host.used = s.host.used ++ [⟨q.fn, 0, q.hdr.cookie, status, 0, detail, data, 16 + data.length⟩]
/-- The command ends well and returns data, or with BADREQ where its chain has no room for them (log 23). -/
def Returns (s t : State) (q : CmdReq) (data : List Byte) : Prop :=
  (16 + data.length ≤ q.room → Ends s t q 0 0 data) ∧ (q.room < 16 + data.length → Ends s t q 1 0 [])
/-- The command ends with a status and has no other effect on contexts, partitions, pages and queue pairs. -/
def Refused (o : Host.Outcome State Fault Refusal) (s : State) (q : CmdReq) (status : Nat) : Prop :=
  Yields o (fun t => Ends s t q status 0 [] ∧ t.xl = s.xl ∧ t.part = s.part ∧ t.mem = s.mem ∧ t.net = s.net ∧ t.agents = s.agents)
/-- The commands of Table 5-6, who may issue each, and whether a VF of no partition may. -/
def commandTable : List ((CmdReq → Instr) × Issuer × Bool) :=
  [(.identify, .any, true), (.diag, .any, true), (.telemetry, .any, true), (.ctxCreate, .vf, false), (.ctxDestroy, .vf, false),
   (.xlateSet, .any, false), (.invalPage, .any, false), (.migrate, .any, false), (.s2Answer, .pf, false), (.homemapSet, .pf, false),
   (.partSet, .pf, false), (.tokensSet, .pf, false), (.sliceSet, .pf, false), (.vfReset, .pf, false), (.qpCreate, .vf, false),
   (.qpModify, .vf, false), (.qpDestroy, .vf, false), (.mrReg, .vf, false), (.mrDereg, .vf, false), (.netAddr, .vf, false),
   (.decodeLoad, .vf, false), (.pgroupSet, .vf, false), (.ngroupSet, .vf, false), (.attest, .any, true),
   (fun q => .bundleWrite q true, .pf, false), (fun q => .bundleWrite q false, .pf, false)]
/-- The command is at hand: its request is in progress (R117). -/
def inHand (s : State) (q : CmdReq) : State :=
  { s with host := { s.host with busy := s.host.busy.filter (fun b => b ≠ (q.fn, q.hdr.cookie)) ++ [(q.fn, q.hdr.cookie)] } }
/-- The payload of a command laid out in bytes. -/
def Pays (q : CmdReq) (bs : List Byte) : Prop := q.args = .raw bs ∧ bs.length = q.hdr.count.toNat

end Sys2Proof.Machine

/-- Every command ends with STALE when it names another generation than its function's, BADREQ when COUNT is not its payload's length, PRIV when a VF issues one of the PF's, BADREQ when the
PF issues one of the VFs', and NORES when its VF belongs to no partition, the four reports excepted (R109, R117, Table 5-6). -/
def Sys2Proof.Machine.CommandsAreChecked : Prop :=
  ∀ e ∈ commandTable, ∀ (q : CmdReq) (s : State) (f : Func), func s q.fn = some f →
    (q.hdr.gen ≠ f.gen → Refused (exec (e.1 q) s) s q 4) ∧
    (q.hdr.gen = f.gen → q.hdr.count.toNat ≠ q.len → Refused (exec (e.1 q) s) s q 1) ∧
    (q.hdr.gen = f.gen → q.hdr.count.toNat = q.len → e.2.1 = .pf → q.fn ≠ 0 → Refused (exec (e.1 q) s) s q 3) ∧
    (q.hdr.gen = f.gen → q.hdr.count.toNat = q.len → e.2.1 = .vf → q.fn = 0 → Refused (exec (e.1 q) s) s q 1) ∧
    (q.hdr.gen = f.gen → q.hdr.count.toNat = q.len → e.2.1 ≠ .pf → q.fn ≠ 0 → f.part = 0xFFFF → e.2.2 = false → Refused (exec (e.1 q) s) s q 5)

/-- IDENTIFY, DIAG and TELEMETRY return what the device knows of the function, its ports, work and heat, power and waits only with feature 12
accepted; ATTEST returns the report for a nonce of
32 bytes with its two signatures; BUNDLE_WRITE puts a bundle whose signatures hold, and whose version the fuses allow, into the flash
copy that is not in force, selected for the next bring-up (R20, R104, R108, R117, R121, R122).
The byte layouts of the reports and the place of a bundle's version are the model's (logs 38, 39), digests and signatures are opaque (log 8). -/
def Sys2Proof.Machine.ReportsAreReturned : Prop :=
  (∀ (q : CmdReq) (s : State), Admitted s q .any true →
    Yields (exec (.identify q) s) (fun t => Returns s t q (leBytes 32 (config52 s q.fn) ++ leBytes 8 (offered s q.fn).toNat)) ∧
    Yields (exec (.diag q) s) (fun t => Returns s t q (diagBytes s q.fn)) ∧
    (hasFeature s q.fn 12 = false → Yields (exec (.telemetry q) s) (fun t => ∃ temps, temps.length = 48 ∧ Returns s t q temps)) ∧
    (hasFeature s q.fn 12 = true → Yields (exec (.telemetry q) s) (fun t => ∃ heat, heat.length = 56 ∧
      let part := ((func s q.fn).map (fun f => f.part.toNat)).getD 0xFFFF
      Returns s t q (heat ++ ((s.part.parts.filter (fun p => q.fn = 0 || p.part = part)).map Part.part).flatMap (fun p => (List.range 4).flatMap (fun d =>
        leBytes 2 p ++ leBytes 2 d ++ leBytes 4 (effOf s p d) ++ leBytes 8 (tokenWaits s p d)))))) ∧
    (∀ nonce, Pays q nonce → nonce.length = 32 → hasFeature s q.fn 15 = true → Yields (exec (.attest q) s) (fun t => ∃ body, body.length = 512 ∧
      let digest := leBytes 48 (Config.sha384 (nonce ++ body)).toNat
      Returns s t q (nonce ++ body ++ sigBytes 0 384 digest ++ sigBytes 1 16224 digest))) ∧
    (∀ nonce, Pays q nonce → hasFeature s q.fn 15 = false → Refused (exec (.attest q) s) s q 2) ∧
    (∀ nonce, Pays q nonce → hasFeature s q.fn 15 = true → nonce.length ≠ 32 → Refused (exec (.attest q) s) s q 1)) ∧
  (∀ (q : CmdReq) (s : State) (bs : List Byte), Admitted s q .pf false → Pays q bs →
    Refused (exec (.bundleWrite q false) s) s q 0x0A ∧
    (byteFld bs 0 3 < s.mod.rollback → Refused (exec (.bundleWrite q true) s) s q 9) ∧
    (s.mod.rollback ≤ byteFld bs 0 3 → Yields (exec (.bundleWrite q true) s) (fun t => Ends s t q 0 0 [] ∧ t.mod.sel = 1 - s.mod.inForce ∧
      t.mod.inForce = s.mod.inForce ∧ (1 - s.mod.inForce, byteFld bs 0 3, bs) ∈ t.mod.flash ∧
      ∀ x ∈ s.mod.flash, x.1 ≠ 1 - s.mod.inForce → x ∈ t.mod.flash)))

/-- CTX_CREATE takes the lowest free identifier; CTX_DESTROY pre-empts the context first; XLATE_SET writes the fields given, STAGE2 and HOMEMAP
from the PF only; INVAL_PAGE takes a range back at its home; MIGRATE sets WB and takes the page back; S2_ANSWER repeats or faults the walks that
wait; HOMEMAP_SET takes a granule back before its entry is written (R56, R59, R64, R70, R79, R131).
The identifier taken, its place in DETAIL and statuses no rule gives are the model's (logs 16, 36, 37, 70, 73). -/
def Sys2Proof.Machine.ContextsAndPagesAreSet : Prop :=
  (∀ (q : CmdReq) (s : State) (f : Func) (id : Nat), Admitted s q .vf false → func s q.fn = some f →
    (∀ c ∈ s.xl.ctxs, c.part = f.part.toNat → c.ctxid ≠ id) → (∀ i, 1 ≤ i → i < id → ∃ c ∈ s.xl.ctxs, c.part = f.part.toNat ∧ c.ctxid = i) →
    1 ≤ id → id < 0xFFFF → Yields (exec (.ctxCreate q) s) (fun t => Ends s t q 0 id [] ∧
      ∃ c, t.xl.ctxs = s.xl.ctxs ++ [c] ∧ c.ctxid = id ∧ c.fn = q.fn ∧ c.part = f.part.toNat ∧ c.decode = none ∧ c.layouts = [] ∧ c.pgroups = [])) ∧
  (∀ (q : CmdReq) (s : State), Admitted s q .vf false →
    (∀ st, ctxFor s q 0 = .error st → Refused (exec (.ctxDestroy q) s) s q st) ∧
    (∀ c, ctxFor s q 0 = .ok c → Yields (exec (.ctxDestroy q) s) (fun t => t.xl = s.xl ∧ t.host.used = s.host.used ∧
      t.sched.pre = s.sched.pre ++ [⟨c.part, c.ctxid, .destroy q.fn q.hdr.cookie,
        (s.agents.filter (fun e => e.2.part = c.part && e.2.ctx = c.ctxid)).map Prod.fst, false, s.fab.podNs⟩]))) ∧
  (∀ (q : CmdReq) (s : State) (vf : Nat) (s1 s2 hm hp pas th : Option Nat), Admitted s q .any false → q.args = .xlate vf s1 s2 hm hp pas th →
    (q.fn ≠ 0 → (s2.isSome = true ∨ hm.isSome = true) → Refused (exec (.xlateSet q) s) s q 3) ∧
    (∀ c, (q.fn = 0 ∨ s2 = none ∧ hm = none) → (∀ x ∈ [s1, s2, hm, hp], ∀ v, x = some v → v < 2 ^ 52) → (∀ v, pas = some v → v < 2 ^ 20) →
      (∀ v, th = some v → v < 2 ^ 16) → ctxFor s q vf = .ok c → Yields (exec (.xlateSet q) s) (fun t => Ends s t q 0 0 [] ∧
        (∀ w ∈ t.xl.wents, w.ctx ≠ ctxKey c) ∧ (hp = none → hm = none → t.mem = s.mem) ∧
        { c with
          stage1 := s1.getD c.stage1, stage2 := s2.getD c.stage2, homemap := hm.getD c.homemap, hostpt := hp.getD c.hostpt
          pasid := pas.getD c.pasid, thresh := th.getD c.thresh } ∈ t.xl.ctxs))) ∧
  (∀ (q : CmdReq) (s : State) (vf addr size : Nat) (why : TakeBack) (gpa : Bool) (moved : Option (Loc × Nat)), Admitted s q .any false →
    q.args = .inval vf addr size why gpa moved →
    (size = 0 → Refused (exec (.invalPage q) s) s q 1) ∧ (size ≠ 0 → gpa = true → q.fn ≠ 0 → Refused (exec (.invalPage q) s) s q 3) ∧
    (∀ c, size ≠ 0 → gpa = false → ctxFor s q vf = .ok c → Yields (exec (.invalPage q) s) (fun t => t.host.used = s.host.used ∧
      (∀ x ∈ t.xl.cache, x.ctx = ctxKey c → rangesMeet x.va x.size addr size = false) ∧
      ∃ i, t.xl.invals = s.xl.invals ++ [i] ∧ i.q = ⟨ctxKey c, addr, size, false⟩ ∧ i.why = why ∧ i.what = .cmd q.fn q.hdr.cookie moved))) ∧
  (∀ (q : CmdReq) (s : State) (vf va frame : Nat) (c : Ctx), Admitted s q .any false → q.args = .migrate vf va frame → ctxFor s q vf = .ok c →
    va % 4096 = 0 → frame % 4096 = 0 → homeOf s c va = .at_ (.host s.mod.poddev) →
    (hasFeature s c.fn 11 = false → Refused (exec (.migrate q) s) s q 2) ∧
    (hasFeature s c.fn 11 = true → hbmOwner s frame = some c.part → (∃ m ∈ s.xl.migs, m.ctx = ctxKey c ∧ m.va = va) ∨ (hostPte s c va).testBit 1 = true →
      Refused (exec (.migrate q) s) s q 9) ∧
    (hasFeature s c.fn 11 = true → hbmOwner s frame ≠ some c.part → Refused (exec (.migrate q) s) s q 8) ∧
    (hasFeature s c.fn 11 = true → hbmOwner s frame = some c.part → (∀ m ∈ s.xl.migs, m.ctx = ctxKey c → m.va ≠ va) → (hostPte s c va).testBit 1 = false →
      Yields (exec (.migrate q) s) (fun t => t.host.used = s.host.used ∧
        t.xl.migs = s.xl.migs ++ [⟨s.xl.nextId, q.fn, q.hdr.cookie, ctxKey c, va, frame, 0, s.fab.podNs⟩] ∧
        (∃ x : W64, x.getLsbD 2 = true ∧ (∀ i, i < 64 → i ≠ 1 → i ≠ 2 → x.getLsbD i = (hostPte s c va).testBit i) ∧
          t.mem.hbm = writeBytes s.mem.hbm (hostEntryAt s c va) (leBytes 8 x.toNat)) ∧
        ∃ i ∈ t.xl.invals, i.q = ⟨ctxKey c, va, 4096, false⟩ ∧ i.what = .migr s.xl.nextId))) ∧
  (∀ (q : CmdReq) (s : State) (idx : Nat) (retry : Bool), Admitted s q .pf false → q.args = .s2 idx retry →
    ((∀ r ∈ s.xl.s2, r.idx ≠ idx) → Refused (exec (.s2Answer q) s) s q 1) ∧
    (∀ r, s.xl.s2.find? (fun x => x.idx = idx) = some r → fnGen s r.fn = r.gen → s.xl.grantIn = [] →
      Yields (exec (.s2Answer q) s) (fun t => Ends s t q 0 0 [] ∧ (∀ x ∈ t.xl.s2, x.idx ≠ idx) ∧ (∀ w ∈ t.xl.walks, w.s2 ≠ some idx) ∧
        (retry = true → t.xl.walks.length = s.xl.walks.length ∧ t.xl.faults = s.xl.faults) ∧
        (retry = false → t.xl.faults = s.xl.faults ++ (s.xl.walks.filter (fun w => w.s2 = some idx)).flatMap (fun w =>
          failures w.ctx w.va Cause.xlate.code w.asks (fun k => k = w.acc)))))) ∧
  (∀ (q : CmdReq) (s : State) (part g : Nat) (e : W32), Admitted s q .pf false → q.args = .homemap part [(g, e)] →
    (partOf s part = none ∨ (∀ x ∈ s.xl.ctxs, x.part ≠ part) ∨ (∃ d ∈ homemapsOf s part, leafAt s d g = none) → Refused (exec (.homemapSet q) s) s q 1) ∧
    (∀ c, (partOf s part).isSome = true → g < 2 ^ 27 → (∀ d ∈ homemapsOf s part, (leafAt s d g).isSome = true) →
      s.xl.ctxs.filter (fun x => x.part = part) = [c] → Yields (exec (.homemapSet q) s) (fun t => t.host.used = s.host.used ∧
        (∀ x ∈ t.xl.cache, x.ctx = ctxKey c → rangesMeet x.va x.size (g * 2 ^ 30) (2 ^ 30) = false) ∧
        ∃ i, t.xl.invals = s.xl.invals ++ [i] ∧ i.q = ⟨ctxKey c, g * 2 ^ 30, 2 ^ 30, false⟩ ∧ i.what = .home q.fn q.hdr.cookie part [(g, e)])))

/-- PART_SET gives a partition the resources its payload names when they are its own or free, and its VFs their view of it, dedicated when one VF is left; TOKENS_SET asks for
counts within the owned clusters; SLICE_SET makes a partition time-shared, or dedicated again; VF_RESET resets a VF (R119, R123 to R126, R134,
R434). What becomes of routes, units and VFs assigned first is the model's reading (logs 19 to 22). -/
def Sys2Proof.Machine.PartitionsAreSet : Prop :=
  (∀ (q : CmdReq) (s : State) (bs : List Byte), Admitted s q .pf false → Pays q bs →
    let v := leVal bs
    let old := partOf s (nfld v 367 352)
    let p := partFrom v old
    (bs.length ≠ 64 ∨ partFormed s v p = false → Refused (exec (.partSet q) s) s q 1) ∧
    (bs.length = 64 → partFormed s v p = true → partFree s p = false → Refused (exec (.partSet q) s) s q 5) ∧
    (∀ o, bs.length = 64 → partFormed s v p = true → partFree s p = true → old = some o → takesAway o p = true → hasCtx s p.part = true →
      Refused (exec (.partSet q) s) s q 9) ∧
    (bs.length = 64 → partFormed s v p = true → partFree s p = true → (∀ o, old = some o → takesAway o p = true → hasCtx s p.part = false) →
      s.host.resets = [] → (∀ n ∈ partVfs p, ∀ f, func s n = some f → f.prev = 0xFFFF ∨ f.part.toNat = p.part) →
      Yields (exec (.partSet q) s) (fun t =>
        (∃ r, partOf t p.part = some r ∧ r.devs = p.devs ∧ r.vfs = p.vfs ∧ r.hbmc = p.hbmc ∧ r.cgrp = p.cgrp ∧ r.fports = p.fports ∧ r.jmem = p.jmem ∧
          r.nwq = p.nwq ∧ r.hold = p.hold ∧ r.nten = p.nten ∧ r.order = p.order) ∧ (p.nten = 0 → ckOf t p.part = none) ∧
        (∀ j, j < 18 → ∃ ds, (j, p.part, ds) ∈ t.fab.jRoute ∧ (s.mod.poddev ∈ ds ↔ p.fports.getLsbD j = true) ∧ ∀ d ∈ ds, p.devs.getLsbD d = true) ∧
        (∀ n ∈ partVfs p, (func s n).isSome = true → ∃ f, func t n = some f ∧ f.part = BitVec.ofNat 16 p.part ∧ f.nwq = BitVec.ofNat 16 p.nwq ∧ f.fports = p.fports) ∧
        (p.hold = false → s.sched.pre = [] → s.part.holdCmd = [] → (∀ k ∈ s.ck, k.exports = []) → Ends s t q 0 0 [])))) ∧
  (∀ (q : CmdReq) (s : State) (bs : List Byte) (p : Part), Admitted s q .pf false → Pays q bs → bs.length = 8 → byteFld bs 4 5 = 0 →
    partOf s (byteFld bs 6 7) = some p →
    ((∃ d, d < 4 ∧ (clustersOf s p.part d).length < byteFld bs d d) → Refused (exec (.tokensSet q) s) s q 5) ∧
    ((∀ d, d < 4 → byteFld bs d d ≤ (clustersOf s p.part d).length) → s.mod.halving = false → Yields (exec (.tokensSet q) s) (fun t =>
      (∃ r, partOf t p.part = some r ∧ r.tokNamed = true ∧ ∀ d, d < 4 → lkp r.tok d = some (byteFld bs d d)) ∧
      (∀ d, d < 4 → effOf s p.part d ≠ byteFld bs d d → (p.part, d, byteFld bs d d) ∈ t.part.tokPend) ∧
      ((∀ d, d < 4 → effOf s p.part d = byteFld bs d d) → (∀ x ∈ s.part.tokPend, x.1 ≠ p.part) → s.part.tokCmd = [] → Ends s t q 0 0 [])))) ∧
  (∀ (q : CmdReq) (s : State) (bs : List Byte) (p : Part), Admitted s q .pf false → Pays q bs → bs.length = 32 →
    let v := leVal bs
    let nten := nfld v 239 232
    let slice := nfld v 231 200
    let ckpt := nfld v 199 184
    let logu := nfld v 183 176
    let order := (List.range nten).map (fun i => nfld v (132 + 5 * i) (128 + 5 * i) + 1)
    partOf s (nfld v 255 240) = some p →
    (sliceOk p v nten slice ckpt logu order = false → Refused (exec (.sliceSet q) s) s q 1) ∧
    (sliceOk p v nten slice ckpt logu order = true → hasCtx s p.part = true ∨ (∃ n ∈ order, hasFeature s n 5 = false) →
      Refused (exec (.sliceSet q) s) s q 9) ∧
    (sliceOk p v nten slice ckpt logu order = true → hasCtx s p.part = false → (∀ n ∈ order, hasFeature s n 5 = true) → (∀ k ∈ s.ck, k.exports = []) →
      Yields (exec (.sliceSet q) s) (fun t => Ends s t q 0 0 [] ∧ (∃ r, partOf t p.part = some r ∧ r.nten = nten ∧ r.devs = p.devs ∧ r.vfs = p.vfs ∧
          (nten ≠ 0 → r.slice = slice ∧ r.ckpt = ckpt ∧ r.logu = logu ∧ r.order = order)) ∧
        (nten = 0 → ckOf t p.part = none) ∧
        (nten ≠ 0 → ∃ k, ckOf t p.part = some k ∧ some k.tenant = order.head? ∧ k.lastCut = podTick s ∧ k.sliceEnd = podTick s + 8 * slice ∧
          k.exports = [] ∧ k.undo = [] ∧ k.lines = [] ∧ k.undoWait = [] ∧ k.before = none ∧ k.ctick = none ∧ ∀ n ∈ order, ∃ i, lkp k.images n = some i ∧ i.agents = [] ∧ i.blocks = [])))) ∧
  (∀ (q : CmdReq) (s : State) (n : Nat), Admitted s q .pf false → q.args = .vf n →
    (n = 0 ∨ func s n = none → Refused (exec (.vfReset q) s) s q 1) ∧
    (∀ f, n ≠ 0 → func s n = some f → Yields (exec (.vfReset q) s) (fun t => TenantStopped s t n ∧
      (∃ h, func t n = some h ∧ h.gen = genNext f.gen ∧ h.reading = false) ∧
      (otherDevs s f.part.toNat = [] → allEntries s = [] → s.host.reads = [] → s.host.resets = [] → Ends s t q 0 0 [] ∧ TenantGone s t n ∧
        ∃ h, func t n = some h ∧ h.status = 0 ∧ h.features = 0))))

/-- QP_CREATE, QP_MODIFY and QP_DESTROY make, move and remove a queue pair of the function; MR_REG pins a region's pages for reading and for writing as its rights ask, MR_DEREG removes it;
NET_ADDR writes the function's MAC address and GIDs (R81 to R84, R94, R100). A move to Reset discards what was posted (log 60).
The number taken, its place in DETAIL and statuses no rule gives are the model's (logs 16, 36). -/
def Sys2Proof.Machine.NetworkObjectsAreSet : Prop :=
  (∀ (q : CmdReq) (s : State), Admitted s q .vf false → hasFeature s q.fn 4 = false →
    (∀ k ∈ [Instr.qpCreate, .qpModify, .qpDestroy, .mrDereg, .netAddr], Refused (exec (k q) s) s q 2) ∧
    (∀ key base len rd w at_ c, q.args = .mrReg key base len rd w at_ → ctxFor s q 0 = .ok c → Refused (exec (.mrReg q) s) s q 2)) ∧
  (∀ (q : CmdReq) (s : State) (c : Ctx) (port mtu sd rd rb cq cb cd ack ret rnr n : Nat), Admitted s q .vf false → hasFeature s q.fn 4 = true →
    q.args = .qpCreate port mtu sd rd rb cq cb cd ack ret rnr → ctxFor s q 0 = .ok c → port < 8 → mtu ∈ [256, 512, 1024, 2048, 4096] →
    sd ∈ (List.range 11).map (fun k => 2 ^ (k + 4)) → rd ∈ (List.range 11).map (fun k => 2 ^ (k + 4)) → cd ∈ (List.range 11).map (fun k => 2 ^ (k + 6)) →
    (ack = 0 ∨ 32 ≤ ack ∨ 8 ≤ ret ∨ 8 ≤ rnr → Refused (exec (.qpCreate q) s) s q 1) ∧
    (1 ≤ ack → ack < 32 → ret < 8 → rnr < 8 → s.net.cqs.find? (fun x => x.fn = q.fn && x.cq = cq) = none →
    (∀ x ∈ s.net.qps, x.qpn ≠ n) → (∀ i, i < n → ∃ x ∈ s.net.qps, x.qpn = i) → n < 4096 → Yields (exec (.qpCreate q) s) (fun t => Ends s t q 0 n [] ∧
      (∃ x, t.net.qps = s.net.qps ++ [x] ∧ x.qpn = n ∧ x.fn = q.fn ∧ x.ctx = ctxKey c ∧ x.st = .reset ∧ x.port = port ∧ x.mtu = mtu ∧ x.sqDepth = sd ∧
        x.rqDepth = rd ∧ x.cq = cq ∧ x.sq = [] ∧ x.ackTimeout = ack ∧ x.retries = ret ∧ x.rnr = rnr) ∧
      t.net.cqs = s.net.cqs ++ [⟨q.fn, ctxKey c, cq, BitVec.ofNat 64 cb, cd, 0, 0⟩]))) ∧
  (∀ (q : CmdReq) (s : State) (n st : Nat) (x : Qp), Admitted s q .vf false → hasFeature s q.fn 4 = true → q.args = .qpModify n st → qpAt s n = some x →
    (x.fn ≠ q.fn → Refused (exec (.qpModify q) s) s q 8) ∧
    (x.fn = q.fn →
      (∀ y ∈ [(1, QpState.reset, QpState.init), (1, .init, .init), (2, .init, .rtr), (3, .rtr, .rts), (3, .rts, .rts)], st = y.1 → x.st = y.2.1 →
        Yields (exec (.qpModify q) s) (fun t => Ends s t q 0 0 [] ∧ qpAt t n = some { x with st := y.2.2 })) ∧
      (st = 0 → Yields (exec (.qpModify q) s) (fun t => Ends s t q 0 0 [] ∧ ∃ y, qpAt t n = some y ∧ y.st = .reset ∧ y.sq = [] ∧ y.rxq = [] ∧
        ∀ o ∈ t.net.inops, o.qpn ≠ n)) ∧
      (st = 4 → Yields (exec (.qpModify q) s) (fun t => ∃ y, qpAt t n = some y ∧ y.st = .error ∧ y.sq = [])) ∧
      ((st, x.st) ∉ [(1, QpState.reset), (1, .init), (2, .init), (3, .rtr), (3, .rts)] → st ≠ 0 → st ≠ 4 → Refused (exec (.qpModify q) s) s q 1))) ∧
  (∀ (q : CmdReq) (s : State) (n : Nat) (x : Qp), Admitted s q .vf false → hasFeature s q.fn 4 = true → q.args = .obj n → qpAt s n = some x → x.fn = q.fn →
    (x.st ≠ .reset → x.st ≠ .error → Refused (exec (.qpDestroy q) s) s q 1) ∧
    (x.st = .reset ∨ x.st = .error → Yields (exec (.qpDestroy q) s) (fun t => Ends s t q 0 0 [] ∧ t.net.qps = s.net.qps.filter (fun y => y.qpn ≠ n)))) ∧
  (∀ (q : CmdReq) (s : State) (key : W32) (base len : Nat) (rd w at_ : Bool) (c : Ctx), Admitted s q .vf false → hasFeature s q.fn 4 = true →
    q.args = .mrReg key base len rd w at_ → ctxFor s q 0 = .ok c → len ≠ 0 → (∀ m ∈ s.net.mrs, m.fn = q.fn → m.key ≠ key) → s.net.mrs.length < 16384 →
    let all (u : State) (wr : Bool) := pinAll (.reg q.fn q.hdr.cookie) c agentDie (len / 4096 + 2) [⟨0, wr, base, len⟩] (len / 4096 + 3) u []
    let pin := if rd || at_ || !w then
        (match all (inHand s q) false with
          | (u, ps, .done) => if w || at_ then all u true else (u, ps, .done)
          | r => r)
      else all (inHand s q) true
    (∀ u pins, pin = (u, pins, .done) → Yields (exec (.mrReg q) s) (fun t =>
      t.net.mrs = u.net.mrs ++ [⟨q.fn, ctxKey c, key, base, len, rd, w, at_, pins, false⟩] ∧ (Reads u q.fn → (q.fn, q.hdr.cookie) ∈ u.host.busy →
        t.host.used = u.host.used ++ [⟨q.fn, 0, q.hdr.cookie, 0, 0, 0, [], 16⟩]))) ∧
    (∀ u pins, pin = (u, pins, .wait) → Yields (exec (.mrReg q) s) (fun t => t.net = u.net ∧ t.host.used = u.host.used ∧
      t.host.ctlQ = (q.fn, q, .ok) :: u.host.ctlQ))) ∧
  (∀ (q : CmdReq) (s : State) (key : Nat), Admitted s q .vf false → hasFeature s q.fn 4 = true → q.args = .obj key →
    ((∀ m ∈ s.net.mrs, m.fn = q.fn → m.key.toNat ≠ key) → Refused (exec (.mrDereg q) s) s q 1) ∧
    ((∃ m ∈ s.net.mrs, m.fn = q.fn ∧ m.key.toNat = key) → Yields (exec (.mrDereg q) s) (fun t => Ends s t q 0 0 [] ∧
      t.net.mrs = s.net.mrs.filter (fun m => !(m.fn = q.fn && m.key.toNat = key))))) ∧
  (∀ (q : CmdReq) (s : State) (port : Nat) (mac : BitVec 48) (gids : List (Nat × BitVec 128)), Admitted s q .vf false → hasFeature s q.fn 4 = true →
    q.args = .netAddr port mac gids →
    (8 ≤ port ∨ (∃ g ∈ gids, 256 ≤ g.1) → Refused (exec (.netAddr q) s) s q 1) ∧
    (port < 8 → (∀ g ∈ gids, g.1 < 256) → (gids.map Prod.fst).Nodup → Yields (exec (.netAddr q) s) (fun t => Ends s t q 0 0 [] ∧
      lkp t.host.macs q.fn = some mac ∧ ∀ g ∈ gids, (q.fn, port * 256 + g.1, g.2) ∈ t.host.gids)))

/-- DECODE_LOAD replaces a context's decode table, or removes it, while the context has no work and no unfinished LAUNCH or GRAPH; PGROUP_SET writes a placement group of devices
of the partition; NGROUP_SET writes a notice group with an empty store (R146, R247, R456). -/
def Sys2Proof.Machine.TablesAreLoaded : Prop :=
  (∀ (q : CmdReq) (s : State) (bs : List Byte) (c : Ctx), Admitted s q .vf false → Pays q bs → ctxFor s q 0 = .ok c →
    (hasFeature s q.fn 6 = false → Refused (exec (.decodeLoad q) s) s q 1) ∧ (hasFeature s q.fn 6 = true →
    let es : List W32 := (List.range 1024).map (fun k => BitVec.ofNat 32 (byteFld bs (4 * k) (4 * k + 3)))
    let legal : Prop := bs.length = 4096 ∧ ∀ e ∈ es, e.extractLsb' 10 21 = 0 ∧ (e.getLsbD 31 = true → assigned (e.extractLsb' 0 10).toNat = true)
    (bs ≠ [] → ¬legal → Refused (exec (.decodeLoad q) s) s q 1) ∧
    (bs = [] ∨ legal → ctxBusy s c = true → Refused (exec (.decodeLoad q) s) s q 9) ∧
    (bs = [] → ctxBusy s c = false → Yields (exec (.decodeLoad q) s) (fun t => Ends s t q 0 0 [] ∧ { c with decode := none } ∈ t.xl.ctxs)) ∧
    (legal → ctxBusy s c = false → Yields (exec (.decodeLoad q) s) (fun t => Ends s t q 0 0 [] ∧ { c with decode := some es } ∈ t.xl.ctxs)))) ∧
  (∀ (q : CmdReq) (s : State) (bs : List Byte) (c : Ctx) (h n : Nat), Admitted s q .vf false → Pays q bs → ctxFor s q 0 = .ok c →
    h = byteFld bs 0 1 → n = byteFld bs 2 3 →
    let row (k i : Nat) : Nat := byteFld bs (16 + 16 * k + i) (16 + 16 * k + i)
    let laid : Prop := bs.length = 16 + 16 * n ∧ h ≤ 255 ∧ 1 ≤ n ∧ n ≤ 144 ∧ byteFld bs 4 15 = 0 ∧ ∀ k, k < n → byteFld bs (16 + 16 * k + 8) (16 + 16 * k + 14) = 0
    (¬laid → Refused (exec (.pgroupSet q) s) s q 1) ∧
    (laid → (∃ k, k < n ∧ (144 ≤ row k 15 ∨ ownsDev s c.part (row k 15) = false)) → Refused (exec (.pgroupSet q) s) s q 8) ∧
    (laid → (∀ k, k < n → row k 15 < 144 ∧ ownsDev s c.part (row k 15) = true) → ((List.range n).map (fun k => row k 15)).Nodup →
      (∀ k i, k < n → i < 8 → row k i = 0xFF ∨ row k i < n) → Yields (exec (.pgroupSet q) s) (fun t => Ends s t q 0 0 [] ∧
        { c with pgroups := ins c.pgroups h bs } ∈ t.xl.ctxs))) ∧
  (∀ (q : CmdReq) (s : State) (bs : List Byte) (c : Ctx) (h n gid : Nat), Admitted s q .vf false → Pays q bs → ctxFor s q 0 = .ok c →
    h = byteFld bs 0 0 → n = (leVal (bs.take 16)) / 2 ^ 16 % 128 → gid = byteFld bs 4 5 →
    (hasFeature s q.fn 1 = false → (∀ m ∈ membersOf bs n, m.dev ≠ s.mod.poddev) → Refused (exec (.ngroupSet q) s) s q 2) ∧ (hasFeature s q.fn 1 = true → bs.length = 16 + 32 * n → 1 ≤ n → n ≤ 64 → leVal (bs.take 16) / 2 ^ 8 % 256 = 0 → leVal (bs.take 16) / 2 ^ 23 % 512 = 0 →
    leVal (bs.take 16) / 2 ^ 48 = 0 → (∀ k, k < n → byteFld bs (16 + 32 * k) (16 + 32 * k + 31) % 2 ^ 134 = 0) →
    let ms := membersOf bs n
    let mine (g : NGroup) : Bool := g.ctx = ctxKey c && g.handle = h
    (ms.map (fun m => (m.dev, m.part, m.ctx, m.gteam, m.block))).Nodup → (∀ m ∈ ms, m.board.toNat % 4096 = 0 ∧ m.dev ≠ s.mod.poddev) →
    ((∃ g ∈ s.ntc.groups, g.gid.toNat = gid ∧ mine g = false) → Refused (exec (.ngroupSet q) s) s q 1) ∧
    ((∀ g ∈ s.ntc.groups, g.gid.toNat = gid → mine g = true) →
      ((∃ g ∈ s.ntc.groups, mine g = true ∧ ∃ x ∈ g.notices, x.out = 1) → Refused (exec (.ngroupSet q) s) s q 9) ∧
      ((∀ g ∈ s.ntc.groups, mine g = true → ∀ x ∈ g.notices, x.out ≠ 1) → (s.ntc.groups.filter (fun g => !mine g)).length < 16 →
        Yields (exec (.ngroupSet q) s) (fun t => Ends s t q 0 0 [] ∧
          t.ntc.groups = s.ntc.groups.filter (fun g => !mine g) ++ [⟨q.fn, ctxKey c, h, BitVec.ofNat 16 gid, ms, [], 0, 0, 0⟩])))))

/-- The control commands of reports, contexts and pages, and the checks common to all, as the three statements above say. -/
def Obligations.CommandsOfContextsAndReports : Prop := CommandsAreChecked ∧ ReportsAreReturned ∧ ContextsAndPagesAreSet
/-- The control commands of partitions, network objects and tables, as the three statements above say. -/
def Obligations.CommandsOfPartitionsAndTables : Prop := PartitionsAreSet ∧ NetworkObjectsAreSet ∧ TablesAreLoaded

/-! ## Events of the network engine (04). -/

namespace Sys2Proof.Machine

/-- The pinned range of a local buffer or region lies on this device under one pin, in one stack: its bytes begin at physical address pa. -/
def PinnedHere (s : State) (pins : List Pin) (va len pa : Nat) : Prop :=
  ∃ p, pins = [p] ∧ p.loc = .dev s.mod.poddev ∧ p.va ≤ va ∧ va + len ≤ p.va + p.size ∧ pa = p.pa + (va - p.va) ∧
    ∀ i, i < len → lostAt s (pa + i) = lostAt s pa
/-- A completion entry's bytes (Table 4-4). -/
def entryBytes (phase op st qpn gen bytes wrid : Nat) : List Byte :=
  leBytes 8 phase ++ leBytes 5 0 ++ leBytes 1 op ++ leBytes 1 st ++ leBytes 3 qpn ++ leBytes 2 gen ++ leBytes 4 bytes ++ leBytes 8 wrid
/-- The completion queue of q has room, and its next entry lies on this device: e is what the engine writes there, first at hi its bytes 8
to 31, then at lo its first word (R86, R87). -/
def Entered (s : State) (q : Qp) (cx : Ctx) (wrid bytes st op : Nat) (e : List Byte) (hi lo : Nat) : Prop :=
  q.qpn < 4096 ∧ op < 256 ∧ st < 256 ∧ ∃ c, cqOf s q = some c ∧ ctxByKey s q.ctx = some cx ∧
    (c.tail + 2 ^ 32 - farIndex s cx (c.base.toNat + 32 * c.depth) % 2 ^ 32) % 2 ^ 32 < c.depth ∧
    e = entryBytes (if c.tail / c.depth % 2 = 0 then 1 else 0) op st q.qpn (ctxGen s cx).toNat bytes wrid ∧
    let a := c.base.toNat + 32 * (c.tail % c.depth)
    let s1 := { s with mem := { s.mem with hbm := writeBytes s.mem.hbm hi (e.drop 8) } }
    farPlace s cx (a + 8) .wr = (s, some hi) ∧ farPlace s1 cx a .wr = (s1, some lo)
/-- The memory after an entry is written. -/
def withEntry (m : Memory) (e : List Byte) (hi lo : Nat) : Memory := writeBytes (writeBytes m hi (e.drop 8)) lo (e.take 8)
/-- The queue pair number n stands in its queue pairs once, as q. -/
def Holds (s : State) (n : Nat) (q : Qp) : Prop := q.qpn = n ∧ s.net.qps.filter (fun x => x.qpn = n) = [q]
/-- Only queue pair n has changed, to q. -/
def QpBecomes (s t : State) (n : Nat) (q : Qp) : Prop := t.net.qps = s.net.qps.map (fun x => if x.qpn = n then q else x)
/-- The queue pair when its oldest request has gone. -/
def qpRetired (s : State) (q : Qp) : Qp :=
  { q with sq := q.sq.drop 1, sent := q.sent - 1, back := [], tries := 0, rnrTries := 0, sentAt := s.fab.podNs }
/-- The oldest request w of queue pair n completes with a status and a number of bytes: its entry stands in the completion queue, it
leaves the queue, and its poster's counter goes down, its named completion delivered (R86, R91, R92). -/
def Completes (s : State) (o : Host.Outcome State Fault Refusal) (n : Nat) (q : Qp) (w : NetWq) (bytes st : Nat) (m : Memory) : Prop :=
  ∀ cx e hi lo g, Entered { s with mem := { s.mem with hbm := m } } q cx w.wrid.toNat bytes st w.op e hi lo → agent s w.owner = some g →
    hasOp g w.opId = true → Yields o (fun t => t.mem.hbm = withEntry m e hi lo ∧ QpBecomes s t n (qpRetired s q) ∧ t.net.wire = s.net.wire ∧
      (∀ c, cqOf s q = some c → { c with tail := c.tail + 1, keep := c.tail + 1 } ∈ t.net.cqs) ∧
      (w.compl = .none → agent t w.owner = some (outDone g 5 w.opId)) ∧
      (∀ k, w.compl = .tag k → agent t w.owner = some (outDone { g with tags := setBit g.tags k true } 5 w.opId)))
/-- A queue pair that receives: its incoming requests are taken at once and answered by its port. -/
def Receiving (s : State) (n : Nat) (q : Qp) (cx : Ctx) : Prop :=
  Holds s n q ∧ (q.st = .rtr ∨ q.st = .rts) ∧ q.rxq = [] ∧ ctxByKey s q.ctx = some cx ∧ timeShared s (q.ctx / 65536) = false ∧
  undoOpen s (q.ctx / 65536) q.fn = false ∧ s.fab.ethUp.getLsbD q.port = true ∧ (∀ o ∈ s.net.inops, o.qpn ≠ n) ∧ 0 < q.mtu
/-- The one new message on the wire, in packets of the path MTU with their offsets (R81). -/
def OnWire (s t : State) (q : Qp) (w : Wire) : Prop :=
  ∃ ws, ws ≠ [] ∧ t.net.wire = s.net.wire ++ ws ∧ ws.flatMap Wire.data = w.data ∧
    ∀ (i : Nat) (x : Wire), ws[i]? = some x → x = { w with off := i * q.mtu, data := x.data } ∧ x.data.length ≤ q.mtu ∧
      (i + 1 < ws.length → x.data.length = q.mtu)
/-- An answer of queue pair n, and a NAK by its code. -/
def answerOf (n kind : Nat) (data : List Byte) : Wire := ⟨n, kind, 0, 0, 0, 0, data, 0, 0⟩
def nakOf (n code : Nat) : Wire := ⟨n, 0x14, 0, 0, 0, code, [], 0, 0⟩
/-- The congestion notification of queue pair n. -/
def cnpOf (n : Nat) : Wire := ⟨n, 0x20, 0, 0, 0, 0, [], 0, 0⟩
/-- An incoming request of a supported form without an ECN mark. -/
def plainRx (n : Nat) : RxHead := ⟨n, false, false⟩
/-- A region answers to key, holds the range, has the right, and is not revoked. -/
def Allows (q : Qp) (m : MemReg) (rkey : W32) (addr len : Nat) (right : Bool) : Prop :=
  m.ctx = q.ctx ∧ m.key = rkey ∧ m.revoked = false ∧ m.base ≤ addr ∧ addr + len ≤ m.base + m.len ∧ right = true
/-- The region that allows it, the only one. -/
def OneAllows (s : State) (q : Qp) (m : MemReg) (rkey : W32) (addr len : Nat) (right : MemReg → Bool) : Prop :=
  m ∈ s.net.mrs ∧ Allows q m rkey addr len (right m) ∧ ∀ x ∈ s.net.mrs, Allows q x rkey addr len (right x) → x = m
def NoneAllows (s : State) (q : Qp) (rkey : W32) (addr len : Nat) (right : MemReg → Bool) : Prop :=
  ∀ x ∈ s.net.mrs, ¬Allows q x rkey addr len (right x)

end Sys2Proof.Machine

/-- NET_WORK_REQUEST sends the oldest entry not yet sent: the bytes of a WRITE or SEND source, none of a READ, ATOMIC or FLUSH; of a
poisoned source only the packets before the one that carries the poisoned line leave, and the queue pair enters Error; an entry fenced behind reads that are out, and one of more than sixteen reads, waits
(R81, R89, R92, R98, R100, Table 4-3). -/
def Sys2Proof.Machine.RequestsAreSent : Prop :=
  ∀ (n : Nat) (s : State) (q : Qp) (w : NetWq) (cx : Ctx), Holds s n q → q.st = .rts → q.rnrWait = none → q.back = [] → q.resps = [] →
    q.fetch = [] → q.rxq = [] → (∀ o ∈ s.net.inops, o.qpn ≠ n) → timeShared s (q.ctx / 65536) = false →
    ctxByKey s q.ctx = some cx → q.sq[q.sent]? = some w → 0 < q.mtu →
    let reads := ((q.sq.take q.sent).filter (fun x => x.op = 2 || x.op = 4 || x.op = 5)).length
    let waits : Prop := (w.fence = true ∧ reads ≠ 0) ∨ ((w.op = 2 ∨ w.op = 4 ∨ w.op = 5) ∧ 16 ≤ reads)
    let sent := { q with sent := q.sent + 1, sentAt := if q.sent = 0 then s.fab.podNs else q.sentAt, fetch := [] }
    (waits → Yields (exec (.netWorkRequest n) s) (fun t => t.net = s.net ∧ t.mem = s.mem)) ∧
    (¬waits → w.op ≠ 1 → w.op ≠ 3 → s.fab.ethUp.getLsbD q.port = true → Yields (exec (.netWorkRequest n) s) (fun t =>
      QpBecomes s t n sent ∧ OnWire s t q ⟨n, w.op, 0, w.raddr, w.rkey, w.len, [], w.opa, w.opb⟩)) ∧
    (∀ pa, ¬waits → w.op = 1 ∨ w.op = 3 → PinnedHere s w.pins w.laddr.toNat w.len pa → poisoned s false pa w.len = false →
      s.fab.ethUp.getLsbD q.port = true → Yields (exec (.netWorkRequest n) s) (fun t => QpBecomes s t n sent ∧ t.mem = s.mem ∧
        OnWire s t q ⟨n, w.op, 0, w.raddr, w.rkey, w.len, readBytes s.mem.hbm pa w.len, w.opa, w.opb⟩)) ∧
    (∀ pa, ¬waits → w.op = 1 ∨ w.op = 3 → s.fab.ethUp.getLsbD q.port = false → PinnedHere s w.pins w.laddr.toNat w.len pa →
      poisoned s false pa w.len = false → Yields (exec (.netWorkRequest n) s) (fun t => QpBecomes s t n sent ∧ t.net.wire = s.net.wire)) ∧
    (∀ pa k e hi lo, ¬waits → w.op = 1 ∨ w.op = 3 → q.sq = [w] → k < w.len → PinnedHere s w.pins w.laddr.toNat w.len pa →
      (∀ i, i < k → poisoned s false (pa + i) 1 = false) → poisoned s false (pa + k) 1 = true → s.fab.ethUp.getLsbD q.port = true →
      Entered s q cx w.wrid.toNat 0 8 w.op e hi lo → Yields (exec (.netWorkRequest n) s) (fun t =>
        let whole := k / q.mtu * q.mtu
        (if whole = 0 then t.net.wire = s.net.wire
         else OnWire s t q ⟨n, w.op, 0, w.raddr, w.rkey, w.len, readBytes s.mem.hbm pa whole, w.opa, w.opb⟩) ∧ t.mem.hbm = withEntry s.mem.hbm e hi lo ∧ ∃ x, Holds t n x ∧ x.st = .error ∧ x.sq = []))

/-- NET_RESPONSE completes the oldest request that has left: an acknowledgement a WRITE, SEND or FLUSH, data a READ, placed before its entry,
a value an ATOMIC, a NAK with its status; a receiver not ready has the requests sent again, while retries remain. In Error or Reset a response is discarded. (R81, R92, R100, Table 4-6).
State after a NAK: log 26. -/
def Sys2Proof.Machine.ResponsesComplete : Prop :=
  ∀ (n : Nat) (s : State) (q : Qp) (r : NetResp), Holds s n q →
    ((q.st = .error ∨ q.st = .reset) → exec (.netResponse n r) s = .next s) ∧
    (∀ w cx, q.st ≠ .error → q.st ≠ .reset → q.back = [] → q.resps = [] → q.sq.head? = some w → 0 < q.sent → ctxByKey s q.ctx = some cx →
      let o := exec (.netResponse n r) s
      (r = .ack → (w.op = 1 ∨ w.op = 3 ∨ w.op = 6) → Completes s o n q w w.len 0 s.mem.hbm) ∧
      (∀ d pa, r = .readData d → w.op = 2 → d.length = w.len → PinnedHere s w.pins w.laddr.toNat w.len pa →
        Completes s o n q w w.len 0 (writeBytes s.mem.hbm pa d)) ∧
      (∀ v pa, r = .atomicValue v → (w.op = 4 ∨ w.op = 5) → PinnedHere s w.pins w.laddr.toNat 8 pa →
        Completes s o n q w w.len 0 (writeBytes s.mem.hbm pa (leBytes 8 v.toNat))) ∧
      (r = .nak .remoteAccess → Completes s o n q w 0 2 s.mem.hbm) ∧
      (r = .nak .remoteInvalid → Completes s o n q w 0 3 s.mem.hbm) ∧
      (r = .nak .remoteOperation → Completes s o n q w 0 4 s.mem.hbm) ∧
      (r = .nak .rnr → q.rnr = 7 ∨ q.rnrTries < q.rnr → Yields o (fun t => t.mem = s.mem ∧ t.net.wire = s.net.wire ∧
        QpBecomes s t n { q with rnrWait := some s.fab.podNs, rnrTries := q.rnrTries + 1, sent := 0, fetch := [] })) ∧
      (r = .nak .rnr → q.rnr ≠ 7 → q.rnr ≤ q.rnrTries → Completes s o n q w 0 6 s.mem.hbm))

/-- NET_ACK_TIMEOUT, 4.096 µs × 2^n after the oldest request left, has the requests sent again while retries remain and then completes it with
RETRY_EXCEEDED. RNR_RETRY_TIMEOUT ends the wait of a receiver that was not ready. CNP_RECEIVED halves the rate, and
RATE_RECOVERY gives back an eighth of what is lost when 55 µs have gone by without another (R81, Table 4-1).
RNR wait, rate unit: log 26. -/
def Sys2Proof.Machine.RetriesAndRates : Prop :=
  ∀ (n : Nat) (s : State) (q : Qp), Holds s n q →
    (∀ w, q.st = .rts → q.back = [] → q.sq.head? = some w → 0 < q.sent →
      let due := q.sentAt + 4096 * 2 ^ q.ackTimeout
      (s.fab.podNs < due → exec (.netAckTimeout n) s = .next (progress s)) ∧
      (due ≤ s.fab.podNs → q.tries < q.retries → Yields (exec (.netAckTimeout n) s) (fun t => t.mem = s.mem ∧ t.net.wire = s.net.wire ∧
        QpBecomes s t n { q with tries := q.tries + 1, sent := 0, fetch := [] })) ∧
      (due ≤ s.fab.podNs → q.retries ≤ q.tries → Completes s (exec (.netAckTimeout n) s) n q w 0 5 s.mem.hbm)) ∧
    (q.sq = [] ∨ q.sent = 0 → exec (.netAckTimeout n) s = .next (progress s)) ∧
    Yields (exec (.rnrRetryTimeout n) s) (fun t => t.mem = s.mem ∧ t.net.wire = s.net.wire ∧ QpBecomes s t n { q with rnrWait := none }) ∧
    Yields (exec (.cnpReceived n) s) (fun t => t.mem = s.mem ∧ QpBecomes s t n { q with rate := q.rate / 2, since := s.fab.podNs }) ∧
    (s.fab.podNs < q.since + 55000 → Yields (exec (.rateRecovery n) s) (fun t => QpBecomes s t n q)) ∧
    (q.since + 55000 ≤ s.fab.podNs → Yields (exec (.rateRecovery n) s) (fun t => t.mem = s.mem ∧
      QpBecomes s t n { q with rate := q.rate + (65536 - q.rate) / 8, since := s.fab.podNs }))

/-- An incoming WRITE, READ, ATOMIC or FLUSH acts on the one region its key names, where the range lies in it and it has the right, and is
answered, otherwise with a NAK Remote Access Error. A poisoned line is answered with a NAK
Remote Operational Error, an ATOMIC not on 8 bytes with a NAK Invalid Request. A SEND fills the next receive buffer and completes there; with
none posted it is answered as not ready, and one too long with a NAK. A form Table 4-1 does not list, or more than 1 MiB, gets
a NAK Invalid Request, an ECN mark a congestion notification first; a queue pair in Reset or Error drops every request (R81, R87, R93 to R95, R98, R101).
The index behind a ring: log 13. -/
def Sys2Proof.Machine.IncomingRequestsAct : Prop :=
  (∀ (n : Nat) (s : State) (q : Qp) (cx : Ctx) (rkey : W32) (addr len : Nat) (data : List Byte), Receiving s n q cx → data.length ≤ 0x100000 →
    len ≤ 0x100000 →
    (NoneAllows s q rkey addr data.length MemReg.w → Yields (exec (.incomingRdmaWrite (plainRx n) rkey addr data) s) (fun t => t.mem = s.mem ∧ OnWire s t q (nakOf n 1))) ∧
    (∀ m pa, OneAllows s q m rkey addr data.length MemReg.w → PinnedHere s m.pins addr data.length pa →
      Yields (exec (.incomingRdmaWrite (plainRx n) rkey addr data) s) (fun t => t.mem.hbm = writeBytes s.mem.hbm pa data ∧ OnWire s t q (answerOf n 0x11 []))) ∧
    (NoneAllows s q rkey addr len MemReg.rd → Yields (exec (.incomingRdmaRead (plainRx n) rkey addr len) s) (fun t => t.mem = s.mem ∧ OnWire s t q (nakOf n 1))) ∧
    (∀ m pa, OneAllows s q m rkey addr len MemReg.rd → PinnedHere s m.pins addr len pa → Yields (exec (.incomingRdmaRead (plainRx n) rkey addr len) s) (fun t =>
      t.mem = s.mem ∧ (poisoned s false pa len = false → OnWire s t q (answerOf n 0x12 (readBytes s.mem.hbm pa len))) ∧
      (0 < len → poisoned s false pa len = true → OnWire s t q (nakOf n 3)))) ∧
    (NoneAllows s q rkey addr len (fun _ => true) → Yields (exec (.incomingFlush (plainRx n) rkey addr len) s) (fun t => t.mem = s.mem ∧ OnWire s t q (nakOf n 1))) ∧
    (∀ m, OneAllows s q m rkey addr len (fun _ => true) → Yields (exec (.incomingFlush (plainRx n) rkey addr len) s) (fun t =>
      t.mem = s.mem ∧ OnWire s t q (answerOf n 0x11 []))) ∧
    (∀ cas x y, (addr % 8 ≠ 0 → Yields (exec (.incomingAtomic (plainRx n) rkey addr cas x y) s) (fun t => t.mem = s.mem ∧ OnWire s t q (nakOf n 2))) ∧
      (addr % 8 = 0 → NoneAllows s q rkey addr 8 MemReg.atomic → Yields (exec (.incomingAtomic (plainRx n) rkey addr cas x y) s) (fun t =>
        t.mem = s.mem ∧ OnWire s t q (nakOf n 1))) ∧
      (∀ m pa, addr % 8 = 0 → OneAllows s q m rkey addr 8 MemReg.atomic → PinnedHere s m.pins addr 8 pa → pa % 8 = 0 →
        let v : W64 := BitVec.ofNat 64 (readNum s.mem.hbm pa 8)
        let new := if cas then (if v = y then x else v) else v + x
        Yields (exec (.incomingAtomic (plainRx n) rkey addr cas x y) s) (fun t =>
          (poisoned s false pa 8 = false → t.mem.hbm = writeBytes s.mem.hbm pa (leBytes 8 new.toNat) ∧ OnWire s t q (answerOf n 0x13 (leBytes 8 v.toNat))) ∧
          (poisoned s false pa 8 = true → t.mem = s.mem ∧ OnWire s t q (nakOf n 3)))))) ∧
  (∀ (n : Nat) (s : State) (q : Qp) (cx : Ctx) (data : List Byte), Receiving s n q cx → data.length ≤ 0x100000 →
    let given := farIndex s cx (q.rqBase.toNat + 16 * q.rqDepth)
    (given = q.rqHead % 2 ^ 32 → Yields (exec (.incomingSend (plainRx n) data) s) (fun t => t.mem = s.mem ∧ OnWire s t q (nakOf n 4))) ∧
    (∀ pa, given ≠ q.rqHead % 2 ^ 32 → farPlace s cx (q.rqBase.toNat + 16 * (q.rqHead % q.rqDepth)) .rd = (s, some pa) →
      let room := readNum s.mem.hbm (pa + 4) 4
      let dest := readNum s.mem.hbm (pa + 8) 8
      let taken := { q with rqHead := q.rqHead + 1 }
      (∀ e hi lo, room < data.length → Entered s q cx 0 0 9 0x10 e hi lo → Yields (exec (.incomingSend (plainRx n) data) s) (fun t =>
        t.mem.hbm = withEntry s.mem.hbm e hi lo ∧ QpBecomes s t n taken ∧ OnWire s t q (nakOf n 2))) ∧
      (∀ pins dest' e hi lo, data.length ≤ room → rxPins s q cx dest data.length = (s, pins, .done) → (data = [] ∨ PinnedHere s pins dest data.length dest') →
        Entered { s with mem := { s.mem with hbm := writeBytes s.mem.hbm dest' data } } q cx 0 data.length 0 0x10 e hi lo →
        Yields (exec (.incomingSend (plainRx n) data) s) (fun t => t.mem.hbm = withEntry (writeBytes s.mem.hbm dest' data) e hi lo ∧
          QpBecomes s t n taken ∧ OnWire s t q (answerOf n 0x11 []))))) ∧
  (∀ (n : Nat) (s : State) (q : Qp) (rkey : W32) (addr len : Nat) (data : List Byte) (cas : Bool) (x y : W64), Holds s n q →
    let forms : List (RxHead → Instr) := [(.incomingRdmaWrite · rkey addr data), (.incomingRdmaRead · rkey addr len), (.incomingSend · data),
      (.incomingAtomic · rkey addr cas x y), (.incomingFlush · rkey addr len)]
    (∀ ce other, (q.st = .reset ∨ q.st = .init ∨ q.st = .error) → ∀ i ∈ forms, exec (i ⟨n, ce, other⟩) s = .next (progress s)) ∧
    (∀ cx, Receiving s n q cx →
      (∀ i ∈ forms, Yields (exec (i ⟨n, false, true⟩) s) (fun t => t.mem = s.mem ∧ OnWire s t q (nakOf n 2))) ∧
      (∀ i ∈ forms, ∀ b, exec (i ⟨n, true, b⟩) s = exec (i ⟨n, false, b⟩) { s with net := { s.net with wire := s.net.wire ++ [cnpOf n] } }) ∧
      (0x100000 < data.length → ∀ i ∈ forms.take 1 ++ (forms.drop 2).take 1, exec (i (plainRx n)) s = exec (i ⟨n, false, true⟩) s) ∧
      (0x100000 < len → exec (.incomingRdmaRead (plainRx n) rkey addr len) s = exec (.incomingRdmaRead ⟨n, false, true⟩ rkey addr len) s)))

/-- The network engine's requests, their answers and what comes from the wire, as the four statements above say. -/
def Obligations.NetworkEvents : Prop := RequestsAreSent ∧ ResponsesComplete ∧ RetriesAndRates ∧ IncomingRequestsAct

/-! ## The machine as a whole: reset, words, issue, step. -/

namespace Sys2Proof.Machine

/-- The common fields of an operation without a guard: GUARD 7, GNEG 0, LA 0 (R171, R231). -/
def plainC : Common := ⟨false, 7, 0⟩
/-- A word of each format whose fields are zero but for the guard. -/
def plainT : FmtT := ⟨plainC, 0, 0, 0, 0, false, false, false, .f32, .rn, false, 0⟩
def plainI : FmtI := ⟨plainC, 0, 0, .f32, false⟩
def plainM : FmtM := ⟨plainC, 0, 0, 0, .rlx, .warp, .stack, .f32, false⟩
def plainB : FmtB := ⟨plainC, 0, 0, 0, false, 0⟩
def plainA : FmtA := ⟨plainC, 0, 0, 0, 0, .none, 0, 0⟩
def plainX : FmtX := ⟨plainC, 0, 0, 0⟩
def plainM2 : FmtC := ⟨plainC, 0, 0, 0, 0, 0, .f32, 0, 0, 0⟩
/-- Words the manual writes out, with the fields it gives (R283, R289, Tables 11-5, 14-7, 19-11, 21-6, 26-4, 27-3). -/
def wordsOfTheManual : List (Nat × Instr) :=
  [(0x000201030A11C000, .sadd { plainT with ob := 2, oa := 1, dst := 3, ty := .s32, sat := true }),
   (0x000000010459C019, .saddi { plainI with imm := 1, dst := 4, ty := .s64 }),
   (0x00000002085DC018, .smovi { plainI with imm := 2, dst := 8, ty := .s64, hi := true }),
   (0x003006000001C021, .mfsr { plainX with imm := 0x30, dst := 6 }),
   (0x000050000A01C038, .lpset { plainB with tgt1 := 5, tgt2 := 10 }),
   (0xFFFFE00000008030, .bra { plainB with c := ⟨false, 2, 0⟩, tgt1 := 0xFFFFE }),
   (0x0C020D034A008089, .vaddmin { plainT with c := ⟨false, 2, 0⟩, oc := 12, ob := 2, oa := 13, dst := 3, ub := true, ty := .s32 }),
   (0x03010101120440E2, .vshup { plainT with c := ⟨false, 1, 0⟩, oc := 3, ob := 1, oa := 1, dst := 1, ty := .b32, sub := 1 }),
   (0x040200400199C180, .ld { plainM with data := 4, base := 2, off := 0x40, space := .shared, ty := .b64 }),
   (0x050607010751C1C2, .fatomAdd { plainM with data := 5, base := 6, off := 0x701, space := .far, ty := .s32 }),
   (0x08040A0CF79DC1C9, .fcas { plainM with data := 8, base := 4, off := 0xA0C, ord := .acqrel, scope := .system, space := .far, ty := .b64, ubase := true }),
   (0x040000143001C1E2, .flow { plainA with oa := 4, kh := 1, ckind := .tag, carg := 3 }),
   (0x02C000040001C221, .wayregNeed { plainX with imm := 0x2C0, oa := 4 }),
   (0x100200000001C22A, .waitc { plainX with imm := 0x1002 }),
   (0x00340C345101C240, .mma { plainM2 with bbase := 0x34, aslot := 3, bslot := 3, tile := 2, ty := .q4, batch := 1 }),
   (0x05000200004DC263, .resample { plainA with oa := 5, oc := 2, sub := 0x13 }),
   (0x040015000005C276, .nstatCnt { plainA with oa := 4, oc := 0x15, sub := 1 }),
   (0x080400045001C280, .xwrite { plainA with oa := 8, ob := 4, ckind := .tag, carg := 5 }),
   (0x8000003F0001C2A0, .trapVec { plainX with imm := 0x8000, oa := 0x3F }),
   (0x000100000001C2A1, .tret { plainX with imm := 1 })]

/-- The checks of R232 on word w of operation i before its registers are looked at, in order: what fails, and the trap. -/
def wordChecks (s : State) (g : Agent) (i : Instr) (op : Nat) (f : Fmt) : List (Bool × Cause) :=
  [(!capsOk s g op f, .illop), (!formOk i, .illop),
   (isStream s.cur && (warpOnly op f || !classOk (classOf op) true), .illop),
   (!isStream s.cur && (blkField op f ≠ 0 || !classOk (classOf op) false), .illop),
   (g.need = 1 && op ≠ 0x036, .illop), (g.need = 2 && op ≠ 0x037, .illop),
   (privOp op f && !g.tprio, .priv)]
/-- What has arrived from outside are events, no operations: those are words of agents. -/
def OnlyEvents (s : State) : Prop := ∀ i ∈ s.inbox ++ s.late, opcode i = none
/-- A trap at the word at hand, in the state as it stands. -/
def trapsHere (s : State) (g : Agent) (c : Cause) (v : W64) : Host.Outcome State Fault Refusal := .next (progress (raise s s.cur g c.code v 0))

end Sys2Proof.Machine

/-- At reset (the model's choice, log 1: the module without power) nothing is presented, translated, placed or under way, every port is down,
and no byte of memory is listed, so that each memory is in canonical form; the first word placed there runs as the next step (log 14). -/
def Obligations.ResetIsTheUnpoweredModule : Prop :=
  State.MemOk State.reset ∧ State.reset.mem.hbm = [] ∧ State.reset.mem.yard = [] ∧ State.reset.mod.power = .off ∧ State.reset.host.funcs = [] ∧
  State.reset.agents = [] ∧ State.reset.blocks = [] ∧ State.reset.xl.ctxs = [] ∧ State.reset.part.parts = [] ∧ State.reset.net.qps = [] ∧
  State.reset.fab.fabUp = 0 ∧ State.reset.fab.ethUp = 0 ∧ State.reset.fab.entries = [] ∧ State.reset.inbox = [] ∧ State.reset.late = [] ∧
  (∀ p ∈ wordsOfTheManual, let s := State.reset.withFetchWord 64 p.1
    ∃ g, agent (takeTurn s s.cur) s.cur = some g ∧ step s = afterStep (exec p.2 (takeTurn s s.cur)))

/-- Words the manual writes out decode to the operations it names with the fields it gives, and the word whose opcode the default table does not
assign decodes to none (R231, R235 to R242, R259). -/
def Obligations.WordsOfTheManualDecode : Prop :=
  (∀ p ∈ wordsOfTheManual, decode (BitVec.ofNat 64 p.1) = some p.2) ∧ decode 0x030201040A01C2C0 = none

/-- Every well-formed operation has a word, and that word decodes to the operation with each of its fields; and a word that decodes to an
operation is that operation's word, which is well-formed: no bit of a word is dropped and no two words mean the same (R231, R235 to R242). -/
def Obligations.DecodingReversesEncoding : Prop :=
  (∀ i : Instr, i.WellFormed → (opcode i).isSome → ∃ w, encode i = some w ∧ decode w = some i) ∧
  (∀ (w : W64) (i : Instr), decode w = some i → i.WellFormed ∧ encode i = some w)

/-- An operation meets the checks in R232's order. A poisoned result that was written traps first, but for a SPAWN whose add has left. Then the first failing check traps with the
word in TVAL: a capability not accepted, a form not admitted, a kind of agent that does not run it, a branch's companion missing, a privilege;
then a vector register beyond the allocation with its number; then a destination pending in an open window with its code. An operand whose result
has not come after its window, or in a time-shared partition a full log, makes the operation wait, all else as it was (R135, R185, R232, R244,
R258).
Which of several registers BOUNDS names is the model's reading (log 9). -/
def Obligations.IssueChecksInOrder : Prop :=
  ∀ (i : Instr) (op : Nat) (f : Fmt) (s : State) (g : Agent), opcode i = some op → fmtOf i = some f → agent s s.cur = some g → g.trapPend = none →
    let u := useOf op f
    let pending (win : Bool) (r : RC) : Prop := ∃ p ∈ g.pend, r ∈ p.dst ∧ (if win then 0 < p.win else p.win = 0 ∧ p.left ≠ 0)
    let clear : Prop := g.poison = none ∨ spawnBegun s s.cur op = true
    (∀ v, g.poison = some v → spawnBegun s s.cur op = false → exec i s = trapsHere s { g with poison := none } .poison v) ∧
    (clear → ∀ x, (wordChecks s g i op f).find? Prod.fst = some x → exec i s = trapsHere s g x.2 (curWord g)) ∧
    (clear → (wordChecks s g i op f).find? Prod.fst = none →
      (∀ r, (u.dst ++ u.src).find? (fun r => r.file = 0 && g.alloc ≤ r.num) = some r → exec i s = trapsHere s g .bounds (BitVec.ofNat 64 r.num)) ∧
      ((u.dst ++ u.src).find? (fun r => r.file = 0 && g.alloc ≤ r.num) = none →
        (∀ r, r ∈ u.dst → pending true r → ∃ r' ∈ u.dst, pending true r' ∧ exec i s = trapsHere s g .illdep (BitVec.ofNat 64 (r'.file * 256 + r'.num))) ∧
        ((∀ r ∈ u.dst, ¬pending true r) → (∃ r ∈ u.dst ++ u.src, pending false r) ∨ logWait s s.cur g op f = true →
          exec i s = .next (park s s.cur))))

/-- One step takes the first thing that is due: an event of the device, then what has arrived from outside, which waits while its write finds the
undo log full, then an instruction. The agent that
issues runs the operation its word decodes to through its context's decode table; a word that decodes to none traps ILLOP, or POISON where a poisoned
result was written before it; an agent without a clause fetches one, and keeps its place in the arbiter's order for its first word. When nothing can be
done a waiting JOIN is polled. After it, time passes by an amount the model leaves free (logs 4 to 6), and the counters of waiting instances with it; a
lead over the master is given up, how fast being the model's choice (log 3) (R47, R165, R166, R232, R246, R259, R326, R435). -/
def Obligations.StepRunsTheDecodedOperation : Prop :=
  (∀ (s : State) (o : Host.Outcome State Fault Refusal), nextInternal s = some o → step s = afterStep o) ∧
  (∀ (s : State) (i : Instr), nextInternal s = none → s.late.find? (fun x => !waitsUndo s x) = some i →
    step s = afterStep (exec i { s with late := s.late.erase i })) ∧
  (∀ (s : State) (i : Instr) (r : List Instr), nextInternal s = none → (∀ x ∈ s.late, waitsUndo s x = true) → s.inbox = i :: r →
    (waitsUndo s i = false → step s = afterStep (exec i { s with inbox := r })) ∧
    (waitsUndo s i = true → step s = afterStep (.next { s with inbox := r, late := s.late ++ [i] }))) ∧
  (∀ (s : State) (a : AgentId) (g : Agent), nextInternal s = none → (∀ x ∈ s.late, waitsUndo s x = true) → s.inbox = [] → chooseAgent s = some a → agent (takeTurn s a) a = some g →
    (∀ i, g.clause.isSome → g.waited = true → decodeIn (takeTurn s a) g (curWord g) = some i → step s = afterStep (exec i (takeTurn s a))) ∧
    (g.clause.isSome → g.waited = true → decodeIn (takeTurn s a) g (curWord g) = none →
      (g.poison = none → step s = afterStep (.next (progress (raise (takeTurn s a) a g 0x01 (curWord g) 0)))) ∧
      (∀ v, g.poison = some v → step s = afterStep (.next (progress (raise (takeTurn s a) a { g with poison := none } Cause.poison.code v 0))))) ∧
    (g.clause = none ∨ g.waited = false → step s = afterStep (exec (.clauseFetch a) (fetchTurn s a)))) ∧
  (∀ (s : State) (a : AgentId), nextInternal s = none → (∀ x ∈ s.late, waitsUndo s x = true) → s.inbox = [] → chooseAgent s = none → idlePoll s = some a → step s = afterStep (exec (.joinPoll a) s)) ∧
  (∀ (t : State), ∃ t', afterStep (.next t) = .next t' ∧ t'.fab.cycles = t.fab.cycles + (Config.free t.freeIx).toNat ∧ t'.fab.lead ≤ t.fab.lead ∧
    t'.fab.podNs + (t.fab.lead - t'.fab.lead) = t.fab.podNs + (t'.fab.cycles * 5 / 9 - t.fab.cycles * 5 / 9) ∧ t.fab.podNs ≤ t'.fab.podNs ∧
    t' = { t with
      fab := { t.fab with podNs := t'.fab.podNs, cycles := t'.fab.cycles, lead := t'.fab.lead }
      freeIx := t.freeIx + 1, part := { t.part with tokWait := t'.part.tokWait }
      agents := t.agents.map (fun e => (e.1, if agentReady t e.1 e.2 then e.2 else { e.2 with tried := t'.fab.cycles })) })

/-- Each step keeps HBM and yard in canonical form, whatever happens in it: addresses strictly rising and no entry of zero, so that a byte no
entry lists reads 0 and equal memories are equal data (the form is the model's, log 1; what the memories are: R198, R478). -/
def Obligations.StepsKeepMemoryCanonical : Prop := ∀ s t : State, State.MemOk s → step s = .next t → State.MemOk t

/-- No step stops, and each keeps what lets the next one go on: while nothing that has arrived from outside is an operation, a step ends in a next
state, never in a fault or a refusal, and in that state nothing that has arrived is an operation; an operation ends in a next state wherever its
agent exists. Every trap of R232 is a next state (R378). -/
def Obligations.EveryStepGoesOn : Prop :=
  (∀ s : State, OnlyEvents s → ∃ t, step s = .next t ∧ OnlyEvents t) ∧
  (∀ (i : Instr) (s : State), (opcode i = none ∨ (agent s s.cur).isSome) → ∃ t, exec i s = .next t)
end

