-- ==== Sys2Proof/Laws/Table.lean ====
section
/-! SUPPORT. Laws of tables and of sparse maps: a read after a write, and the canonical form every memory operation
keeps. -/

namespace Sys2Proof.Machine

variable {κ α : Type} [DecidableEq κ] {w : Nat}

/-! Tables. -/

@[simp] theorem lkp_ins_self (t : List (κ × α)) (k : κ) (v : α) : lkp (ins t k v) k = some v := by
  induction t with
  | nil => simp [ins, lkp]
  | cons e r ih => simp only [ins]; split <;> simp_all [lkp]
theorem lkp_ins_ne (t : List (κ × α)) {k j : κ} (h : k ≠ j) (v : α) : lkp (ins t k v) j = lkp t j := by
  induction t with
  | nil => simp [ins, lkp, h]
  | cons e r ih => simp only [ins]; split <;> simp_all [lkp]
@[simp] theorem ins_ins_self (t : List (κ × α)) (k : κ) (u v : α) : ins (ins t k u) k v = ins t k v := by
  induction t with
  | nil => simp [ins]
  | cons e r ih => simp only [ins]; split <;> simp_all [ins]

/-! Sparse maps. -/

theorem mwf_cons {b : Nat} {e : Nat × BitVec w} {r : Map w} :
    mwfFrom b (e :: r) = true ↔ b ≤ e.1 ∧ e.2 ≠ 0 ∧ mwfFrom (e.1 + 1) r = true := by
  simp only [mwfFrom, Bool.and_eq_true, decide_eq_true_eq, and_assoc]
theorem mwf_tail {b : Nat} {e : Nat × BitVec w} {r : Map w} (h : mwfFrom b (e :: r) = true) :
    b ≤ e.1 ∧ e.2 ≠ 0 ∧ mwfFrom (e.1 + 1) r = true := mwf_cons.mp h
theorem mwf_mono {m : Map w} {b c : Nat} (h : mwfFrom c m = true) (hb : b ≤ c) : mwfFrom b m = true := by
  cases m with
  | nil => rfl
  | cons e r =>
    obtain ⟨h1, h2, h3⟩ := mwf_tail h
    exact mwf_cons.mpr ⟨by omega, h2, h3⟩
/-- A map whose keys start above a key reads zero there. -/
theorem mget_below {m : Map w} {b k : Nat} (h : mwfFrom b m = true) (hk : k < b) : mget m k = 0 := by
  induction m generalizing b with
  | nil => rfl
  | cons e r ih =>
    obtain ⟨h1, -, h3⟩ := mwf_tail h
    have : e.1 ≠ k := by omega
    simpa [mget, this] using ih h3 (by omega)
/-- Reading the key just written. -/
theorem mget_mset_self {m : Map w} {b : Nat} (h : mwfFrom b m = true) (k : Nat) (v : BitVec w) : mget (mset m k v) k = v := by
  induction m generalizing b with
  | nil => simp only [mset]; split <;> simp_all [mget]
  | cons e r ih =>
    obtain ⟨h1, h2, h3⟩ := mwf_tail h
    simp only [mset]
    split
    · split
      · next hk hv => rw [hv]; exact mget_below (b := e.1) (mwf_cons.mpr ⟨Nat.le_refl _, h2, h3⟩) hk
      · simp [mget]
    · split
      · split
        · next hk hv => rw [hv]; exact mget_below h3 (by omega)
        · simp [mget]
      · next hk hn =>
        have : e.1 ≠ k := fun h => hn h.symm
        simpa [mget, this] using ih h3
/-- Every other key reads as before. -/
theorem mget_mset_ne (m : Map w) {k j : Nat} (hj : k ≠ j) (v : BitVec w) : mget (mset m k v) j = mget m j := by
  induction m with
  | nil => simp only [mset]; split <;> simp [mget, hj]
  | cons e r ih =>
    simp only [mset]
    split
    · split
      · rfl
      · simp [mget, hj]
    · split
      · next hk => split <;> simp [mget, ← hk, hj]
      · simp only [mget]; split
        · rfl
        · exact ih
theorem mset_wf_from {m : Map w} {b : Nat} (h : mwfFrom b m = true) {k : Nat} (hk : b ≤ k) (v : BitVec w) :
    mwfFrom b (mset m k v) = true := by
  induction m generalizing b with
  | nil =>
    simp only [mset]
    split
    · rfl
    · next hv => exact mwf_cons.mpr ⟨hk, hv, rfl⟩
  | cons e r ih =>
    obtain ⟨h1, h2, h3⟩ := mwf_tail h
    simp only [mset]
    split
    · split
      · exact h
      · next hl hv => exact mwf_cons.mpr ⟨hk, hv, mwf_cons.mpr ⟨Nat.succ_le_of_lt hl, h2, h3⟩⟩
    · split
      · split
        · exact mwf_mono h3 (by omega)
        · next he hv => exact mwf_cons.mpr ⟨hk, hv, mwf_mono h3 (by simp only; omega)⟩
      · exact mwf_cons.mpr ⟨h1, h2, ih h3 (by omega)⟩
/-- A write keeps the canonical form. -/
theorem mset_wf {m : Map w} (h : mwf m = true) (k : Nat) (v : BitVec w) : mwf (mset m k v) = true := mset_wf_from h (Nat.zero_le _) v
theorem mget_mset {m : Map w} (h : mwf m = true) (k j : Nat) (v : BitVec w) : mget (mset m k v) j = if k = j then v else mget m j := by
  split
  · next e => subst e; exact mget_mset_self h k v
  · next e => exact mget_mset_ne m e v
theorem msetAll_wf {m : Map w} (h : mwf m = true) (es : List (Nat × BitVec w)) : mwf (msetAll m es) = true := by
  induction es generalizing m with
  | nil => exact h
  | cons e r ih => exact ih (mset_wf h e.1 e.2)
/-- A byte string written keeps the canonical form. -/
theorem writeBytes_wf {m : Memory} (h : Memory.wf m = true) (a : Nat) (bs : List Byte) : Memory.wf (writeBytes m a bs) = true := by
  induction bs generalizing m a with
  | nil => exact h
  | cons b r ih => exact ih (mset_wf (w := 8) h a b) (a + 1)
/-- Bytes outside a write read as before. -/
theorem mget_writeBytes_outside (m : Memory) (a : Nat) (bs : List Byte) (x : Nat) (h : x < a ∨ a + bs.length ≤ x) :
    mget (w := 8) (writeBytes m a bs) x = mget (w := 8) m x := by
  induction bs generalizing m a with
  | nil => rfl
  | cons b r ih =>
    simp only [List.length_cons] at h
    rw [writeBytes, ih _ _ (by omega), mget_mset_ne _ (by omega)]
/-- Bytes inside a write read as written. -/
theorem mget_writeBytes_inside {m : Memory} (hm : Memory.wf m = true) (a : Nat) (bs : List Byte) (i : Nat) (h : i < bs.length) :
    mget (w := 8) (writeBytes m a bs) (a + i) = bs[i] := by
  induction bs generalizing m a i with
  | nil => simp at h
  | cons b r ih =>
    cases i with
    | zero => rw [writeBytes, mget_writeBytes_outside _ _ _ _ (by omega)]; simpa using mget_mset_self (w := 8) hm a b
    | succ i =>
      rw [writeBytes, show a + (i + 1) = a + 1 + i by omega]
      simpa using ih (mset_wf (w := 8) hm a b) (a + 1) i (by simpa using h)
theorem readBytes_writeBytes {m : Memory} (hm : Memory.wf m = true) (a : Nat) (bs : List Byte) :
    readBytes (writeBytes m a bs) a bs.length = bs := by
  apply List.ext_getElem (by simp [readBytes])
  intro i h1 h2
  simpa [readBytes] using mget_writeBytes_inside hm a bs i h2

end Sys2Proof.Machine
end

