-- ==== Sys2Proof/Laws/Issue.lean ====
section
/-! SUPPORT. What the issue of an operation can do, said once: a ready operation does what its meaning answers, and each
answer leaves the state the words of Safety.lean name. -/

namespace Sys2Proof.Machine

@[simp] theorem agent_setAgent (s : State) (a : AgentId) (g : Agent) : agent (setAgent s a g) a = some g := lkp_ins_self _ _ _
theorem agent_setAgent_ne (s : State) {a b : AgentId} (h : a ≠ b) (g : Agent) : agent (setAgent s a g) b = agent s b := lkp_ins_ne _ h _
@[simp] theorem setAgent_setAgent (s : State) (a : AgentId) (g h : Agent) : setAgent (setAgent s a g) a h = setAgent s a h := by
  simp [setAgent]
theorem modAgent_setAgent (s : State) (a : AgentId) (g : Agent) (f : Agent → Agent) :
    modAgent (setAgent s a g) a f = setAgent s a (f g) := by simp [modAgent]

/-- The four ways an operation that is done leaves its agent. -/
theorem conclude_next (s : State) (g : Agent) : conclude s.cur (.next (setAgent s s.cur g)) = issued s g := by
  rw [conclude, modAgent_setAgent]; rfl
theorem conclude_fall (s : State) (g : Agent) : conclude s.cur (.fall (setAgent s s.cur g)) = fallen s g := by
  rw [conclude, modAgent_setAgent]; rfl
theorem conclude_jump (s : State) (g : Agent) (t : W64) : conclude s.cur (.jump (setAgent s s.cur g) t) = jumped s g t := by
  rw [conclude, modAgent_setAgent]; rfl
theorem conclude_placed (s : State) (g : Agent) : conclude s.cur (.placed (setAgent s s.cur g)) = placed s g := rfl

/-- A ready operation does what its meaning answers. -/
theorem issue_ready {i : Instr} {body : State → AgentId → Agent → Res} {s : State} {g : Agent} (h : Ready s i g) :
    issue i body s = .next (conclude s.cur (body (setAgent s s.cur g) s.cur g)) := by
  unfold Ready readyAgent at h
  split at h
  · next g0 op f h1 h2 h3 =>
    split at h
    · cases h
    · next hc =>
      simp only [Bool.or_eq_true, not_or, Bool.not_eq_true, Option.isSome_eq_false_iff] at hc
      obtain ⟨⟨⟨⟨ht, hg⟩, hw⟩, hl⟩, hp⟩ := hc
      rw [Option.isNone_iff_eq_none] at ht hg hp
      injection h with h
      simp only [issue, h1, h2, h3, ht, hg, hw, hl, hp, Option.isSome_none, Bool.or_self, Bool.false_and, Bool.false_eq_true, if_false, ← h]
  · cases h
/-- A ready operation names an opcode and a format, and its form is admitted. -/
theorem ready_formOk {i : Instr} {s : State} {g : Agent} (h : Ready s i g) : formOk i = true := by
  unfold Ready readyAgent at h
  split at h
  · next g0 op f h1 h2 h3 =>
    split at h
    · cases h
    · next hc =>
      simp only [Bool.or_eq_true, not_or, Bool.not_eq_true, Option.isSome_eq_false_iff, Option.isNone_iff_eq_none] at hc
      obtain ⟨⟨⟨⟨-, hg⟩, -⟩, -⟩, -⟩ := hc
      unfold gate at hg
      simp only at hg
      split at hg
      · cases hg
      · split at hg
        · cases hg
        · split at hg
          · cases hg
          · next hf => simpa using hf
  · cases h
/-- The meaning of a uniform operation that takes effect. -/
theorem uniform_on {c : Common} {body : State → AgentId → Agent → Res} {s : State} {a : AgentId} {g : Agent}
    (h : uniformOk a g c = true) : uniform c body s a g = body s a g := by simp [uniform, h]
/-- A uniform operation whose guard is false only moves on. -/
theorem uniform_off {c : Common} {body : State → AgentId → Agent → Res} {s : State} {a : AgentId} {g : Agent}
    (h : uniformOk a g c = false) : uniform c body s a g = .next s := by simp [uniform, h]

/-- Issue never stops where the current agent exists: every check that fails and every meaning ends in a next state. -/
theorem issue_goes_on {i : Instr} {body : State → AgentId → Agent → Res} {s : State} {g : Agent} {op : Nat} {f : Fmt}
    (ha : agent s s.cur = some g) (ho : opcode i = some op) (hf : fmtOf i = some f) : ∃ t, issue i body s = .next t := by
  simp only [issue, ha, ho, hf]
  split
  · split <;> exact ⟨_, rfl⟩
  · split
    · exact ⟨_, rfl⟩
    · exact ⟨_, rfl⟩
    · split
      · exact ⟨_, rfl⟩
      · split <;> exact ⟨_, rfl⟩
/-- A check of R232 that fails: its trap, and nothing else. -/
theorem issue_gate {i : Instr} {body : State → AgentId → Agent → Res} {s : State} {g : Agent} {op : Nat} {f : Fmt} {c : Cause} {v : W64}
    (ha : agent s s.cur = some g) (ho : opcode i = some op) (hf : fmtOf i = some f) (ht : g.trapPend = none)
    (hg : gate s s.cur g i op f = some (c, v)) (hc : c ≠ .poison) :
    issue i body s = .next (progress (raise s s.cur g c.code v 0)) := by
  simp only [issue, ha, ho, hf, ht, hg]
/-- An operand whose result has not come makes the operation wait. -/
theorem issue_waits {i : Instr} {body : State → AgentId → Agent → Res} {s : State} {g : Agent} {op : Nat} {f : Fmt}
    (ha : agent s s.cur = some g) (ho : opcode i = some op) (hf : fmtOf i = some f) (ht : g.trapPend = none)
    (hg : gate s s.cur g i op f = none) (hw : mustWait g (useOf op f) = true) : issue i body s = .next (park s s.cur) := by
  simp only [issue, ha, ho, hf, ht, hg, hw, Bool.true_or, if_true]

end Sys2Proof.Machine
end

