-- ==== Sys2Proof/Laws/PerInstr.lean ====
section
/-! SUPPORT. Laws made per instruction: the operations are exactly what has an opcode, and what has an opcode has a format. -/

open Sys2Proof Sys2Proof.Machine

namespace Sys2Proof.Laws.OpForm

/-- An opcode and a format go together; only then is there a word. -/
def Statement (i : Instr) : Prop := (opcode i).isSome = (fmtOf i).isSome ∧ (encode i).isSome = (opcode i).isSome

theorem sadd (f : FmtT) : Statement (.sadd f) := ⟨rfl, rfl⟩
theorem ssub (f : FmtT) : Statement (.ssub f) := ⟨rfl, rfl⟩
theorem smul (f : FmtT) : Statement (.smul f) := ⟨rfl, rfl⟩
theorem smulh (f : FmtT) : Statement (.smulh f) := ⟨rfl, rfl⟩
theorem sdiv (f : FmtT) : Statement (.sdiv f) := ⟨rfl, rfl⟩
theorem srem (f : FmtT) : Statement (.srem f) := ⟨rfl, rfl⟩
theorem sand (f : FmtT) : Statement (.sand f) := ⟨rfl, rfl⟩
theorem sor (f : FmtT) : Statement (.sor f) := ⟨rfl, rfl⟩
theorem sxor (f : FmtT) : Statement (.sxor f) := ⟨rfl, rfl⟩
theorem sshl (f : FmtT) : Statement (.sshl f) := ⟨rfl, rfl⟩
theorem sshr (f : FmtT) : Statement (.sshr f) := ⟨rfl, rfl⟩
theorem ssar (f : FmtT) : Statement (.ssar f) := ⟨rfl, rfl⟩
theorem smin (f : FmtT) : Statement (.smin f) := ⟨rfl, rfl⟩
theorem smax (f : FmtT) : Statement (.smax f) := ⟨rfl, rfl⟩
theorem scmp (f : FmtT) : Statement (.scmp f) := ⟨rfl, rfl⟩
theorem ssel (f : FmtT) : Statement (.ssel f) := ⟨rfl, rfl⟩
theorem sclz (f : FmtT) : Statement (.sclz f) := ⟨rfl, rfl⟩
theorem spop (f : FmtT) : Statement (.spop f) := ⟨rfl, rfl⟩
theorem smov (f : FmtT) : Statement (.smov f) := ⟨rfl, rfl⟩
theorem smovi (f : FmtI) : Statement (.smovi f) := ⟨rfl, rfl⟩
theorem saddi (f : FmtI) : Statement (.saddi f) := ⟨rfl, rfl⟩
theorem sandi (f : FmtI) : Statement (.sandi f) := ⟨rfl, rfl⟩
theorem sori (f : FmtI) : Statement (.sori f) := ⟨rfl, rfl⟩
theorem sxori (f : FmtI) : Statement (.sxori f) := ⟨rfl, rfl⟩
theorem scmpi (f : FmtI) : Statement (.scmpi f) := ⟨rfl, rfl⟩
theorem srd (f : FmtX) : Statement (.srd f) := ⟨rfl, rfl⟩
theorem mfsr (f : FmtX) : Statement (.mfsr f) := ⟨rfl, rfl⟩
theorem mtsr (f : FmtX) : Statement (.mtsr f) := ⟨rfl, rfl⟩
theorem sfmt (f : FmtX) : Statement (.sfmt f) := ⟨rfl, rfl⟩
theorem bra (f : FmtB) : Statement (.bra f) := ⟨rfl, rfl⟩
theorem brar (f : FmtB) : Statement (.brar f) := ⟨rfl, rfl⟩
theorem call (f : FmtB) : Statement (.call f) := ⟨rfl, rfl⟩
theorem callr (f : FmtB) : Statement (.callr f) := ⟨rfl, rfl⟩
theorem ret (f : FmtB) : Statement (.ret f) := ⟨rfl, rfl⟩
theorem bifOpen (f : FmtB) : Statement (.bifOpen f) := ⟨rfl, rfl⟩
theorem belse (f : FmtB) : Statement (.belse f) := ⟨rfl, rfl⟩
theorem bend (f : FmtB) : Statement (.bend f) := ⟨rfl, rfl⟩
theorem lpset (f : FmtB) : Statement (.lpset f) := ⟨rfl, rfl⟩
theorem lpcnt (f : FmtX) : Statement (.lpcnt f) := ⟨rfl, rfl⟩
theorem yield (f : FmtX) : Statement (.yield f) := ⟨rfl, rfl⟩
theorem exit (f : FmtX) : Statement (.exit f) := ⟨rfl, rfl⟩
theorem nop (f : FmtX) : Statement (.nop f) := ⟨rfl, rfl⟩
theorem spawn (f : FmtT) : Statement (.spawn f) := ⟨rfl, rfl⟩
theorem join (f : FmtT) : Statement (.join f) := ⟨rfl, rfl⟩
theorem vadd (f : FmtT) : Statement (.vadd f) := ⟨rfl, rfl⟩
theorem vsub (f : FmtT) : Statement (.vsub f) := ⟨rfl, rfl⟩
theorem vmul (f : FmtT) : Statement (.vmul f) := ⟨rfl, rfl⟩
theorem vfma (f : FmtT) : Statement (.vfma f) := ⟨rfl, rfl⟩
theorem vmulh (f : FmtT) : Statement (.vmulh f) := ⟨rfl, rfl⟩
theorem vmin (f : FmtT) : Statement (.vmin f) := ⟨rfl, rfl⟩
theorem vmax (f : FmtT) : Statement (.vmax f) := ⟨rfl, rfl⟩
theorem vabs (f : FmtT) : Statement (.vabs f) := ⟨rfl, rfl⟩
theorem vneg (f : FmtT) : Statement (.vneg f) := ⟨rfl, rfl⟩
theorem vaddmin (f : FmtT) : Statement (.vaddmin f) := ⟨rfl, rfl⟩
theorem vaddmax (f : FmtT) : Statement (.vaddmax f) := ⟨rfl, rfl⟩
theorem vclamp (f : FmtT) : Statement (.vclamp f) := ⟨rfl, rfl⟩
theorem vand (f : FmtT) : Statement (.vand f) := ⟨rfl, rfl⟩
theorem vor (f : FmtT) : Statement (.vor f) := ⟨rfl, rfl⟩
theorem vxor (f : FmtT) : Statement (.vxor f) := ⟨rfl, rfl⟩
theorem vnot (f : FmtT) : Statement (.vnot f) := ⟨rfl, rfl⟩
theorem vshl (f : FmtT) : Statement (.vshl f) := ⟨rfl, rfl⟩
theorem vshr (f : FmtT) : Statement (.vshr f) := ⟨rfl, rfl⟩
theorem vsar (f : FmtT) : Statement (.vsar f) := ⟨rfl, rfl⟩
theorem vclz (f : FmtT) : Statement (.vclz f) := ⟨rfl, rfl⟩
theorem vpopc (f : FmtT) : Statement (.vpopc f) := ⟨rfl, rfl⟩
theorem vmov (f : FmtT) : Statement (.vmov f) := ⟨rfl, rfl⟩
theorem vsel (f : FmtT) : Statement (.vsel f) := ⟨rfl, rfl⟩
theorem vcmp (f : FmtT) : Statement (.vcmp f) := ⟨rfl, rfl⟩
theorem vmovi (f : FmtI) : Statement (.vmovi f) := ⟨rfl, rfl⟩
theorem pand (f : FmtT) : Statement (.pand f) := ⟨rfl, rfl⟩
theorem por (f : FmtT) : Statement (.por f) := ⟨rfl, rfl⟩
theorem pxor (f : FmtT) : Statement (.pxor f) := ⟨rfl, rfl⟩
theorem pnot (f : FmtT) : Statement (.pnot f) := ⟨rfl, rfl⟩
theorem vp2v (f : FmtT) : Statement (.vp2v f) := ⟨rfl, rfl⟩
theorem vv2p (f : FmtT) : Statement (.vv2p f) := ⟨rfl, rfl⟩
theorem vcvt (f : FmtT) : Statement (.vcvt f) := ⟨rfl, rfl⟩
theorem vf8pk (f : FmtT) : Statement (.vf8pk f) := ⟨rfl, rfl⟩
theorem vf8upk (f : FmtT) : Statement (.vf8upk f) := ⟨rfl, rfl⟩
theorem vqpack (f : FmtT) : Statement (.vqpack f) := ⟨rfl, rfl⟩
theorem vqunpk (f : FmtT) : Statement (.vqunpk f) := ⟨rfl, rfl⟩
theorem vdiv (f : FmtT) : Statement (.vdiv f) := ⟨rfl, rfl⟩
theorem vrcp (f : FmtT) : Statement (.vrcp f) := ⟨rfl, rfl⟩
theorem vrsq (f : FmtT) : Statement (.vrsq f) := ⟨rfl, rfl⟩
theorem vsqrt (f : FmtT) : Statement (.vsqrt f) := ⟨rfl, rfl⟩
theorem vexp2 (f : FmtT) : Statement (.vexp2 f) := ⟨rfl, rfl⟩
theorem vlog2 (f : FmtT) : Statement (.vlog2 f) := ⟨rfl, rfl⟩
theorem vsin (f : FmtT) : Statement (.vsin f) := ⟨rfl, rfl⟩
theorem vcos (f : FmtT) : Statement (.vcos f) := ⟨rfl, rfl⟩
theorem vtanh (f : FmtT) : Statement (.vtanh f) := ⟨rfl, rfl⟩
theorem qxch (f : FmtT) : Statement (.qxch f) := ⟨rfl, rfl⟩
theorem qbrd (f : FmtT) : Statement (.qbrd f) := ⟨rfl, rfl⟩
theorem vshup (f : FmtT) : Statement (.vshup f) := ⟨rfl, rfl⟩
theorem vshdn (f : FmtT) : Statement (.vshdn f) := ⟨rfl, rfl⟩
theorem vshfl (f : FmtT) : Statement (.vshfl f) := ⟨rfl, rfl⟩
theorem vbcast (f : FmtT) : Statement (.vbcast f) := ⟨rfl, rfl⟩
theorem vscan (f : FmtT) : Statement (.vscan f) := ⟨rfl, rfl⟩
theorem vred (f : FmtT) : Statement (.vred f) := ⟨rfl, rfl⟩
theorem vvote (f : FmtT) : Statement (.vvote f) := ⟨rfl, rfl⟩
theorem prand (f : FmtT) : Statement (.prand f) := ⟨rfl, rfl⟩
theorem ld (f : FmtM) : Statement (.ld f) := ⟨rfl, rfl⟩
theorem st (f : FmtM) : Statement (.st f) := ⟨rfl, rfl⟩
theorem atomAdd (f : FmtM) : Statement (.atomAdd f) := ⟨rfl, rfl⟩
theorem atomMin (f : FmtM) : Statement (.atomMin f) := ⟨rfl, rfl⟩
theorem atomMax (f : FmtM) : Statement (.atomMax f) := ⟨rfl, rfl⟩
theorem atomAnd (f : FmtM) : Statement (.atomAnd f) := ⟨rfl, rfl⟩
theorem atomOr (f : FmtM) : Statement (.atomOr f) := ⟨rfl, rfl⟩
theorem atomXor (f : FmtM) : Statement (.atomXor f) := ⟨rfl, rfl⟩
theorem atomExch (f : FmtM) : Statement (.atomExch f) := ⟨rfl, rfl⟩
theorem cas (f : FmtM) : Statement (.cas f) := ⟨rfl, rfl⟩
theorem fld (f : FmtM) : Statement (.fld f) := ⟨rfl, rfl⟩
theorem fst (f : FmtM) : Statement (.fst f) := ⟨rfl, rfl⟩
theorem fatomAdd (f : FmtM) : Statement (.fatomAdd f) := ⟨rfl, rfl⟩
theorem fatomMin (f : FmtM) : Statement (.fatomMin f) := ⟨rfl, rfl⟩
theorem fatomMax (f : FmtM) : Statement (.fatomMax f) := ⟨rfl, rfl⟩
theorem fatomAnd (f : FmtM) : Statement (.fatomAnd f) := ⟨rfl, rfl⟩
theorem fatomOr (f : FmtM) : Statement (.fatomOr f) := ⟨rfl, rfl⟩
theorem fatomXor (f : FmtM) : Statement (.fatomXor f) := ⟨rfl, rfl⟩
theorem fatomExch (f : FmtM) : Statement (.fatomExch f) := ⟨rfl, rfl⟩
theorem fcas (f : FmtM) : Statement (.fcas f) := ⟨rfl, rfl⟩
theorem claim (f : FmtA) : Statement (.claim f) := ⟨rfl, rfl⟩
theorem reclaim (f : FmtA) : Statement (.reclaim f) := ⟨rfl, rfl⟩
theorem flow (f : FmtA) : Statement (.flow f) := ⟨rfl, rfl⟩
theorem unclaim (f : FmtA) : Statement (.unclaim f) := ⟨rfl, rfl⟩
theorem kstat (f : FmtA) : Statement (.kstat f) := ⟨rfl, rfl⟩
theorem copy (f : FmtA) : Statement (.copy f) := ⟨rfl, rfl⟩
theorem halo (f : FmtA) : Statement (.halo f) := ⟨rfl, rfl⟩
theorem hflow (f : FmtA) : Statement (.hflow f) := ⟨rfl, rfl⟩
theorem gather (f : FmtA) : Statement (.gather f) := ⟨rfl, rfl⟩
theorem coll (f : FmtA) : Statement (.coll f) := ⟨rfl, rfl⟩
theorem fence (f : FmtX) : Statement (.fence f) := ⟨rfl, rfl⟩
theorem wayreg (f : FmtX) : Statement (.wayreg f) := ⟨rfl, rfl⟩
theorem wayregNeed (f : FmtX) : Statement (.wayregNeed f) := ⟨rfl, rfl⟩
theorem wayarr (f : FmtX) : Statement (.wayarr f) := ⟨rfl, rfl⟩
theorem wayarrNeighbour (f : FmtX) : Statement (.wayarrNeighbour f) := ⟨rfl, rfl⟩
theorem waywait (f : FmtX) : Statement (.waywait f) := ⟨rfl, rfl⟩
theorem waytest (f : FmtX) : Statement (.waytest f) := ⟨rfl, rfl⟩
theorem waydrop (f : FmtX) : Statement (.waydrop f) := ⟨rfl, rfl⟩
theorem waydropReset (f : FmtX) : Statement (.waydropReset f) := ⟨rfl, rfl⟩
theorem ycfg (f : FmtX) : Statement (.ycfg f) := ⟨rfl, rfl⟩
theorem qpush (f : FmtX) : Statement (.qpush f) := ⟨rfl, rfl⟩
theorem qpop (f : FmtX) : Statement (.qpop f) := ⟨rfl, rfl⟩
theorem qlen (f : FmtX) : Statement (.qlen f) := ⟨rfl, rfl⟩
theorem waitc (f : FmtX) : Statement (.waitc f) := ⟨rfl, rfl⟩
theorem twait (f : FmtX) : Statement (.twait f) := ⟨rfl, rfl⟩
theorem tfind (f : FmtX) : Statement (.tfind f) := ⟨rfl, rfl⟩
theorem tclr (f : FmtX) : Statement (.tclr f) := ⟨rfl, rfl⟩
theorem mma (f : FmtC) : Statement (.mma f) := ⟨rfl, rfl⟩
theorem mmat (f : FmtC) : Statement (.mmat f) := ⟨rfl, rfl⟩
theorem mzero (f : FmtC) : Statement (.mzero f) := ⟨rfl, rfl⟩
theorem mload (f : FmtC) : Statement (.mload f) := ⟨rfl, rfl⟩
theorem mdrain (f : FmtC) : Statement (.mdrain f) := ⟨rfl, rfl⟩
theorem maddt (f : FmtC) : Statement (.maddt f) := ⟨rfl, rfl⟩
theorem mfence (f : FmtC) : Statement (.mfence f) := ⟨rfl, rfl⟩
theorem mwait (f : FmtC) : Statement (.mwait f) := ⟨rfl, rfl⟩
theorem pinit (f : FmtA) : Statement (.pinit f) := ⟨rfl, rfl⟩
theorem pjoin (f : FmtA) : Statement (.pjoin f) := ⟨rfl, rfl⟩
theorem pleave (f : FmtA) : Statement (.pleave f) := ⟨rfl, rfl⟩
theorem resample (f : FmtA) : Statement (.resample f) := ⟨rfl, rfl⟩
theorem pstat (f : FmtA) : Statement (.pstat f) := ⟨rfl, rfl⟩
theorem plin (f : FmtA) : Statement (.plin f) := ⟨rfl, rfl⟩
theorem nwin (f : FmtA) : Statement (.nwin f) := ⟨rfl, rfl⟩
theorem notice (f : FmtA) : Statement (.notice f) := ⟨rfl, rfl⟩
theorem object (f : FmtA) : Statement (.object f) := ⟨rfl, rfl⟩
theorem nawait (f : FmtA) : Statement (.nawait f) := ⟨rfl, rfl⟩
theorem nread (f : FmtA) : Statement (.nread f) := ⟨rfl, rfl⟩
theorem nfilter (f : FmtA) : Statement (.nfilter f) := ⟨rfl, rfl⟩
theorem nstat (f : FmtA) : Statement (.nstat f) := ⟨rfl, rfl⟩
theorem nstatCnt (f : FmtA) : Statement (.nstatCnt f) := ⟨rfl, rfl⟩
theorem xwrite (f : FmtA) : Statement (.xwrite f) := ⟨rfl, rfl⟩
theorem xread (f : FmtA) : Statement (.xread f) := ⟨rfl, rfl⟩
theorem xsend (f : FmtA) : Statement (.xsend f) := ⟨rfl, rfl⟩
theorem xatom (f : FmtA) : Statement (.xatom f) := ⟨rfl, rfl⟩
theorem xflush (f : FmtA) : Statement (.xflush f) := ⟨rfl, rfl⟩
theorem xpoll (f : FmtA) : Statement (.xpoll f) := ⟨rfl, rfl⟩
theorem trap (f : FmtX) : Statement (.trap f) := ⟨rfl, rfl⟩
theorem trapVec (f : FmtX) : Statement (.trapVec f) := ⟨rfl, rfl⟩
theorem tret (f : FmtX) : Statement (.tret f) := ⟨rfl, rfl⟩
theorem brk (f : FmtX) : Statement (.brk f) := ⟨rfl, rfl⟩
theorem halt (f : FmtX) : Statement (.halt f) := ⟨rfl, rfl⟩
theorem rdtime (f : FmtX) : Statement (.rdtime f) := ⟨rfl, rfl⟩
theorem chkpt (f : FmtX) : Statement (.chkpt f) := ⟨rfl, rfl⟩
theorem watch (f : FmtX) : Statement (.watch f) := ⟨rfl, rfl⟩
theorem unwatch (f : FmtX) : Statement (.unwatch f) := ⟨rfl, rfl⟩
theorem walkComplete (n : Nat) : Statement (.walkComplete n) := ⟨rfl, rfl⟩
theorem clauseFetch (a : AgentId) : Statement (.clauseFetch a) := ⟨rfl, rfl⟩
theorem teamDispatch (launch : Nat) : Statement (.teamDispatch launch) := ⟨rfl, rfl⟩
theorem continuationPop (at_ : PopSite) : Statement (.continuationPop at_) := ⟨rfl, rfl⟩
theorem launchPacket (fn q : Nat) : Statement (.launchPacket fn q) := ⟨rfl, rfl⟩
theorem fencePacket (fn q : Nat) : Statement (.fencePacket fn q) := ⟨rfl, rfl⟩
theorem graphPacket (fn q : Nat) : Statement (.graphPacket fn q) := ⟨rfl, rfl⟩
theorem layoutPacket (fn q : Nat) : Statement (.layoutPacket fn q) := ⟨rfl, rfl⟩
theorem signalPacket (fn q : Nat) : Statement (.signalPacket fn q) := ⟨rfl, rfl⟩
theorem timerPacket (fn q : Nat) : Statement (.timerPacket fn q) := ⟨rfl, rfl⟩
theorem launchFinish (fn q : Nat) : Statement (.launchFinish fn q) := ⟨rfl, rfl⟩
theorem graphNodeFinish (fn q node : Nat) : Statement (.graphNodeFinish fn q node) := ⟨rfl, rfl⟩
theorem fenceRound (fn q : Nat) : Statement (.fenceRound fn q) := ⟨rfl, rfl⟩
theorem batchStart (die cluster : Nat) : Statement (.batchStart die cluster) := ⟨rfl, rfl⟩
theorem matrixStepComplete (die cluster : Nat) : Statement (.matrixStepComplete die cluster) := ⟨rfl, rfl⟩
theorem claimPhaseComplete (c : ClaimId) : Statement (.claimPhaseComplete c) := ⟨rfl, rfl⟩
theorem resultWriteback (a : AgentId) (id : Nat) : Statement (.resultWriteback a id) := ⟨rfl, rfl⟩
theorem trapEntry (a : AgentId) : Statement (.trapEntry a) := ⟨rfl, rfl⟩
theorem milepostInject : Statement (.milepostInject) := ⟨rfl, rfl⟩
theorem resampleCommit (part ctx pop : Nat) : Statement (.resampleCommit part ctx pop) := ⟨rfl, rfl⟩
theorem reservationQueueGrant : Statement (.reservationQueueGrant) := ⟨rfl, rfl⟩
theorem tokenCountEffect (part die : Nat) : Statement (.tokenCountEffect part die) := ⟨rfl, rfl⟩
theorem joinPoll (a : AgentId) : Statement (.joinPoll a) := ⟨rfl, rfl⟩
theorem netWorkRequest (qpn : Nat) : Statement (.netWorkRequest qpn) := ⟨rfl, rfl⟩
theorem haloPathMatch (c : ClaimId) (k : Nat) : Statement (.haloPathMatch c k) := ⟨rfl, rfl⟩
theorem warpPromotion (a : AgentId) : Statement (.warpPromotion a) := ⟨rfl, rfl⟩
theorem queueReservation (part die prio : Nat) : Statement (.queueReservation part die prio) := ⟨rfl, rfl⟩
theorem identify (q : CmdReq) : Statement (.identify q) := ⟨rfl, rfl⟩
theorem diag (q : CmdReq) : Statement (.diag q) := ⟨rfl, rfl⟩
theorem telemetry (q : CmdReq) : Statement (.telemetry q) := ⟨rfl, rfl⟩
theorem ctxCreate (q : CmdReq) : Statement (.ctxCreate q) := ⟨rfl, rfl⟩
theorem ctxDestroy (q : CmdReq) : Statement (.ctxDestroy q) := ⟨rfl, rfl⟩
theorem xlateSet (q : CmdReq) : Statement (.xlateSet q) := ⟨rfl, rfl⟩
theorem invalPage (q : CmdReq) : Statement (.invalPage q) := ⟨rfl, rfl⟩
theorem migrate (q : CmdReq) : Statement (.migrate q) := ⟨rfl, rfl⟩
theorem s2Answer (q : CmdReq) : Statement (.s2Answer q) := ⟨rfl, rfl⟩
theorem homemapSet (q : CmdReq) : Statement (.homemapSet q) := ⟨rfl, rfl⟩
theorem partSet (q : CmdReq) : Statement (.partSet q) := ⟨rfl, rfl⟩
theorem tokensSet (q : CmdReq) : Statement (.tokensSet q) := ⟨rfl, rfl⟩
theorem sliceSet (q : CmdReq) : Statement (.sliceSet q) := ⟨rfl, rfl⟩
theorem vfReset (q : CmdReq) : Statement (.vfReset q) := ⟨rfl, rfl⟩
theorem qpCreate (q : CmdReq) : Statement (.qpCreate q) := ⟨rfl, rfl⟩
theorem qpModify (q : CmdReq) : Statement (.qpModify q) := ⟨rfl, rfl⟩
theorem qpDestroy (q : CmdReq) : Statement (.qpDestroy q) := ⟨rfl, rfl⟩
theorem mrReg (q : CmdReq) : Statement (.mrReg q) := ⟨rfl, rfl⟩
theorem mrDereg (q : CmdReq) : Statement (.mrDereg q) := ⟨rfl, rfl⟩
theorem netAddr (q : CmdReq) : Statement (.netAddr q) := ⟨rfl, rfl⟩
theorem decodeLoad (q : CmdReq) : Statement (.decodeLoad q) := ⟨rfl, rfl⟩
theorem pgroupSet (q : CmdReq) : Statement (.pgroupSet q) := ⟨rfl, rfl⟩
theorem ngroupSet (q : CmdReq) : Statement (.ngroupSet q) := ⟨rfl, rfl⟩
theorem attest (q : CmdReq) : Statement (.attest q) := ⟨rfl, rfl⟩
theorem bundleWrite (q : CmdReq) (sigsOk : Bool) : Statement (.bundleWrite q sigsOk) := ⟨rfl, rfl⟩
theorem streamResetSend (tgt part : Nat) : Statement (.streamResetSend tgt part) := ⟨rfl, rfl⟩
theorem powerGood (b : BringUp) : Statement (.powerGood b) := ⟨rfl, rfl⟩
theorem virtualFunctionPresentation : Statement (.virtualFunctionPresentation) := ⟨rfl, rfl⟩
theorem serviceCoreTakeover (sc : Nat) : Statement (.serviceCoreTakeover sc) := ⟨rfl, rfl⟩
theorem thermalHigh (die : Nat) : Statement (.thermalHigh die) := ⟨rfl, rfl⟩
theorem thermalRestore : Statement (.thermalRestore) := ⟨rfl, rfl⟩
theorem thermalShutdown : Statement (.thermalShutdown) := ⟨rfl, rfl⟩
theorem patrolScrub (line : Nat) (e : Ecc) : Statement (.patrolScrub line e) := ⟨rfl, rfl⟩
theorem linkUp (p : PortId) : Statement (.linkUp p) := ⟨rfl, rfl⟩
theorem linkDown (p : PortId) : Statement (.linkDown p) := ⟨rfl, rfl⟩
theorem linkReplay (p : PortId) : Statement (.linkReplay p) := ⟨rfl, rfl⟩
theorem reservationRequest (j : Nat) (p : Packet) : Statement (.reservationRequest j p) := ⟨rfl, rfl⟩
theorem reservationReply (p : Packet) : Statement (.reservationReply p) := ⟨rfl, rfl⟩
theorem junctionWordFlit (j port : Nat) (p : Packet) : Statement (.junctionWordFlit j port p) := ⟨rfl, rfl⟩
theorem readPacket (p : Packet) : Statement (.readPacket p) := ⟨rfl, rfl⟩
theorem writePacket (p : Packet) : Statement (.writePacket p) := ⟨rfl, rfl⟩
theorem atomicPacket (p : Packet) : Statement (.atomicPacket p) := ⟨rfl, rfl⟩
theorem casPacket (p : Packet) : Statement (.casPacket p) := ⟨rfl, rfl⟩
theorem orderedPacketRelease (src part : Nat) : Statement (.orderedPacketRelease src part) := ⟨rfl, rfl⟩
theorem acknowledgement (p : Packet) : Statement (.acknowledgement p) := ⟨rfl, rfl⟩
theorem readResponse (p : Packet) : Statement (.readResponse p) := ⟨rfl, rfl⟩
theorem routeError (p : Packet) : Statement (.routeError p) := ⟨rfl, rfl⟩
theorem streamReset (p : Packet) : Statement (.streamReset p) := ⟨rfl, rfl⟩
theorem streamWaitTimeout (tgt part : Nat) : Statement (.streamWaitTimeout tgt part) := ⟨rfl, rfl⟩
theorem retransmitTimeout (r : EntryRef) : Statement (.retransmitTimeout r) := ⟨rfl, rfl⟩
theorem packetAbandon (r : EntryRef) : Statement (.packetAbandon r) := ⟨rfl, rfl⟩
theorem fetchedValueExpiry (src part : Nat) (seq : BitVec 24) : Statement (.fetchedValueExpiry src part seq) := ⟨rfl, rfl⟩
theorem junctionMilepostCopy (j : Nat) (f : Flit) : Statement (.junctionMilepostCopy j f) := ⟨rfl, rfl⟩
theorem milepostDelivery (f : Flit) : Statement (.milepostDelivery f) := ⟨rfl, rfl⟩
theorem timeBaseFlit (ns : Nat) : Statement (.timeBaseFlit ns) := ⟨rfl, rfl⟩
theorem linkMapFlit (j : Nat) (down : List Nat) : Statement (.linkMapFlit j down) := ⟨rfl, rfl⟩
theorem timeMasterTakeover : Statement (.timeMasterTakeover) := ⟨rfl, rfl⟩
theorem timeBaseLost : Statement (.timeBaseLost) := ⟨rfl, rfl⟩
theorem timeBaseRegained : Statement (.timeBaseRegained) := ⟨rfl, rfl⟩
theorem grantRequest (p : Packet) : Statement (.grantRequest p) := ⟨rfl, rfl⟩
theorem grantResponse (p : Packet) : Statement (.grantResponse p) := ⟨rfl, rfl⟩
theorem invalidation (p : Packet) : Statement (.invalidation p) := ⟨rfl, rfl⟩
theorem invalidationAck (n : Nat) : Statement (.invalidationAck n) := ⟨rfl, rfl⟩
theorem stuckInvalidation (n : Nat) : Statement (.stuckInvalidation n) := ⟨rfl, rfl⟩
theorem priResponse (pgi : Nat) (ok : Bool) : Statement (.priResponse pgi ok) := ⟨rfl, rfl⟩
theorem atsInvalidateRequest (tag part ctx : Nat) (va size : Nat) : Statement (.atsInvalidateRequest tag part ctx va size) := ⟨rfl, rfl⟩
theorem migrationCopyDone (n : Nat) : Statement (.migrationCopyDone n) := ⟨rfl, rfl⟩
theorem migrationTimeout (n : Nat) : Statement (.migrationTimeout n) := ⟨rfl, rfl⟩
theorem netResponse (qpn : Nat) (r : NetResp) : Statement (.netResponse qpn r) := ⟨rfl, rfl⟩
theorem netAckTimeout (qpn : Nat) : Statement (.netAckTimeout qpn) := ⟨rfl, rfl⟩
theorem incomingRdmaWrite (h : RxHead) (rkey : W32) (addr : Nat) (data : List Byte) : Statement (.incomingRdmaWrite h rkey addr data) := ⟨rfl, rfl⟩
theorem incomingRdmaRead (h : RxHead) (rkey : W32) (addr len : Nat) : Statement (.incomingRdmaRead h rkey addr len) := ⟨rfl, rfl⟩
theorem incomingSend (h : RxHead) (data : List Byte) : Statement (.incomingSend h data) := ⟨rfl, rfl⟩
theorem incomingAtomic (h : RxHead) (rkey : W32) (addr : Nat) (cas : Bool) (a b : W64) : Statement (.incomingAtomic h rkey addr cas a b) := ⟨rfl, rfl⟩
theorem incomingFlush (h : RxHead) (rkey : W32) (addr len : Nat) : Statement (.incomingFlush h rkey addr len) := ⟨rfl, rfl⟩
theorem cnpReceived (qpn : Nat) : Statement (.cnpReceived qpn) := ⟨rfl, rfl⟩
theorem rateRecovery (qpn : Nat) : Statement (.rateRecovery qpn) := ⟨rfl, rfl⟩
theorem localRevokeTimeout (n : Nat) : Statement (.localRevokeTimeout n) := ⟨rfl, rfl⟩
theorem backgroundCut (part fn : Nat) : Statement (.backgroundCut part fn) := ⟨rfl, rfl⟩
theorem driverNotification (fn q : Nat) (chains : List Chain) : Statement (.driverNotification fn q chains) := ⟨rfl, rfl⟩
theorem deviceStatusReset (fn : Nat) : Statement (.deviceStatusReset fn) := ⟨rfl, rfl⟩
theorem featuresOkWrite (fn : Nat) (bits : W64) : Statement (.featuresOkWrite fn bits) := ⟨rfl, rfl⟩
theorem functionLevelReset (fn : Nat) : Statement (.functionLevelReset fn) := ⟨rfl, rfl⟩
theorem configRegisterWrite (fn : Nat) (reg : RegAt) (v : W32) : Statement (.configRegisterWrite fn reg v) := ⟨rfl, rfl⟩
theorem watchdogExpiry (fn q : Nat) : Statement (.watchdogExpiry fn q) := ⟨rfl, rfl⟩
theorem resetMark (f : Flit) : Statement (.resetMark f) := ⟨rfl, rfl⟩
theorem resetMarkResend (fn : Nat) : Statement (.resetMarkResend fn) := ⟨rfl, rfl⟩
theorem checkpointSchedule (part : Nat) : Statement (.checkpointSchedule part) := ⟨rfl, rfl⟩
theorem cutMark (f : Flit) : Statement (.cutMark f) := ⟨rfl, rfl⟩
theorem cutTick (part : Nat) : Statement (.cutTick part) := ⟨rfl, rfl⟩
theorem doneMark (f : Flit) : Statement (.doneMark f) := ⟨rfl, rfl⟩
theorem commitMark (f : Flit) : Statement (.commitMark f) := ⟨rfl, rfl⟩
theorem cutTimeout (part : Nat) : Statement (.cutTimeout part) := ⟨rfl, rfl⟩
theorem sliceEnd (part : Nat) : Statement (.sliceEnd part) := ⟨rfl, rfl⟩
theorem sliceendMark (f : Flit) : Statement (.sliceendMark f) := ⟨rfl, rfl⟩
theorem warpHalt (a : AgentId) : Statement (.warpHalt a) := ⟨rfl, rfl⟩
theorem contextSave (part ctx : Nat) : Statement (.contextSave part ctx) := ⟨rfl, rfl⟩
theorem contextResume (part ctx : Nat) : Statement (.contextResume part ctx) := ⟨rfl, rfl⟩
theorem priorityPreemption (fn q : Nat) : Statement (.priorityPreemption fn q) := ⟨rfl, rfl⟩
theorem flowLegAck (c : ClaimId) (leg : LegAt) (data : List Byte) (psn : List Nat) : Statement (.flowLegAck c leg data psn) := ⟨rfl, rfl⟩
theorem collMatch (part ctx : Nat) (shares : List CollShare) : Statement (.collMatch part ctx shares) := ⟨rfl, rfl⟩
theorem tokenArrival (part die cluster : Nat) : Statement (.tokenArrival part die cluster) := ⟨rfl, rfl⟩
theorem noticeFlit (f : Flit) : Statement (.noticeFlit f) := ⟨rfl, rfl⟩
theorem objectionFlit (f : Flit) : Statement (.objectionFlit f) := ⟨rfl, rfl⟩
theorem outcomeFlit (f : Flit) : Statement (.outcomeFlit f) := ⟨rfl, rfl⟩
theorem noticeDecide (gid : BitVec 16) (rank itick : Nat) : Statement (.noticeDecide gid rank itick) := ⟨rfl, rfl⟩
theorem outcomeExpiry (gid : BitVec 16) (rank itick : Nat) : Statement (.outcomeExpiry gid rank itick) := ⟨rfl, rfl⟩
theorem modulePowerLoss : Statement (.modulePowerLoss) := ⟨rfl, rfl⟩
theorem atsTranslationCompletion (id : Nat) (r : Option AtsAns) : Statement (.atsTranslationCompletion id r) := ⟨rfl, rfl⟩
theorem hostReadCompletion (id : Nat) (data : List Byte) : Statement (.hostReadCompletion id data) := ⟨rfl, rfl⟩
theorem unknownOutcomeDeadline (gid : BitVec 16) (rank itick : Nat) : Statement (.unknownOutcomeDeadline gid rank itick) := ⟨rfl, rfl⟩
theorem rnrRetryTimeout (qpn : Nat) : Statement (.rnrRetryTimeout qpn) := ⟨rfl, rfl⟩

end Sys2Proof.Laws.OpForm
end

