-- ==== Sys2Proof/Laws/State.lean ====
section
/-! SUPPORT. What each update of the state and of an agent leaves: one lemma for each field it does not touch, and one for the field it
does, so that no later proof unfolds a record update. -/

namespace Sys2Proof.Machine

/-! setAgent. -/

@[simp] theorem setAgent_mod (s : State) (a : AgentId) (g : Agent) : (setAgent s a g).mod = s.mod := rfl
@[simp] theorem setAgent_fab (s : State) (a : AgentId) (g : Agent) : (setAgent s a g).fab = s.fab := rfl
@[simp] theorem setAgent_xl (s : State) (a : AgentId) (g : Agent) : (setAgent s a g).xl = s.xl := rfl
@[simp] theorem setAgent_mem (s : State) (a : AgentId) (g : Agent) : (setAgent s a g).mem = s.mem := rfl
@[simp] theorem setAgent_host (s : State) (a : AgentId) (g : Agent) : (setAgent s a g).host = s.host := rfl
@[simp] theorem setAgent_part (s : State) (a : AgentId) (g : Agent) : (setAgent s a g).part = s.part := rfl
@[simp] theorem setAgent_ck (s : State) (a : AgentId) (g : Agent) : (setAgent s a g).ck = s.ck := rfl
@[simp] theorem setAgent_sched (s : State) (a : AgentId) (g : Agent) : (setAgent s a g).sched = s.sched := rfl
@[simp] theorem setAgent_agents (s : State) (a : AgentId) (g : Agent) : (setAgent s a g).agents = ins s.agents a g := rfl
@[simp] theorem setAgent_blocks (s : State) (a : AgentId) (g : Agent) : (setAgent s a g).blocks = s.blocks := rfl
@[simp] theorem setAgent_eng (s : State) (a : AgentId) (g : Agent) : (setAgent s a g).eng = s.eng := rfl
@[simp] theorem setAgent_pop (s : State) (a : AgentId) (g : Agent) : (setAgent s a g).pop = s.pop := rfl
@[simp] theorem setAgent_ntc (s : State) (a : AgentId) (g : Agent) : (setAgent s a g).ntc = s.ntc := rfl
@[simp] theorem setAgent_net (s : State) (a : AgentId) (g : Agent) : (setAgent s a g).net = s.net := rfl
@[simp] theorem setAgent_cur (s : State) (a : AgentId) (g : Agent) : (setAgent s a g).cur = s.cur := rfl
@[simp] theorem setAgent_inbox (s : State) (a : AgentId) (g : Agent) : (setAgent s a g).inbox = s.inbox := rfl
@[simp] theorem setAgent_late (s : State) (a : AgentId) (g : Agent) : (setAgent s a g).late = s.late := rfl
@[simp] theorem setAgent_waiting (s : State) (a : AgentId) (g : Agent) : (setAgent s a g).waiting = s.waiting := rfl
@[simp] theorem setAgent_stalled (s : State) (a : AgentId) (g : Agent) : (setAgent s a g).stalled = s.stalled := rfl
@[simp] theorem setAgent_freeIx (s : State) (a : AgentId) (g : Agent) : (setAgent s a g).freeIx = s.freeIx := rfl
@[simp] theorem setAgent_opSeq (s : State) (a : AgentId) (g : Agent) : (setAgent s a g).opSeq = s.opSeq := rfl

/-! setBlock. -/

@[simp] theorem setBlock_mod (s : State) (b : Nat) (k : Block) : (setBlock s b k).mod = s.mod := rfl
@[simp] theorem setBlock_fab (s : State) (b : Nat) (k : Block) : (setBlock s b k).fab = s.fab := rfl
@[simp] theorem setBlock_xl (s : State) (b : Nat) (k : Block) : (setBlock s b k).xl = s.xl := rfl
@[simp] theorem setBlock_mem (s : State) (b : Nat) (k : Block) : (setBlock s b k).mem = s.mem := rfl
@[simp] theorem setBlock_host (s : State) (b : Nat) (k : Block) : (setBlock s b k).host = s.host := rfl
@[simp] theorem setBlock_part (s : State) (b : Nat) (k : Block) : (setBlock s b k).part = s.part := rfl
@[simp] theorem setBlock_ck (s : State) (b : Nat) (k : Block) : (setBlock s b k).ck = s.ck := rfl
@[simp] theorem setBlock_sched (s : State) (b : Nat) (k : Block) : (setBlock s b k).sched = s.sched := rfl
@[simp] theorem setBlock_agents (s : State) (b : Nat) (k : Block) : (setBlock s b k).agents = s.agents := rfl
@[simp] theorem setBlock_blocks (s : State) (b : Nat) (k : Block) : (setBlock s b k).blocks = ins s.blocks b k := rfl
@[simp] theorem setBlock_eng (s : State) (b : Nat) (k : Block) : (setBlock s b k).eng = s.eng := rfl
@[simp] theorem setBlock_pop (s : State) (b : Nat) (k : Block) : (setBlock s b k).pop = s.pop := rfl
@[simp] theorem setBlock_ntc (s : State) (b : Nat) (k : Block) : (setBlock s b k).ntc = s.ntc := rfl
@[simp] theorem setBlock_net (s : State) (b : Nat) (k : Block) : (setBlock s b k).net = s.net := rfl
@[simp] theorem setBlock_cur (s : State) (b : Nat) (k : Block) : (setBlock s b k).cur = s.cur := rfl
@[simp] theorem setBlock_inbox (s : State) (b : Nat) (k : Block) : (setBlock s b k).inbox = s.inbox := rfl
@[simp] theorem setBlock_late (s : State) (b : Nat) (k : Block) : (setBlock s b k).late = s.late := rfl
@[simp] theorem setBlock_waiting (s : State) (b : Nat) (k : Block) : (setBlock s b k).waiting = s.waiting := rfl
@[simp] theorem setBlock_stalled (s : State) (b : Nat) (k : Block) : (setBlock s b k).stalled = s.stalled := rfl
@[simp] theorem setBlock_freeIx (s : State) (b : Nat) (k : Block) : (setBlock s b k).freeIx = s.freeIx := rfl
@[simp] theorem setBlock_opSeq (s : State) (b : Nat) (k : Block) : (setBlock s b k).opSeq = s.opSeq := rfl

/-! fresh. -/

@[simp] theorem fresh_mod (s : State) : (fresh s).2.mod = s.mod := rfl
@[simp] theorem fresh_fab (s : State) : (fresh s).2.fab = s.fab := rfl
@[simp] theorem fresh_xl (s : State) : (fresh s).2.xl = s.xl := rfl
@[simp] theorem fresh_mem (s : State) : (fresh s).2.mem = s.mem := rfl
@[simp] theorem fresh_host (s : State) : (fresh s).2.host = s.host := rfl
@[simp] theorem fresh_part (s : State) : (fresh s).2.part = s.part := rfl
@[simp] theorem fresh_ck (s : State) : (fresh s).2.ck = s.ck := rfl
@[simp] theorem fresh_sched (s : State) : (fresh s).2.sched = s.sched := rfl
@[simp] theorem fresh_agents (s : State) : (fresh s).2.agents = s.agents := rfl
@[simp] theorem fresh_blocks (s : State) : (fresh s).2.blocks = s.blocks := rfl
@[simp] theorem fresh_eng (s : State) : (fresh s).2.eng = s.eng := rfl
@[simp] theorem fresh_pop (s : State) : (fresh s).2.pop = s.pop := rfl
@[simp] theorem fresh_ntc (s : State) : (fresh s).2.ntc = s.ntc := rfl
@[simp] theorem fresh_net (s : State) : (fresh s).2.net = s.net := rfl
@[simp] theorem fresh_cur (s : State) : (fresh s).2.cur = s.cur := rfl
@[simp] theorem fresh_inbox (s : State) : (fresh s).2.inbox = s.inbox := rfl
@[simp] theorem fresh_late (s : State) : (fresh s).2.late = s.late := rfl
@[simp] theorem fresh_waiting (s : State) : (fresh s).2.waiting = s.waiting := rfl
@[simp] theorem fresh_stalled (s : State) : (fresh s).2.stalled = s.stalled := rfl
@[simp] theorem fresh_freeIx (s : State) : (fresh s).2.freeIx = s.freeIx := rfl
@[simp] theorem fresh_opSeq (s : State) : (fresh s).2.opSeq = s.opSeq + 1 := rfl

/-! progress. -/

@[simp] theorem progress_mod (s : State) : (progress s).mod = s.mod := rfl
@[simp] theorem progress_fab (s : State) : (progress s).fab = s.fab := rfl
@[simp] theorem progress_xl (s : State) : (progress s).xl = s.xl := rfl
@[simp] theorem progress_mem (s : State) : (progress s).mem = s.mem := rfl
@[simp] theorem progress_host (s : State) : (progress s).host = s.host := rfl
@[simp] theorem progress_part (s : State) : (progress s).part = s.part := rfl
@[simp] theorem progress_ck (s : State) : (progress s).ck = s.ck := rfl
@[simp] theorem progress_sched (s : State) : (progress s).sched = s.sched := rfl
@[simp] theorem progress_agents (s : State) : (progress s).agents = s.agents := rfl
@[simp] theorem progress_blocks (s : State) : (progress s).blocks = s.blocks := rfl
@[simp] theorem progress_eng (s : State) : (progress s).eng = s.eng := rfl
@[simp] theorem progress_pop (s : State) : (progress s).pop = s.pop := rfl
@[simp] theorem progress_ntc (s : State) : (progress s).ntc = s.ntc := rfl
@[simp] theorem progress_net (s : State) : (progress s).net = s.net := rfl
@[simp] theorem progress_cur (s : State) : (progress s).cur = s.cur := rfl
@[simp] theorem progress_inbox (s : State) : (progress s).inbox = s.inbox := rfl
@[simp] theorem progress_late (s : State) : (progress s).late = s.late := rfl
@[simp] theorem progress_waiting (s : State) : (progress s).waiting = [] := rfl
@[simp] theorem progress_stalled (s : State) : (progress s).stalled = [] := rfl
@[simp] theorem progress_freeIx (s : State) : (progress s).freeIx = s.freeIx := rfl
@[simp] theorem progress_opSeq (s : State) : (progress s).opSeq = s.opSeq := rfl

/-! park. -/

@[simp] theorem park_mod (s : State) (a : AgentId) : (park s a).mod = s.mod := rfl
@[simp] theorem park_fab (s : State) (a : AgentId) : (park s a).fab = s.fab := rfl
@[simp] theorem park_xl (s : State) (a : AgentId) : (park s a).xl = s.xl := rfl
@[simp] theorem park_mem (s : State) (a : AgentId) : (park s a).mem = s.mem := rfl
@[simp] theorem park_host (s : State) (a : AgentId) : (park s a).host = s.host := rfl
@[simp] theorem park_part (s : State) (a : AgentId) : (park s a).part = s.part := rfl
@[simp] theorem park_ck (s : State) (a : AgentId) : (park s a).ck = s.ck := rfl
@[simp] theorem park_sched (s : State) (a : AgentId) : (park s a).sched = s.sched := rfl
@[simp] theorem park_agents (s : State) (a : AgentId) : (park s a).agents = s.agents := rfl
@[simp] theorem park_blocks (s : State) (a : AgentId) : (park s a).blocks = s.blocks := rfl
@[simp] theorem park_eng (s : State) (a : AgentId) : (park s a).eng = s.eng := rfl
@[simp] theorem park_pop (s : State) (a : AgentId) : (park s a).pop = s.pop := rfl
@[simp] theorem park_ntc (s : State) (a : AgentId) : (park s a).ntc = s.ntc := rfl
@[simp] theorem park_net (s : State) (a : AgentId) : (park s a).net = s.net := rfl
@[simp] theorem park_cur (s : State) (a : AgentId) : (park s a).cur = s.cur := rfl
@[simp] theorem park_inbox (s : State) (a : AgentId) : (park s a).inbox = s.inbox := rfl
@[simp] theorem park_late (s : State) (a : AgentId) : (park s a).late = s.late := rfl
@[simp] theorem park_waiting (s : State) (a : AgentId) : (park s a).waiting = if s.waiting.contains a then s.waiting else s.waiting ++ [a] := rfl
@[simp] theorem park_stalled (s : State) (a : AgentId) : (park s a).stalled = s.stalled := rfl
@[simp] theorem park_freeIx (s : State) (a : AgentId) : (park s a).freeIx = s.freeIx := rfl
@[simp] theorem park_opSeq (s : State) (a : AgentId) : (park s a).opSeq = s.opSeq := rfl

/-! hbmPut. -/

@[simp] theorem hbmPut_mod (s : State) (pa : Nat) (bs : List Byte) : (hbmPut s pa bs).mod = s.mod := rfl
@[simp] theorem hbmPut_fab (s : State) (pa : Nat) (bs : List Byte) : (hbmPut s pa bs).fab = s.fab := rfl
@[simp] theorem hbmPut_xl (s : State) (pa : Nat) (bs : List Byte) : (hbmPut s pa bs).xl = s.xl := rfl
@[simp] theorem hbmPut_mem (s : State) (pa : Nat) (bs : List Byte) : (hbmPut s pa bs).mem = { s.mem with hbm := writeBytes s.mem.hbm pa bs } := rfl
@[simp] theorem hbmPut_host (s : State) (pa : Nat) (bs : List Byte) : (hbmPut s pa bs).host = s.host := rfl
@[simp] theorem hbmPut_part (s : State) (pa : Nat) (bs : List Byte) : (hbmPut s pa bs).part = s.part := rfl
@[simp] theorem hbmPut_ck (s : State) (pa : Nat) (bs : List Byte) : (hbmPut s pa bs).ck = s.ck := rfl
@[simp] theorem hbmPut_sched (s : State) (pa : Nat) (bs : List Byte) : (hbmPut s pa bs).sched = s.sched := rfl
@[simp] theorem hbmPut_agents (s : State) (pa : Nat) (bs : List Byte) : (hbmPut s pa bs).agents = s.agents := rfl
@[simp] theorem hbmPut_blocks (s : State) (pa : Nat) (bs : List Byte) : (hbmPut s pa bs).blocks = s.blocks := rfl
@[simp] theorem hbmPut_eng (s : State) (pa : Nat) (bs : List Byte) : (hbmPut s pa bs).eng = s.eng := rfl
@[simp] theorem hbmPut_pop (s : State) (pa : Nat) (bs : List Byte) : (hbmPut s pa bs).pop = s.pop := rfl
@[simp] theorem hbmPut_ntc (s : State) (pa : Nat) (bs : List Byte) : (hbmPut s pa bs).ntc = s.ntc := rfl
@[simp] theorem hbmPut_net (s : State) (pa : Nat) (bs : List Byte) : (hbmPut s pa bs).net = s.net := rfl
@[simp] theorem hbmPut_cur (s : State) (pa : Nat) (bs : List Byte) : (hbmPut s pa bs).cur = s.cur := rfl
@[simp] theorem hbmPut_inbox (s : State) (pa : Nat) (bs : List Byte) : (hbmPut s pa bs).inbox = s.inbox := rfl
@[simp] theorem hbmPut_late (s : State) (pa : Nat) (bs : List Byte) : (hbmPut s pa bs).late = s.late := rfl
@[simp] theorem hbmPut_waiting (s : State) (pa : Nat) (bs : List Byte) : (hbmPut s pa bs).waiting = s.waiting := rfl
@[simp] theorem hbmPut_stalled (s : State) (pa : Nat) (bs : List Byte) : (hbmPut s pa bs).stalled = s.stalled := rfl
@[simp] theorem hbmPut_freeIx (s : State) (pa : Nat) (bs : List Byte) : (hbmPut s pa bs).freeIx = s.freeIx := rfl
@[simp] theorem hbmPut_opSeq (s : State) (pa : Nat) (bs : List Byte) : (hbmPut s pa bs).opSeq = s.opSeq := rfl

/-! sset. -/

@[simp] theorem sset_warpNo (g : Agent) (n : Nat) (x : W64) : (sset g n x).warpNo = g.warpNo := rfl
@[simp] theorem sset_blockNo (g : Agent) (n : Nat) (x : W64) : (sset g n x).blockNo = g.blockNo := rfl
@[simp] theorem sset_teamNo (g : Agent) (n : Nat) (x : W64) : (sset g n x).teamNo = g.teamNo := rfl
@[simp] theorem sset_gteam (g : Agent) (n : Nat) (x : W64) : (sset g n x).gteam = g.gteam := rfl
@[simp] theorem sset_rank (g : Agent) (n : Nat) (x : W64) : (sset g n x).rank = g.rank := rfl
@[simp] theorem sset_nrank (g : Agent) (n : Nat) (x : W64) : (sset g n x).nrank = g.nrank := rfl
@[simp] theorem sset_die (g : Agent) (n : Nat) (x : W64) : (sset g n x).die = g.die := rfl
@[simp] theorem sset_x (g : Agent) (n : Nat) (x : W64) : (sset g n x).x = g.x := rfl
@[simp] theorem sset_y (g : Agent) (n : Nat) (x : W64) : (sset g n x).y = g.y := rfl
@[simp] theorem sset_cluster (g : Agent) (n : Nat) (x : W64) : (sset g n x).cluster = g.cluster := rfl
@[simp] theorem sset_fn (g : Agent) (n : Nat) (x : W64) : (sset g n x).fn = g.fn := rfl
@[simp] theorem sset_part (g : Agent) (n : Nat) (x : W64) : (sset g n x).part = g.part := rfl
@[simp] theorem sset_ctx (g : Agent) (n : Nat) (x : W64) : (sset g n x).ctx = g.ctx := rfl
@[simp] theorem sset_gen (g : Agent) (n : Nat) (x : W64) : (sset g n x).gen = g.gen := rfl
@[simp] theorem sset_launch (g : Agent) (n : Nat) (x : W64) : (sset g n x).launch = g.launch := rfl
@[simp] theorem sset_blk (g : Agent) (n : Nat) (x : W64) : (sset g n x).blk = g.blk := rfl
@[simp] theorem sset_team (g : Agent) (n : Nat) (x : W64) : (sset g n x).team = g.team := rfl
@[simp] theorem sset_task (g : Agent) (n : Nat) (x : W64) : (sset g n x).task = g.task := rfl
@[simp] theorem sset_prio (g : Agent) (n : Nat) (x : W64) : (sset g n x).prio = g.prio := rfl
@[simp] theorem sset_alloc (g : Agent) (n : Nat) (x : W64) : (sset g n x).alloc = g.alloc := rfl
@[simp] theorem sset_v (g : Agent) (n : Nat) (x : W64) : (sset g n x).v = g.v := rfl
@[simp] theorem sset_s (g : Agent) (n : Nat) (x : W64) : (sset g n x).s = mset g.s n x := rfl
@[simp] theorem sset_p (g : Agent) (n : Nat) (x : W64) : (sset g n x).p = g.p := rfl
@[simp] theorem sset_exm (g : Agent) (n : Nat) (x : W64) : (sset g n x).exm = g.exm := rfl
@[simp] theorem sset_live (g : Agent) (n : Nat) (x : W64) : (sset g n x).live = g.live := rfl
@[simp] theorem sset_nest (g : Agent) (n : Nat) (x : W64) : (sset g n x).nest = g.nest := rfl
@[simp] theorem sset_lin (g : Agent) (n : Nat) (x : W64) : (sset g n x).lin = g.lin := rfl
@[simp] theorem sset_fmt (g : Agent) (n : Nat) (x : W64) : (sset g n x).fmt = g.fmt := rfl
@[simp] theorem sset_xv (g : Agent) (n : Nat) (x : W64) : (sset g n x).xv = g.xv := rfl
@[simp] theorem sset_lc (g : Agent) (n : Nat) (x : W64) : (sset g n x).lc = g.lc := rfl
@[simp] theorem sset_ls (g : Agent) (n : Nat) (x : W64) : (sset g n x).ls = g.ls := rfl
@[simp] theorem sset_le (g : Agent) (n : Nat) (x : W64) : (sset g n x).le = g.le := rfl
@[simp] theorem sset_tags (g : Agent) (n : Nat) (x : W64) : (sset g n x).tags = g.tags := rfl
@[simp] theorem sset_outc (g : Agent) (n : Nat) (x : W64) : (sset g n x).outc = g.outc := rfl
@[simp] theorem sset_k (g : Agent) (n : Nat) (x : W64) : (sset g n x).k = g.k := rfl
@[simp] theorem sset_recs (g : Agent) (n : Nat) (x : W64) : (sset g n x).recs = g.recs := rfl
@[simp] theorem sset_stack (g : Agent) (n : Nat) (x : W64) : (sset g n x).stack = g.stack := rfl
@[simp] theorem sset_tcause (g : Agent) (n : Nat) (x : W64) : (sset g n x).tcause = g.tcause := rfl
@[simp] theorem sset_tval (g : Agent) (n : Nat) (x : W64) : (sset g n x).tval = g.tval := rfl
@[simp] theorem sset_tpcx (g : Agent) (n : Nat) (x : W64) : (sset g n x).tpcx = g.tpcx := rfl
@[simp] theorem sset_tvec (g : Agent) (n : Nat) (x : W64) : (sset g n x).tvec = g.tvec := rfl
@[simp] theorem sset_posHdr (g : Agent) (n : Nat) (x : W64) : (sset g n x).posHdr = g.posHdr := rfl
@[simp] theorem sset_posIdx (g : Agent) (n : Nat) (x : W64) : (sset g n x).posIdx = g.posIdx := rfl
@[simp] theorem sset_posCnt (g : Agent) (n : Nat) (x : W64) : (sset g n x).posCnt = g.posCnt := rfl
@[simp] theorem sset_written (g : Agent) (n : Nat) (x : W64) : (sset g n x).written = g.written := rfl
@[simp] theorem sset_tprio (g : Agent) (n : Nat) (x : W64) : (sset g n x).tprio = g.tprio := rfl
@[simp] theorem sset_depthAt (g : Agent) (n : Nat) (x : W64) : (sset g n x).depthAt = g.depthAt := rfl
@[simp] theorem sset_watch (g : Agent) (n : Nat) (x : W64) : (sset g n x).watch = g.watch := rfl
@[simp] theorem sset_suppress (g : Agent) (n : Nat) (x : W64) : (sset g n x).suppress = g.suppress := rfl
@[simp] theorem sset_nwin (g : Agent) (n : Nat) (x : W64) : (sset g n x).nwin = g.nwin := rfl
@[simp] theorem sset_pc (g : Agent) (n : Nat) (x : W64) : (sset g n x).pc = g.pc := rfl
@[simp] theorem sset_clause (g : Agent) (n : Nat) (x : W64) : (sset g n x).clause = g.clause := rfl
@[simp] theorem sset_idx (g : Agent) (n : Nat) (x : W64) : (sset g n x).idx = g.idx := rfl
@[simp] theorem sset_waited (g : Agent) (n : Nat) (x : W64) : (sset g n x).waited = g.waited := rfl
@[simp] theorem sset_pend (g : Agent) (n : Nat) (x : W64) : (sset g n x).pend = g.pend := rfl
@[simp] theorem sset_outOps (g : Agent) (n : Nat) (x : W64) : (sset g n x).outOps = g.outOps := rfl
@[simp] theorem sset_fabErr (g : Agent) (n : Nat) (x : W64) : (sset g n x).fabErr = g.fabErr := rfl
@[simp] theorem sset_poison (g : Agent) (n : Nat) (x : W64) : (sset g n x).poison = g.poison := rfl
@[simp] theorem sset_wayCur (g : Agent) (n : Nat) (x : W64) : (sset g n x).wayCur = g.wayCur := rfl
@[simp] theorem sset_acqHold (g : Agent) (n : Nat) (x : W64) : (sset g n x).acqHold = g.acqHold := rfl
@[simp] theorem sset_chkptAt (g : Agent) (n : Nat) (x : W64) : (sset g n x).chkptAt = g.chkptAt := rfl
@[simp] theorem sset_arrived (g : Agent) (n : Nat) (x : W64) : (sset g n x).arrived = g.arrived := rfl
@[simp] theorem sset_joinAt (g : Agent) (n : Nat) (x : W64) : (sset g n x).joinAt = g.joinAt := rfl
@[simp] theorem sset_mpSt (g : Agent) (n : Nat) (x : W64) : (sset g n x).mpSt = g.mpSt := rfl
@[simp] theorem sset_need (g : Agent) (n : Nat) (x : W64) : (sset g n x).need = g.need := rfl
@[simp] theorem sset_needT (g : Agent) (n : Nat) (x : W64) : (sset g n x).needT = g.needT := rfl
@[simp] theorem sset_resumed (g : Agent) (n : Nat) (x : W64) : (sset g n x).resumed = g.resumed := rfl
@[simp] theorem sset_logged (g : Agent) (n : Nat) (x : W64) : (sset g n x).logged = g.logged := rfl
@[simp] theorem sset_born (g : Agent) (n : Nat) (x : W64) : (sset g n x).born = g.born := rfl
@[simp] theorem sset_waitSince (g : Agent) (n : Nat) (x : W64) : (sset g n x).waitSince = g.waitSince := rfl
@[simp] theorem sset_yielded (g : Agent) (n : Nat) (x : W64) : (sset g n x).yielded = g.yielded := rfl
@[simp] theorem sset_promo (g : Agent) (n : Nat) (x : W64) : (sset g n x).promo = g.promo := rfl
@[simp] theorem sset_tried (g : Agent) (n : Nat) (x : W64) : (sset g n x).tried = g.tried := rfl
@[simp] theorem sset_turn (g : Agent) (n : Nat) (x : W64) : (sset g n x).turn = g.turn := rfl
@[simp] theorem sset_haltForm (g : Agent) (n : Nat) (x : W64) : (sset g n x).haltForm = g.haltForm := rfl
@[simp] theorem sset_haltReq (g : Agent) (n : Nat) (x : W64) : (sset g n x).haltReq = g.haltReq := rfl
@[simp] theorem sset_ended (g : Agent) (n : Nat) (x : W64) : (sset g n x).ended = g.ended := rfl
@[simp] theorem sset_trapPend (g : Agent) (n : Nat) (x : W64) : (sset g n x).trapPend = g.trapPend := rfl
@[simp] theorem sset_mx (g : Agent) (n : Nat) (x : W64) : (sset g n x).mx = g.mx := rfl

/-! vset. -/

@[simp] theorem vset_warpNo (g : Agent) (n l : Nat) (x : W32) : (vset g n l x).warpNo = g.warpNo := rfl
@[simp] theorem vset_blockNo (g : Agent) (n l : Nat) (x : W32) : (vset g n l x).blockNo = g.blockNo := rfl
@[simp] theorem vset_teamNo (g : Agent) (n l : Nat) (x : W32) : (vset g n l x).teamNo = g.teamNo := rfl
@[simp] theorem vset_gteam (g : Agent) (n l : Nat) (x : W32) : (vset g n l x).gteam = g.gteam := rfl
@[simp] theorem vset_rank (g : Agent) (n l : Nat) (x : W32) : (vset g n l x).rank = g.rank := rfl
@[simp] theorem vset_nrank (g : Agent) (n l : Nat) (x : W32) : (vset g n l x).nrank = g.nrank := rfl
@[simp] theorem vset_die (g : Agent) (n l : Nat) (x : W32) : (vset g n l x).die = g.die := rfl
@[simp] theorem vset_x (g : Agent) (n l : Nat) (x : W32) : (vset g n l x).x = g.x := rfl
@[simp] theorem vset_y (g : Agent) (n l : Nat) (x : W32) : (vset g n l x).y = g.y := rfl
@[simp] theorem vset_cluster (g : Agent) (n l : Nat) (x : W32) : (vset g n l x).cluster = g.cluster := rfl
@[simp] theorem vset_fn (g : Agent) (n l : Nat) (x : W32) : (vset g n l x).fn = g.fn := rfl
@[simp] theorem vset_part (g : Agent) (n l : Nat) (x : W32) : (vset g n l x).part = g.part := rfl
@[simp] theorem vset_ctx (g : Agent) (n l : Nat) (x : W32) : (vset g n l x).ctx = g.ctx := rfl
@[simp] theorem vset_gen (g : Agent) (n l : Nat) (x : W32) : (vset g n l x).gen = g.gen := rfl
@[simp] theorem vset_launch (g : Agent) (n l : Nat) (x : W32) : (vset g n l x).launch = g.launch := rfl
@[simp] theorem vset_blk (g : Agent) (n l : Nat) (x : W32) : (vset g n l x).blk = g.blk := rfl
@[simp] theorem vset_team (g : Agent) (n l : Nat) (x : W32) : (vset g n l x).team = g.team := rfl
@[simp] theorem vset_task (g : Agent) (n l : Nat) (x : W32) : (vset g n l x).task = g.task := rfl
@[simp] theorem vset_prio (g : Agent) (n l : Nat) (x : W32) : (vset g n l x).prio = g.prio := rfl
@[simp] theorem vset_alloc (g : Agent) (n l : Nat) (x : W32) : (vset g n l x).alloc = g.alloc := rfl
@[simp] theorem vset_v (g : Agent) (n l : Nat) (x : W32) : (vset g n l x).v = mset g.v (n * 32 + l) x := rfl
@[simp] theorem vset_s (g : Agent) (n l : Nat) (x : W32) : (vset g n l x).s = g.s := rfl
@[simp] theorem vset_p (g : Agent) (n l : Nat) (x : W32) : (vset g n l x).p = g.p := rfl
@[simp] theorem vset_exm (g : Agent) (n l : Nat) (x : W32) : (vset g n l x).exm = g.exm := rfl
@[simp] theorem vset_live (g : Agent) (n l : Nat) (x : W32) : (vset g n l x).live = g.live := rfl
@[simp] theorem vset_nest (g : Agent) (n l : Nat) (x : W32) : (vset g n l x).nest = g.nest := rfl
@[simp] theorem vset_lin (g : Agent) (n l : Nat) (x : W32) : (vset g n l x).lin = g.lin := rfl
@[simp] theorem vset_fmt (g : Agent) (n l : Nat) (x : W32) : (vset g n l x).fmt = g.fmt := rfl
@[simp] theorem vset_xv (g : Agent) (n l : Nat) (x : W32) : (vset g n l x).xv = g.xv := rfl
@[simp] theorem vset_lc (g : Agent) (n l : Nat) (x : W32) : (vset g n l x).lc = g.lc := rfl
@[simp] theorem vset_ls (g : Agent) (n l : Nat) (x : W32) : (vset g n l x).ls = g.ls := rfl
@[simp] theorem vset_le (g : Agent) (n l : Nat) (x : W32) : (vset g n l x).le = g.le := rfl
@[simp] theorem vset_tags (g : Agent) (n l : Nat) (x : W32) : (vset g n l x).tags = g.tags := rfl
@[simp] theorem vset_outc (g : Agent) (n l : Nat) (x : W32) : (vset g n l x).outc = g.outc := rfl
@[simp] theorem vset_k (g : Agent) (n l : Nat) (x : W32) : (vset g n l x).k = g.k := rfl
@[simp] theorem vset_recs (g : Agent) (n l : Nat) (x : W32) : (vset g n l x).recs = g.recs := rfl
@[simp] theorem vset_stack (g : Agent) (n l : Nat) (x : W32) : (vset g n l x).stack = g.stack := rfl
@[simp] theorem vset_tcause (g : Agent) (n l : Nat) (x : W32) : (vset g n l x).tcause = g.tcause := rfl
@[simp] theorem vset_tval (g : Agent) (n l : Nat) (x : W32) : (vset g n l x).tval = g.tval := rfl
@[simp] theorem vset_tpcx (g : Agent) (n l : Nat) (x : W32) : (vset g n l x).tpcx = g.tpcx := rfl
@[simp] theorem vset_tvec (g : Agent) (n l : Nat) (x : W32) : (vset g n l x).tvec = g.tvec := rfl
@[simp] theorem vset_posHdr (g : Agent) (n l : Nat) (x : W32) : (vset g n l x).posHdr = g.posHdr := rfl
@[simp] theorem vset_posIdx (g : Agent) (n l : Nat) (x : W32) : (vset g n l x).posIdx = g.posIdx := rfl
@[simp] theorem vset_posCnt (g : Agent) (n l : Nat) (x : W32) : (vset g n l x).posCnt = g.posCnt := rfl
@[simp] theorem vset_written (g : Agent) (n l : Nat) (x : W32) : (vset g n l x).written = g.written := rfl
@[simp] theorem vset_tprio (g : Agent) (n l : Nat) (x : W32) : (vset g n l x).tprio = g.tprio := rfl
@[simp] theorem vset_depthAt (g : Agent) (n l : Nat) (x : W32) : (vset g n l x).depthAt = g.depthAt := rfl
@[simp] theorem vset_watch (g : Agent) (n l : Nat) (x : W32) : (vset g n l x).watch = g.watch := rfl
@[simp] theorem vset_suppress (g : Agent) (n l : Nat) (x : W32) : (vset g n l x).suppress = g.suppress := rfl
@[simp] theorem vset_nwin (g : Agent) (n l : Nat) (x : W32) : (vset g n l x).nwin = g.nwin := rfl
@[simp] theorem vset_pc (g : Agent) (n l : Nat) (x : W32) : (vset g n l x).pc = g.pc := rfl
@[simp] theorem vset_clause (g : Agent) (n l : Nat) (x : W32) : (vset g n l x).clause = g.clause := rfl
@[simp] theorem vset_idx (g : Agent) (n l : Nat) (x : W32) : (vset g n l x).idx = g.idx := rfl
@[simp] theorem vset_waited (g : Agent) (n l : Nat) (x : W32) : (vset g n l x).waited = g.waited := rfl
@[simp] theorem vset_pend (g : Agent) (n l : Nat) (x : W32) : (vset g n l x).pend = g.pend := rfl
@[simp] theorem vset_outOps (g : Agent) (n l : Nat) (x : W32) : (vset g n l x).outOps = g.outOps := rfl
@[simp] theorem vset_fabErr (g : Agent) (n l : Nat) (x : W32) : (vset g n l x).fabErr = g.fabErr := rfl
@[simp] theorem vset_poison (g : Agent) (n l : Nat) (x : W32) : (vset g n l x).poison = g.poison := rfl
@[simp] theorem vset_wayCur (g : Agent) (n l : Nat) (x : W32) : (vset g n l x).wayCur = g.wayCur := rfl
@[simp] theorem vset_acqHold (g : Agent) (n l : Nat) (x : W32) : (vset g n l x).acqHold = g.acqHold := rfl
@[simp] theorem vset_chkptAt (g : Agent) (n l : Nat) (x : W32) : (vset g n l x).chkptAt = g.chkptAt := rfl
@[simp] theorem vset_arrived (g : Agent) (n l : Nat) (x : W32) : (vset g n l x).arrived = g.arrived := rfl
@[simp] theorem vset_joinAt (g : Agent) (n l : Nat) (x : W32) : (vset g n l x).joinAt = g.joinAt := rfl
@[simp] theorem vset_mpSt (g : Agent) (n l : Nat) (x : W32) : (vset g n l x).mpSt = g.mpSt := rfl
@[simp] theorem vset_need (g : Agent) (n l : Nat) (x : W32) : (vset g n l x).need = g.need := rfl
@[simp] theorem vset_needT (g : Agent) (n l : Nat) (x : W32) : (vset g n l x).needT = g.needT := rfl
@[simp] theorem vset_resumed (g : Agent) (n l : Nat) (x : W32) : (vset g n l x).resumed = g.resumed := rfl
@[simp] theorem vset_logged (g : Agent) (n l : Nat) (x : W32) : (vset g n l x).logged = g.logged := rfl
@[simp] theorem vset_born (g : Agent) (n l : Nat) (x : W32) : (vset g n l x).born = g.born := rfl
@[simp] theorem vset_waitSince (g : Agent) (n l : Nat) (x : W32) : (vset g n l x).waitSince = g.waitSince := rfl
@[simp] theorem vset_yielded (g : Agent) (n l : Nat) (x : W32) : (vset g n l x).yielded = g.yielded := rfl
@[simp] theorem vset_promo (g : Agent) (n l : Nat) (x : W32) : (vset g n l x).promo = g.promo := rfl
@[simp] theorem vset_tried (g : Agent) (n l : Nat) (x : W32) : (vset g n l x).tried = g.tried := rfl
@[simp] theorem vset_turn (g : Agent) (n l : Nat) (x : W32) : (vset g n l x).turn = g.turn := rfl
@[simp] theorem vset_haltForm (g : Agent) (n l : Nat) (x : W32) : (vset g n l x).haltForm = g.haltForm := rfl
@[simp] theorem vset_haltReq (g : Agent) (n l : Nat) (x : W32) : (vset g n l x).haltReq = g.haltReq := rfl
@[simp] theorem vset_ended (g : Agent) (n l : Nat) (x : W32) : (vset g n l x).ended = g.ended := rfl
@[simp] theorem vset_trapPend (g : Agent) (n l : Nat) (x : W32) : (vset g n l x).trapPend = g.trapPend := rfl
@[simp] theorem vset_mx (g : Agent) (n l : Nat) (x : W32) : (vset g n l x).mx = g.mx := rfl

/-! addFlags. -/

@[simp] theorem addFlags_warpNo (g : Agent) (f : FlagBits) : (addFlags g f).warpNo = g.warpNo := rfl
@[simp] theorem addFlags_blockNo (g : Agent) (f : FlagBits) : (addFlags g f).blockNo = g.blockNo := rfl
@[simp] theorem addFlags_teamNo (g : Agent) (f : FlagBits) : (addFlags g f).teamNo = g.teamNo := rfl
@[simp] theorem addFlags_gteam (g : Agent) (f : FlagBits) : (addFlags g f).gteam = g.gteam := rfl
@[simp] theorem addFlags_rank (g : Agent) (f : FlagBits) : (addFlags g f).rank = g.rank := rfl
@[simp] theorem addFlags_nrank (g : Agent) (f : FlagBits) : (addFlags g f).nrank = g.nrank := rfl
@[simp] theorem addFlags_die (g : Agent) (f : FlagBits) : (addFlags g f).die = g.die := rfl
@[simp] theorem addFlags_x (g : Agent) (f : FlagBits) : (addFlags g f).x = g.x := rfl
@[simp] theorem addFlags_y (g : Agent) (f : FlagBits) : (addFlags g f).y = g.y := rfl
@[simp] theorem addFlags_cluster (g : Agent) (f : FlagBits) : (addFlags g f).cluster = g.cluster := rfl
@[simp] theorem addFlags_fn (g : Agent) (f : FlagBits) : (addFlags g f).fn = g.fn := rfl
@[simp] theorem addFlags_part (g : Agent) (f : FlagBits) : (addFlags g f).part = g.part := rfl
@[simp] theorem addFlags_ctx (g : Agent) (f : FlagBits) : (addFlags g f).ctx = g.ctx := rfl
@[simp] theorem addFlags_gen (g : Agent) (f : FlagBits) : (addFlags g f).gen = g.gen := rfl
@[simp] theorem addFlags_launch (g : Agent) (f : FlagBits) : (addFlags g f).launch = g.launch := rfl
@[simp] theorem addFlags_blk (g : Agent) (f : FlagBits) : (addFlags g f).blk = g.blk := rfl
@[simp] theorem addFlags_team (g : Agent) (f : FlagBits) : (addFlags g f).team = g.team := rfl
@[simp] theorem addFlags_task (g : Agent) (f : FlagBits) : (addFlags g f).task = g.task := rfl
@[simp] theorem addFlags_prio (g : Agent) (f : FlagBits) : (addFlags g f).prio = g.prio := rfl
@[simp] theorem addFlags_alloc (g : Agent) (f : FlagBits) : (addFlags g f).alloc = g.alloc := rfl
@[simp] theorem addFlags_v (g : Agent) (f : FlagBits) : (addFlags g f).v = g.v := rfl
@[simp] theorem addFlags_s (g : Agent) (f : FlagBits) : (addFlags g f).s = g.s := rfl
@[simp] theorem addFlags_p (g : Agent) (f : FlagBits) : (addFlags g f).p = g.p := rfl
@[simp] theorem addFlags_exm (g : Agent) (f : FlagBits) : (addFlags g f).exm = g.exm := rfl
@[simp] theorem addFlags_live (g : Agent) (f : FlagBits) : (addFlags g f).live = g.live := rfl
@[simp] theorem addFlags_nest (g : Agent) (f : FlagBits) : (addFlags g f).nest = g.nest := rfl
@[simp] theorem addFlags_lin (g : Agent) (f : FlagBits) : (addFlags g f).lin = g.lin := rfl
@[simp] theorem addFlags_fmt (g : Agent) (f : FlagBits) : (addFlags g f).fmt = orFlags g.fmt f := rfl
@[simp] theorem addFlags_xv (g : Agent) (f : FlagBits) : (addFlags g f).xv = g.xv := rfl
@[simp] theorem addFlags_lc (g : Agent) (f : FlagBits) : (addFlags g f).lc = g.lc := rfl
@[simp] theorem addFlags_ls (g : Agent) (f : FlagBits) : (addFlags g f).ls = g.ls := rfl
@[simp] theorem addFlags_le (g : Agent) (f : FlagBits) : (addFlags g f).le = g.le := rfl
@[simp] theorem addFlags_tags (g : Agent) (f : FlagBits) : (addFlags g f).tags = g.tags := rfl
@[simp] theorem addFlags_outc (g : Agent) (f : FlagBits) : (addFlags g f).outc = g.outc := rfl
@[simp] theorem addFlags_k (g : Agent) (f : FlagBits) : (addFlags g f).k = g.k := rfl
@[simp] theorem addFlags_recs (g : Agent) (f : FlagBits) : (addFlags g f).recs = g.recs := rfl
@[simp] theorem addFlags_stack (g : Agent) (f : FlagBits) : (addFlags g f).stack = g.stack := rfl
@[simp] theorem addFlags_tcause (g : Agent) (f : FlagBits) : (addFlags g f).tcause = g.tcause := rfl
@[simp] theorem addFlags_tval (g : Agent) (f : FlagBits) : (addFlags g f).tval = g.tval := rfl
@[simp] theorem addFlags_tpcx (g : Agent) (f : FlagBits) : (addFlags g f).tpcx = g.tpcx := rfl
@[simp] theorem addFlags_tvec (g : Agent) (f : FlagBits) : (addFlags g f).tvec = g.tvec := rfl
@[simp] theorem addFlags_posHdr (g : Agent) (f : FlagBits) : (addFlags g f).posHdr = g.posHdr := rfl
@[simp] theorem addFlags_posIdx (g : Agent) (f : FlagBits) : (addFlags g f).posIdx = g.posIdx := rfl
@[simp] theorem addFlags_posCnt (g : Agent) (f : FlagBits) : (addFlags g f).posCnt = g.posCnt := rfl
@[simp] theorem addFlags_written (g : Agent) (f : FlagBits) : (addFlags g f).written = g.written := rfl
@[simp] theorem addFlags_tprio (g : Agent) (f : FlagBits) : (addFlags g f).tprio = g.tprio := rfl
@[simp] theorem addFlags_depthAt (g : Agent) (f : FlagBits) : (addFlags g f).depthAt = g.depthAt := rfl
@[simp] theorem addFlags_watch (g : Agent) (f : FlagBits) : (addFlags g f).watch = g.watch := rfl
@[simp] theorem addFlags_suppress (g : Agent) (f : FlagBits) : (addFlags g f).suppress = g.suppress := rfl
@[simp] theorem addFlags_nwin (g : Agent) (f : FlagBits) : (addFlags g f).nwin = g.nwin := rfl
@[simp] theorem addFlags_pc (g : Agent) (f : FlagBits) : (addFlags g f).pc = g.pc := rfl
@[simp] theorem addFlags_clause (g : Agent) (f : FlagBits) : (addFlags g f).clause = g.clause := rfl
@[simp] theorem addFlags_idx (g : Agent) (f : FlagBits) : (addFlags g f).idx = g.idx := rfl
@[simp] theorem addFlags_waited (g : Agent) (f : FlagBits) : (addFlags g f).waited = g.waited := rfl
@[simp] theorem addFlags_pend (g : Agent) (f : FlagBits) : (addFlags g f).pend = g.pend := rfl
@[simp] theorem addFlags_outOps (g : Agent) (f : FlagBits) : (addFlags g f).outOps = g.outOps := rfl
@[simp] theorem addFlags_fabErr (g : Agent) (f : FlagBits) : (addFlags g f).fabErr = g.fabErr := rfl
@[simp] theorem addFlags_poison (g : Agent) (f : FlagBits) : (addFlags g f).poison = g.poison := rfl
@[simp] theorem addFlags_wayCur (g : Agent) (f : FlagBits) : (addFlags g f).wayCur = g.wayCur := rfl
@[simp] theorem addFlags_acqHold (g : Agent) (f : FlagBits) : (addFlags g f).acqHold = g.acqHold := rfl
@[simp] theorem addFlags_chkptAt (g : Agent) (f : FlagBits) : (addFlags g f).chkptAt = g.chkptAt := rfl
@[simp] theorem addFlags_arrived (g : Agent) (f : FlagBits) : (addFlags g f).arrived = g.arrived := rfl
@[simp] theorem addFlags_joinAt (g : Agent) (f : FlagBits) : (addFlags g f).joinAt = g.joinAt := rfl
@[simp] theorem addFlags_mpSt (g : Agent) (f : FlagBits) : (addFlags g f).mpSt = g.mpSt := rfl
@[simp] theorem addFlags_need (g : Agent) (f : FlagBits) : (addFlags g f).need = g.need := rfl
@[simp] theorem addFlags_needT (g : Agent) (f : FlagBits) : (addFlags g f).needT = g.needT := rfl
@[simp] theorem addFlags_resumed (g : Agent) (f : FlagBits) : (addFlags g f).resumed = g.resumed := rfl
@[simp] theorem addFlags_logged (g : Agent) (f : FlagBits) : (addFlags g f).logged = g.logged := rfl
@[simp] theorem addFlags_born (g : Agent) (f : FlagBits) : (addFlags g f).born = g.born := rfl
@[simp] theorem addFlags_waitSince (g : Agent) (f : FlagBits) : (addFlags g f).waitSince = g.waitSince := rfl
@[simp] theorem addFlags_yielded (g : Agent) (f : FlagBits) : (addFlags g f).yielded = g.yielded := rfl
@[simp] theorem addFlags_promo (g : Agent) (f : FlagBits) : (addFlags g f).promo = g.promo := rfl
@[simp] theorem addFlags_tried (g : Agent) (f : FlagBits) : (addFlags g f).tried = g.tried := rfl
@[simp] theorem addFlags_turn (g : Agent) (f : FlagBits) : (addFlags g f).turn = g.turn := rfl
@[simp] theorem addFlags_haltForm (g : Agent) (f : FlagBits) : (addFlags g f).haltForm = g.haltForm := rfl
@[simp] theorem addFlags_haltReq (g : Agent) (f : FlagBits) : (addFlags g f).haltReq = g.haltReq := rfl
@[simp] theorem addFlags_ended (g : Agent) (f : FlagBits) : (addFlags g f).ended = g.ended := rfl
@[simp] theorem addFlags_trapPend (g : Agent) (f : FlagBits) : (addFlags g f).trapPend = g.trapPend := rfl
@[simp] theorem addFlags_mx (g : Agent) (f : FlagBits) : (addFlags g f).mx = g.mx := rfl

/-! outcSet. -/

@[simp] theorem outcSet_warpNo (g : Agent) (cls n : Nat) : (outcSet g cls n).warpNo = g.warpNo := rfl
@[simp] theorem outcSet_blockNo (g : Agent) (cls n : Nat) : (outcSet g cls n).blockNo = g.blockNo := rfl
@[simp] theorem outcSet_teamNo (g : Agent) (cls n : Nat) : (outcSet g cls n).teamNo = g.teamNo := rfl
@[simp] theorem outcSet_gteam (g : Agent) (cls n : Nat) : (outcSet g cls n).gteam = g.gteam := rfl
@[simp] theorem outcSet_rank (g : Agent) (cls n : Nat) : (outcSet g cls n).rank = g.rank := rfl
@[simp] theorem outcSet_nrank (g : Agent) (cls n : Nat) : (outcSet g cls n).nrank = g.nrank := rfl
@[simp] theorem outcSet_die (g : Agent) (cls n : Nat) : (outcSet g cls n).die = g.die := rfl
@[simp] theorem outcSet_x (g : Agent) (cls n : Nat) : (outcSet g cls n).x = g.x := rfl
@[simp] theorem outcSet_y (g : Agent) (cls n : Nat) : (outcSet g cls n).y = g.y := rfl
@[simp] theorem outcSet_cluster (g : Agent) (cls n : Nat) : (outcSet g cls n).cluster = g.cluster := rfl
@[simp] theorem outcSet_fn (g : Agent) (cls n : Nat) : (outcSet g cls n).fn = g.fn := rfl
@[simp] theorem outcSet_part (g : Agent) (cls n : Nat) : (outcSet g cls n).part = g.part := rfl
@[simp] theorem outcSet_ctx (g : Agent) (cls n : Nat) : (outcSet g cls n).ctx = g.ctx := rfl
@[simp] theorem outcSet_gen (g : Agent) (cls n : Nat) : (outcSet g cls n).gen = g.gen := rfl
@[simp] theorem outcSet_launch (g : Agent) (cls n : Nat) : (outcSet g cls n).launch = g.launch := rfl
@[simp] theorem outcSet_blk (g : Agent) (cls n : Nat) : (outcSet g cls n).blk = g.blk := rfl
@[simp] theorem outcSet_team (g : Agent) (cls n : Nat) : (outcSet g cls n).team = g.team := rfl
@[simp] theorem outcSet_task (g : Agent) (cls n : Nat) : (outcSet g cls n).task = g.task := rfl
@[simp] theorem outcSet_prio (g : Agent) (cls n : Nat) : (outcSet g cls n).prio = g.prio := rfl
@[simp] theorem outcSet_alloc (g : Agent) (cls n : Nat) : (outcSet g cls n).alloc = g.alloc := rfl
@[simp] theorem outcSet_v (g : Agent) (cls n : Nat) : (outcSet g cls n).v = g.v := rfl
@[simp] theorem outcSet_s (g : Agent) (cls n : Nat) : (outcSet g cls n).s = g.s := rfl
@[simp] theorem outcSet_p (g : Agent) (cls n : Nat) : (outcSet g cls n).p = g.p := rfl
@[simp] theorem outcSet_exm (g : Agent) (cls n : Nat) : (outcSet g cls n).exm = g.exm := rfl
@[simp] theorem outcSet_live (g : Agent) (cls n : Nat) : (outcSet g cls n).live = g.live := rfl
@[simp] theorem outcSet_nest (g : Agent) (cls n : Nat) : (outcSet g cls n).nest = g.nest := rfl
@[simp] theorem outcSet_lin (g : Agent) (cls n : Nat) : (outcSet g cls n).lin = g.lin := rfl
@[simp] theorem outcSet_fmt (g : Agent) (cls n : Nat) : (outcSet g cls n).fmt = g.fmt := rfl
@[simp] theorem outcSet_xv (g : Agent) (cls n : Nat) : (outcSet g cls n).xv = g.xv := rfl
@[simp] theorem outcSet_lc (g : Agent) (cls n : Nat) : (outcSet g cls n).lc = g.lc := rfl
@[simp] theorem outcSet_ls (g : Agent) (cls n : Nat) : (outcSet g cls n).ls = g.ls := rfl
@[simp] theorem outcSet_le (g : Agent) (cls n : Nat) : (outcSet g cls n).le = g.le := rfl
@[simp] theorem outcSet_tags (g : Agent) (cls n : Nat) : (outcSet g cls n).tags = g.tags := rfl
@[simp] theorem outcSet_outc (g : Agent) (cls n : Nat) : (outcSet g cls n).outc = setFld g.outc (10 * cls - 1) (10 * cls - 10) n := rfl
@[simp] theorem outcSet_k (g : Agent) (cls n : Nat) : (outcSet g cls n).k = g.k := rfl
@[simp] theorem outcSet_recs (g : Agent) (cls n : Nat) : (outcSet g cls n).recs = g.recs := rfl
@[simp] theorem outcSet_stack (g : Agent) (cls n : Nat) : (outcSet g cls n).stack = g.stack := rfl
@[simp] theorem outcSet_tcause (g : Agent) (cls n : Nat) : (outcSet g cls n).tcause = g.tcause := rfl
@[simp] theorem outcSet_tval (g : Agent) (cls n : Nat) : (outcSet g cls n).tval = g.tval := rfl
@[simp] theorem outcSet_tpcx (g : Agent) (cls n : Nat) : (outcSet g cls n).tpcx = g.tpcx := rfl
@[simp] theorem outcSet_tvec (g : Agent) (cls n : Nat) : (outcSet g cls n).tvec = g.tvec := rfl
@[simp] theorem outcSet_posHdr (g : Agent) (cls n : Nat) : (outcSet g cls n).posHdr = g.posHdr := rfl
@[simp] theorem outcSet_posIdx (g : Agent) (cls n : Nat) : (outcSet g cls n).posIdx = g.posIdx := rfl
@[simp] theorem outcSet_posCnt (g : Agent) (cls n : Nat) : (outcSet g cls n).posCnt = g.posCnt := rfl
@[simp] theorem outcSet_written (g : Agent) (cls n : Nat) : (outcSet g cls n).written = g.written := rfl
@[simp] theorem outcSet_tprio (g : Agent) (cls n : Nat) : (outcSet g cls n).tprio = g.tprio := rfl
@[simp] theorem outcSet_depthAt (g : Agent) (cls n : Nat) : (outcSet g cls n).depthAt = g.depthAt := rfl
@[simp] theorem outcSet_watch (g : Agent) (cls n : Nat) : (outcSet g cls n).watch = g.watch := rfl
@[simp] theorem outcSet_suppress (g : Agent) (cls n : Nat) : (outcSet g cls n).suppress = g.suppress := rfl
@[simp] theorem outcSet_nwin (g : Agent) (cls n : Nat) : (outcSet g cls n).nwin = g.nwin := rfl
@[simp] theorem outcSet_pc (g : Agent) (cls n : Nat) : (outcSet g cls n).pc = g.pc := rfl
@[simp] theorem outcSet_clause (g : Agent) (cls n : Nat) : (outcSet g cls n).clause = g.clause := rfl
@[simp] theorem outcSet_idx (g : Agent) (cls n : Nat) : (outcSet g cls n).idx = g.idx := rfl
@[simp] theorem outcSet_waited (g : Agent) (cls n : Nat) : (outcSet g cls n).waited = g.waited := rfl
@[simp] theorem outcSet_pend (g : Agent) (cls n : Nat) : (outcSet g cls n).pend = g.pend := rfl
@[simp] theorem outcSet_outOps (g : Agent) (cls n : Nat) : (outcSet g cls n).outOps = g.outOps := rfl
@[simp] theorem outcSet_fabErr (g : Agent) (cls n : Nat) : (outcSet g cls n).fabErr = g.fabErr := rfl
@[simp] theorem outcSet_poison (g : Agent) (cls n : Nat) : (outcSet g cls n).poison = g.poison := rfl
@[simp] theorem outcSet_wayCur (g : Agent) (cls n : Nat) : (outcSet g cls n).wayCur = g.wayCur := rfl
@[simp] theorem outcSet_acqHold (g : Agent) (cls n : Nat) : (outcSet g cls n).acqHold = g.acqHold := rfl
@[simp] theorem outcSet_chkptAt (g : Agent) (cls n : Nat) : (outcSet g cls n).chkptAt = g.chkptAt := rfl
@[simp] theorem outcSet_arrived (g : Agent) (cls n : Nat) : (outcSet g cls n).arrived = g.arrived := rfl
@[simp] theorem outcSet_joinAt (g : Agent) (cls n : Nat) : (outcSet g cls n).joinAt = g.joinAt := rfl
@[simp] theorem outcSet_mpSt (g : Agent) (cls n : Nat) : (outcSet g cls n).mpSt = g.mpSt := rfl
@[simp] theorem outcSet_need (g : Agent) (cls n : Nat) : (outcSet g cls n).need = g.need := rfl
@[simp] theorem outcSet_needT (g : Agent) (cls n : Nat) : (outcSet g cls n).needT = g.needT := rfl
@[simp] theorem outcSet_resumed (g : Agent) (cls n : Nat) : (outcSet g cls n).resumed = g.resumed := rfl
@[simp] theorem outcSet_logged (g : Agent) (cls n : Nat) : (outcSet g cls n).logged = g.logged := rfl
@[simp] theorem outcSet_born (g : Agent) (cls n : Nat) : (outcSet g cls n).born = g.born := rfl
@[simp] theorem outcSet_waitSince (g : Agent) (cls n : Nat) : (outcSet g cls n).waitSince = g.waitSince := rfl
@[simp] theorem outcSet_yielded (g : Agent) (cls n : Nat) : (outcSet g cls n).yielded = g.yielded := rfl
@[simp] theorem outcSet_promo (g : Agent) (cls n : Nat) : (outcSet g cls n).promo = g.promo := rfl
@[simp] theorem outcSet_tried (g : Agent) (cls n : Nat) : (outcSet g cls n).tried = g.tried := rfl
@[simp] theorem outcSet_turn (g : Agent) (cls n : Nat) : (outcSet g cls n).turn = g.turn := rfl
@[simp] theorem outcSet_haltForm (g : Agent) (cls n : Nat) : (outcSet g cls n).haltForm = g.haltForm := rfl
@[simp] theorem outcSet_haltReq (g : Agent) (cls n : Nat) : (outcSet g cls n).haltReq = g.haltReq := rfl
@[simp] theorem outcSet_ended (g : Agent) (cls n : Nat) : (outcSet g cls n).ended = g.ended := rfl
@[simp] theorem outcSet_trapPend (g : Agent) (cls n : Nat) : (outcSet g cls n).trapPend = g.trapPend := rfl
@[simp] theorem outcSet_mx (g : Agent) (cls n : Nat) : (outcSet g cls n).mx = g.mx := rfl

/-! tickWindows. -/

@[simp] theorem tickWindows_warpNo (g : Agent) : (tickWindows g).warpNo = g.warpNo := rfl
@[simp] theorem tickWindows_blockNo (g : Agent) : (tickWindows g).blockNo = g.blockNo := rfl
@[simp] theorem tickWindows_teamNo (g : Agent) : (tickWindows g).teamNo = g.teamNo := rfl
@[simp] theorem tickWindows_gteam (g : Agent) : (tickWindows g).gteam = g.gteam := rfl
@[simp] theorem tickWindows_rank (g : Agent) : (tickWindows g).rank = g.rank := rfl
@[simp] theorem tickWindows_nrank (g : Agent) : (tickWindows g).nrank = g.nrank := rfl
@[simp] theorem tickWindows_die (g : Agent) : (tickWindows g).die = g.die := rfl
@[simp] theorem tickWindows_x (g : Agent) : (tickWindows g).x = g.x := rfl
@[simp] theorem tickWindows_y (g : Agent) : (tickWindows g).y = g.y := rfl
@[simp] theorem tickWindows_cluster (g : Agent) : (tickWindows g).cluster = g.cluster := rfl
@[simp] theorem tickWindows_fn (g : Agent) : (tickWindows g).fn = g.fn := rfl
@[simp] theorem tickWindows_part (g : Agent) : (tickWindows g).part = g.part := rfl
@[simp] theorem tickWindows_ctx (g : Agent) : (tickWindows g).ctx = g.ctx := rfl
@[simp] theorem tickWindows_gen (g : Agent) : (tickWindows g).gen = g.gen := rfl
@[simp] theorem tickWindows_launch (g : Agent) : (tickWindows g).launch = g.launch := rfl
@[simp] theorem tickWindows_blk (g : Agent) : (tickWindows g).blk = g.blk := rfl
@[simp] theorem tickWindows_team (g : Agent) : (tickWindows g).team = g.team := rfl
@[simp] theorem tickWindows_task (g : Agent) : (tickWindows g).task = g.task := rfl
@[simp] theorem tickWindows_prio (g : Agent) : (tickWindows g).prio = g.prio := rfl
@[simp] theorem tickWindows_alloc (g : Agent) : (tickWindows g).alloc = g.alloc := rfl
@[simp] theorem tickWindows_v (g : Agent) : (tickWindows g).v = g.v := rfl
@[simp] theorem tickWindows_s (g : Agent) : (tickWindows g).s = g.s := rfl
@[simp] theorem tickWindows_p (g : Agent) : (tickWindows g).p = g.p := rfl
@[simp] theorem tickWindows_exm (g : Agent) : (tickWindows g).exm = g.exm := rfl
@[simp] theorem tickWindows_live (g : Agent) : (tickWindows g).live = g.live := rfl
@[simp] theorem tickWindows_nest (g : Agent) : (tickWindows g).nest = g.nest := rfl
@[simp] theorem tickWindows_lin (g : Agent) : (tickWindows g).lin = g.lin := rfl
@[simp] theorem tickWindows_fmt (g : Agent) : (tickWindows g).fmt = g.fmt := rfl
@[simp] theorem tickWindows_xv (g : Agent) : (tickWindows g).xv = g.xv := rfl
@[simp] theorem tickWindows_lc (g : Agent) : (tickWindows g).lc = g.lc := rfl
@[simp] theorem tickWindows_ls (g : Agent) : (tickWindows g).ls = g.ls := rfl
@[simp] theorem tickWindows_le (g : Agent) : (tickWindows g).le = g.le := rfl
@[simp] theorem tickWindows_tags (g : Agent) : (tickWindows g).tags = g.tags := rfl
@[simp] theorem tickWindows_outc (g : Agent) : (tickWindows g).outc = g.outc := rfl
@[simp] theorem tickWindows_k (g : Agent) : (tickWindows g).k = g.k := rfl
@[simp] theorem tickWindows_recs (g : Agent) : (tickWindows g).recs = g.recs := rfl
@[simp] theorem tickWindows_stack (g : Agent) : (tickWindows g).stack = g.stack := rfl
@[simp] theorem tickWindows_tcause (g : Agent) : (tickWindows g).tcause = g.tcause := rfl
@[simp] theorem tickWindows_tval (g : Agent) : (tickWindows g).tval = g.tval := rfl
@[simp] theorem tickWindows_tpcx (g : Agent) : (tickWindows g).tpcx = g.tpcx := rfl
@[simp] theorem tickWindows_tvec (g : Agent) : (tickWindows g).tvec = g.tvec := rfl
@[simp] theorem tickWindows_posHdr (g : Agent) : (tickWindows g).posHdr = g.posHdr := rfl
@[simp] theorem tickWindows_posIdx (g : Agent) : (tickWindows g).posIdx = g.posIdx := rfl
@[simp] theorem tickWindows_posCnt (g : Agent) : (tickWindows g).posCnt = g.posCnt := rfl
@[simp] theorem tickWindows_written (g : Agent) : (tickWindows g).written = g.written := rfl
@[simp] theorem tickWindows_tprio (g : Agent) : (tickWindows g).tprio = g.tprio := rfl
@[simp] theorem tickWindows_depthAt (g : Agent) : (tickWindows g).depthAt = g.depthAt := rfl
@[simp] theorem tickWindows_watch (g : Agent) : (tickWindows g).watch = g.watch := rfl
@[simp] theorem tickWindows_suppress (g : Agent) : (tickWindows g).suppress = g.suppress := rfl
@[simp] theorem tickWindows_nwin (g : Agent) : (tickWindows g).nwin = g.nwin := rfl
@[simp] theorem tickWindows_pc (g : Agent) : (tickWindows g).pc = g.pc := rfl
@[simp] theorem tickWindows_clause (g : Agent) : (tickWindows g).clause = g.clause := rfl
@[simp] theorem tickWindows_idx (g : Agent) : (tickWindows g).idx = g.idx := rfl
@[simp] theorem tickWindows_waited (g : Agent) : (tickWindows g).waited = g.waited := rfl
@[simp] theorem tickWindows_pend (g : Agent) : (tickWindows g).pend = g.pend.map (fun p => { p with win := p.win - 1 }) := rfl
@[simp] theorem tickWindows_outOps (g : Agent) : (tickWindows g).outOps = g.outOps := rfl
@[simp] theorem tickWindows_fabErr (g : Agent) : (tickWindows g).fabErr = g.fabErr := rfl
@[simp] theorem tickWindows_poison (g : Agent) : (tickWindows g).poison = g.poison := rfl
@[simp] theorem tickWindows_wayCur (g : Agent) : (tickWindows g).wayCur = g.wayCur := rfl
@[simp] theorem tickWindows_acqHold (g : Agent) : (tickWindows g).acqHold = g.acqHold := rfl
@[simp] theorem tickWindows_chkptAt (g : Agent) : (tickWindows g).chkptAt = g.chkptAt := rfl
@[simp] theorem tickWindows_arrived (g : Agent) : (tickWindows g).arrived = g.arrived := rfl
@[simp] theorem tickWindows_joinAt (g : Agent) : (tickWindows g).joinAt = g.joinAt := rfl
@[simp] theorem tickWindows_mpSt (g : Agent) : (tickWindows g).mpSt = g.mpSt := rfl
@[simp] theorem tickWindows_need (g : Agent) : (tickWindows g).need = g.need := rfl
@[simp] theorem tickWindows_needT (g : Agent) : (tickWindows g).needT = g.needT := rfl
@[simp] theorem tickWindows_resumed (g : Agent) : (tickWindows g).resumed = g.resumed := rfl
@[simp] theorem tickWindows_logged (g : Agent) : (tickWindows g).logged = g.logged := rfl
@[simp] theorem tickWindows_born (g : Agent) : (tickWindows g).born = g.born := rfl
@[simp] theorem tickWindows_waitSince (g : Agent) : (tickWindows g).waitSince = g.waitSince := rfl
@[simp] theorem tickWindows_yielded (g : Agent) : (tickWindows g).yielded = g.yielded := rfl
@[simp] theorem tickWindows_promo (g : Agent) : (tickWindows g).promo = g.promo := rfl
@[simp] theorem tickWindows_tried (g : Agent) : (tickWindows g).tried = g.tried := rfl
@[simp] theorem tickWindows_turn (g : Agent) : (tickWindows g).turn = g.turn := rfl
@[simp] theorem tickWindows_haltForm (g : Agent) : (tickWindows g).haltForm = g.haltForm := rfl
@[simp] theorem tickWindows_haltReq (g : Agent) : (tickWindows g).haltReq = g.haltReq := rfl
@[simp] theorem tickWindows_ended (g : Agent) : (tickWindows g).ended = g.ended := rfl
@[simp] theorem tickWindows_trapPend (g : Agent) : (tickWindows g).trapPend = g.trapPend := rfl
@[simp] theorem tickWindows_mx (g : Agent) : (tickWindows g).mx = g.mx := rfl

/-! addPend. -/

@[simp] theorem addPend_warpNo (g : Agent) (id la left : Nat) (dst : List RC) (r : PendRes) (mem : Bool) : (addPend g id la left dst r mem).warpNo = g.warpNo := rfl
@[simp] theorem addPend_blockNo (g : Agent) (id la left : Nat) (dst : List RC) (r : PendRes) (mem : Bool) : (addPend g id la left dst r mem).blockNo = g.blockNo := rfl
@[simp] theorem addPend_teamNo (g : Agent) (id la left : Nat) (dst : List RC) (r : PendRes) (mem : Bool) : (addPend g id la left dst r mem).teamNo = g.teamNo := rfl
@[simp] theorem addPend_gteam (g : Agent) (id la left : Nat) (dst : List RC) (r : PendRes) (mem : Bool) : (addPend g id la left dst r mem).gteam = g.gteam := rfl
@[simp] theorem addPend_rank (g : Agent) (id la left : Nat) (dst : List RC) (r : PendRes) (mem : Bool) : (addPend g id la left dst r mem).rank = g.rank := rfl
@[simp] theorem addPend_nrank (g : Agent) (id la left : Nat) (dst : List RC) (r : PendRes) (mem : Bool) : (addPend g id la left dst r mem).nrank = g.nrank := rfl
@[simp] theorem addPend_die (g : Agent) (id la left : Nat) (dst : List RC) (r : PendRes) (mem : Bool) : (addPend g id la left dst r mem).die = g.die := rfl
@[simp] theorem addPend_x (g : Agent) (id la left : Nat) (dst : List RC) (r : PendRes) (mem : Bool) : (addPend g id la left dst r mem).x = g.x := rfl
@[simp] theorem addPend_y (g : Agent) (id la left : Nat) (dst : List RC) (r : PendRes) (mem : Bool) : (addPend g id la left dst r mem).y = g.y := rfl
@[simp] theorem addPend_cluster (g : Agent) (id la left : Nat) (dst : List RC) (r : PendRes) (mem : Bool) : (addPend g id la left dst r mem).cluster = g.cluster := rfl
@[simp] theorem addPend_fn (g : Agent) (id la left : Nat) (dst : List RC) (r : PendRes) (mem : Bool) : (addPend g id la left dst r mem).fn = g.fn := rfl
@[simp] theorem addPend_part (g : Agent) (id la left : Nat) (dst : List RC) (r : PendRes) (mem : Bool) : (addPend g id la left dst r mem).part = g.part := rfl
@[simp] theorem addPend_ctx (g : Agent) (id la left : Nat) (dst : List RC) (r : PendRes) (mem : Bool) : (addPend g id la left dst r mem).ctx = g.ctx := rfl
@[simp] theorem addPend_gen (g : Agent) (id la left : Nat) (dst : List RC) (r : PendRes) (mem : Bool) : (addPend g id la left dst r mem).gen = g.gen := rfl
@[simp] theorem addPend_launch (g : Agent) (id la left : Nat) (dst : List RC) (r : PendRes) (mem : Bool) : (addPend g id la left dst r mem).launch = g.launch := rfl
@[simp] theorem addPend_blk (g : Agent) (id la left : Nat) (dst : List RC) (r : PendRes) (mem : Bool) : (addPend g id la left dst r mem).blk = g.blk := rfl
@[simp] theorem addPend_team (g : Agent) (id la left : Nat) (dst : List RC) (r : PendRes) (mem : Bool) : (addPend g id la left dst r mem).team = g.team := rfl
@[simp] theorem addPend_task (g : Agent) (id la left : Nat) (dst : List RC) (r : PendRes) (mem : Bool) : (addPend g id la left dst r mem).task = g.task := rfl
@[simp] theorem addPend_prio (g : Agent) (id la left : Nat) (dst : List RC) (r : PendRes) (mem : Bool) : (addPend g id la left dst r mem).prio = g.prio := rfl
@[simp] theorem addPend_alloc (g : Agent) (id la left : Nat) (dst : List RC) (r : PendRes) (mem : Bool) : (addPend g id la left dst r mem).alloc = g.alloc := rfl
@[simp] theorem addPend_v (g : Agent) (id la left : Nat) (dst : List RC) (r : PendRes) (mem : Bool) : (addPend g id la left dst r mem).v = g.v := rfl
@[simp] theorem addPend_s (g : Agent) (id la left : Nat) (dst : List RC) (r : PendRes) (mem : Bool) : (addPend g id la left dst r mem).s = g.s := rfl
@[simp] theorem addPend_p (g : Agent) (id la left : Nat) (dst : List RC) (r : PendRes) (mem : Bool) : (addPend g id la left dst r mem).p = g.p := rfl
@[simp] theorem addPend_exm (g : Agent) (id la left : Nat) (dst : List RC) (r : PendRes) (mem : Bool) : (addPend g id la left dst r mem).exm = g.exm := rfl
@[simp] theorem addPend_live (g : Agent) (id la left : Nat) (dst : List RC) (r : PendRes) (mem : Bool) : (addPend g id la left dst r mem).live = g.live := rfl
@[simp] theorem addPend_nest (g : Agent) (id la left : Nat) (dst : List RC) (r : PendRes) (mem : Bool) : (addPend g id la left dst r mem).nest = g.nest := rfl
@[simp] theorem addPend_lin (g : Agent) (id la left : Nat) (dst : List RC) (r : PendRes) (mem : Bool) : (addPend g id la left dst r mem).lin = g.lin := rfl
@[simp] theorem addPend_fmt (g : Agent) (id la left : Nat) (dst : List RC) (r : PendRes) (mem : Bool) : (addPend g id la left dst r mem).fmt = g.fmt := rfl
@[simp] theorem addPend_xv (g : Agent) (id la left : Nat) (dst : List RC) (r : PendRes) (mem : Bool) : (addPend g id la left dst r mem).xv = g.xv := rfl
@[simp] theorem addPend_lc (g : Agent) (id la left : Nat) (dst : List RC) (r : PendRes) (mem : Bool) : (addPend g id la left dst r mem).lc = g.lc := rfl
@[simp] theorem addPend_ls (g : Agent) (id la left : Nat) (dst : List RC) (r : PendRes) (mem : Bool) : (addPend g id la left dst r mem).ls = g.ls := rfl
@[simp] theorem addPend_le (g : Agent) (id la left : Nat) (dst : List RC) (r : PendRes) (mem : Bool) : (addPend g id la left dst r mem).le = g.le := rfl
@[simp] theorem addPend_tags (g : Agent) (id la left : Nat) (dst : List RC) (r : PendRes) (mem : Bool) : (addPend g id la left dst r mem).tags = g.tags := rfl
@[simp] theorem addPend_outc (g : Agent) (id la left : Nat) (dst : List RC) (r : PendRes) (mem : Bool) : (addPend g id la left dst r mem).outc = g.outc := rfl
@[simp] theorem addPend_k (g : Agent) (id la left : Nat) (dst : List RC) (r : PendRes) (mem : Bool) : (addPend g id la left dst r mem).k = g.k := rfl
@[simp] theorem addPend_recs (g : Agent) (id la left : Nat) (dst : List RC) (r : PendRes) (mem : Bool) : (addPend g id la left dst r mem).recs = g.recs := rfl
@[simp] theorem addPend_stack (g : Agent) (id la left : Nat) (dst : List RC) (r : PendRes) (mem : Bool) : (addPend g id la left dst r mem).stack = g.stack := rfl
@[simp] theorem addPend_tcause (g : Agent) (id la left : Nat) (dst : List RC) (r : PendRes) (mem : Bool) : (addPend g id la left dst r mem).tcause = g.tcause := rfl
@[simp] theorem addPend_tval (g : Agent) (id la left : Nat) (dst : List RC) (r : PendRes) (mem : Bool) : (addPend g id la left dst r mem).tval = g.tval := rfl
@[simp] theorem addPend_tpcx (g : Agent) (id la left : Nat) (dst : List RC) (r : PendRes) (mem : Bool) : (addPend g id la left dst r mem).tpcx = g.tpcx := rfl
@[simp] theorem addPend_tvec (g : Agent) (id la left : Nat) (dst : List RC) (r : PendRes) (mem : Bool) : (addPend g id la left dst r mem).tvec = g.tvec := rfl
@[simp] theorem addPend_posHdr (g : Agent) (id la left : Nat) (dst : List RC) (r : PendRes) (mem : Bool) : (addPend g id la left dst r mem).posHdr = g.posHdr := rfl
@[simp] theorem addPend_posIdx (g : Agent) (id la left : Nat) (dst : List RC) (r : PendRes) (mem : Bool) : (addPend g id la left dst r mem).posIdx = g.posIdx := rfl
@[simp] theorem addPend_posCnt (g : Agent) (id la left : Nat) (dst : List RC) (r : PendRes) (mem : Bool) : (addPend g id la left dst r mem).posCnt = g.posCnt := rfl
@[simp] theorem addPend_written (g : Agent) (id la left : Nat) (dst : List RC) (r : PendRes) (mem : Bool) : (addPend g id la left dst r mem).written = g.written := rfl
@[simp] theorem addPend_tprio (g : Agent) (id la left : Nat) (dst : List RC) (r : PendRes) (mem : Bool) : (addPend g id la left dst r mem).tprio = g.tprio := rfl
@[simp] theorem addPend_depthAt (g : Agent) (id la left : Nat) (dst : List RC) (r : PendRes) (mem : Bool) : (addPend g id la left dst r mem).depthAt = g.depthAt := rfl
@[simp] theorem addPend_watch (g : Agent) (id la left : Nat) (dst : List RC) (r : PendRes) (mem : Bool) : (addPend g id la left dst r mem).watch = g.watch := rfl
@[simp] theorem addPend_suppress (g : Agent) (id la left : Nat) (dst : List RC) (r : PendRes) (mem : Bool) : (addPend g id la left dst r mem).suppress = g.suppress := rfl
@[simp] theorem addPend_nwin (g : Agent) (id la left : Nat) (dst : List RC) (r : PendRes) (mem : Bool) : (addPend g id la left dst r mem).nwin = g.nwin := rfl
@[simp] theorem addPend_pc (g : Agent) (id la left : Nat) (dst : List RC) (r : PendRes) (mem : Bool) : (addPend g id la left dst r mem).pc = g.pc := rfl
@[simp] theorem addPend_clause (g : Agent) (id la left : Nat) (dst : List RC) (r : PendRes) (mem : Bool) : (addPend g id la left dst r mem).clause = g.clause := rfl
@[simp] theorem addPend_idx (g : Agent) (id la left : Nat) (dst : List RC) (r : PendRes) (mem : Bool) : (addPend g id la left dst r mem).idx = g.idx := rfl
@[simp] theorem addPend_waited (g : Agent) (id la left : Nat) (dst : List RC) (r : PendRes) (mem : Bool) : (addPend g id la left dst r mem).waited = g.waited := rfl
@[simp] theorem addPend_pend (g : Agent) (id la left : Nat) (dst : List RC) (r : PendRes) (mem : Bool) : (addPend g id la left dst r mem).pend = g.pend ++ [⟨id, mem, dst, la + 1, left, r⟩] := rfl
@[simp] theorem addPend_outOps (g : Agent) (id la left : Nat) (dst : List RC) (r : PendRes) (mem : Bool) : (addPend g id la left dst r mem).outOps = g.outOps := rfl
@[simp] theorem addPend_fabErr (g : Agent) (id la left : Nat) (dst : List RC) (r : PendRes) (mem : Bool) : (addPend g id la left dst r mem).fabErr = g.fabErr := rfl
@[simp] theorem addPend_poison (g : Agent) (id la left : Nat) (dst : List RC) (r : PendRes) (mem : Bool) : (addPend g id la left dst r mem).poison = g.poison := rfl
@[simp] theorem addPend_wayCur (g : Agent) (id la left : Nat) (dst : List RC) (r : PendRes) (mem : Bool) : (addPend g id la left dst r mem).wayCur = g.wayCur := rfl
@[simp] theorem addPend_acqHold (g : Agent) (id la left : Nat) (dst : List RC) (r : PendRes) (mem : Bool) : (addPend g id la left dst r mem).acqHold = g.acqHold := rfl
@[simp] theorem addPend_chkptAt (g : Agent) (id la left : Nat) (dst : List RC) (r : PendRes) (mem : Bool) : (addPend g id la left dst r mem).chkptAt = g.chkptAt := rfl
@[simp] theorem addPend_arrived (g : Agent) (id la left : Nat) (dst : List RC) (r : PendRes) (mem : Bool) : (addPend g id la left dst r mem).arrived = g.arrived := rfl
@[simp] theorem addPend_joinAt (g : Agent) (id la left : Nat) (dst : List RC) (r : PendRes) (mem : Bool) : (addPend g id la left dst r mem).joinAt = g.joinAt := rfl
@[simp] theorem addPend_mpSt (g : Agent) (id la left : Nat) (dst : List RC) (r : PendRes) (mem : Bool) : (addPend g id la left dst r mem).mpSt = g.mpSt := rfl
@[simp] theorem addPend_need (g : Agent) (id la left : Nat) (dst : List RC) (r : PendRes) (mem : Bool) : (addPend g id la left dst r mem).need = g.need := rfl
@[simp] theorem addPend_needT (g : Agent) (id la left : Nat) (dst : List RC) (r : PendRes) (mem : Bool) : (addPend g id la left dst r mem).needT = g.needT := rfl
@[simp] theorem addPend_resumed (g : Agent) (id la left : Nat) (dst : List RC) (r : PendRes) (mem : Bool) : (addPend g id la left dst r mem).resumed = g.resumed := rfl
@[simp] theorem addPend_logged (g : Agent) (id la left : Nat) (dst : List RC) (r : PendRes) (mem : Bool) : (addPend g id la left dst r mem).logged = g.logged := rfl
@[simp] theorem addPend_born (g : Agent) (id la left : Nat) (dst : List RC) (r : PendRes) (mem : Bool) : (addPend g id la left dst r mem).born = g.born := rfl
@[simp] theorem addPend_waitSince (g : Agent) (id la left : Nat) (dst : List RC) (r : PendRes) (mem : Bool) : (addPend g id la left dst r mem).waitSince = g.waitSince := rfl
@[simp] theorem addPend_yielded (g : Agent) (id la left : Nat) (dst : List RC) (r : PendRes) (mem : Bool) : (addPend g id la left dst r mem).yielded = g.yielded := rfl
@[simp] theorem addPend_promo (g : Agent) (id la left : Nat) (dst : List RC) (r : PendRes) (mem : Bool) : (addPend g id la left dst r mem).promo = g.promo := rfl
@[simp] theorem addPend_tried (g : Agent) (id la left : Nat) (dst : List RC) (r : PendRes) (mem : Bool) : (addPend g id la left dst r mem).tried = g.tried := rfl
@[simp] theorem addPend_turn (g : Agent) (id la left : Nat) (dst : List RC) (r : PendRes) (mem : Bool) : (addPend g id la left dst r mem).turn = g.turn := rfl
@[simp] theorem addPend_haltForm (g : Agent) (id la left : Nat) (dst : List RC) (r : PendRes) (mem : Bool) : (addPend g id la left dst r mem).haltForm = g.haltForm := rfl
@[simp] theorem addPend_haltReq (g : Agent) (id la left : Nat) (dst : List RC) (r : PendRes) (mem : Bool) : (addPend g id la left dst r mem).haltReq = g.haltReq := rfl
@[simp] theorem addPend_ended (g : Agent) (id la left : Nat) (dst : List RC) (r : PendRes) (mem : Bool) : (addPend g id la left dst r mem).ended = g.ended := rfl
@[simp] theorem addPend_trapPend (g : Agent) (id la left : Nat) (dst : List RC) (r : PendRes) (mem : Bool) : (addPend g id la left dst r mem).trapPend = g.trapPend := rfl
@[simp] theorem addPend_mx (g : Agent) (id la left : Nat) (dst : List RC) (r : PendRes) (mem : Bool) : (addPend g id la left dst r mem).mx = g.mx := rfl

/-! enter. -/

@[simp] theorem enter_warpNo (g : Agent) (t : W64) : (enter g t).warpNo = g.warpNo := rfl
@[simp] theorem enter_blockNo (g : Agent) (t : W64) : (enter g t).blockNo = g.blockNo := rfl
@[simp] theorem enter_teamNo (g : Agent) (t : W64) : (enter g t).teamNo = g.teamNo := rfl
@[simp] theorem enter_gteam (g : Agent) (t : W64) : (enter g t).gteam = g.gteam := rfl
@[simp] theorem enter_rank (g : Agent) (t : W64) : (enter g t).rank = g.rank := rfl
@[simp] theorem enter_nrank (g : Agent) (t : W64) : (enter g t).nrank = g.nrank := rfl
@[simp] theorem enter_die (g : Agent) (t : W64) : (enter g t).die = g.die := rfl
@[simp] theorem enter_x (g : Agent) (t : W64) : (enter g t).x = g.x := rfl
@[simp] theorem enter_y (g : Agent) (t : W64) : (enter g t).y = g.y := rfl
@[simp] theorem enter_cluster (g : Agent) (t : W64) : (enter g t).cluster = g.cluster := rfl
@[simp] theorem enter_fn (g : Agent) (t : W64) : (enter g t).fn = g.fn := rfl
@[simp] theorem enter_part (g : Agent) (t : W64) : (enter g t).part = g.part := rfl
@[simp] theorem enter_ctx (g : Agent) (t : W64) : (enter g t).ctx = g.ctx := rfl
@[simp] theorem enter_gen (g : Agent) (t : W64) : (enter g t).gen = g.gen := rfl
@[simp] theorem enter_launch (g : Agent) (t : W64) : (enter g t).launch = g.launch := rfl
@[simp] theorem enter_blk (g : Agent) (t : W64) : (enter g t).blk = g.blk := rfl
@[simp] theorem enter_team (g : Agent) (t : W64) : (enter g t).team = g.team := rfl
@[simp] theorem enter_task (g : Agent) (t : W64) : (enter g t).task = g.task := rfl
@[simp] theorem enter_prio (g : Agent) (t : W64) : (enter g t).prio = g.prio := rfl
@[simp] theorem enter_alloc (g : Agent) (t : W64) : (enter g t).alloc = g.alloc := rfl
@[simp] theorem enter_v (g : Agent) (t : W64) : (enter g t).v = g.v := rfl
@[simp] theorem enter_s (g : Agent) (t : W64) : (enter g t).s = g.s := rfl
@[simp] theorem enter_p (g : Agent) (t : W64) : (enter g t).p = g.p := rfl
@[simp] theorem enter_exm (g : Agent) (t : W64) : (enter g t).exm = g.exm := rfl
@[simp] theorem enter_live (g : Agent) (t : W64) : (enter g t).live = g.live := rfl
@[simp] theorem enter_nest (g : Agent) (t : W64) : (enter g t).nest = g.nest := rfl
@[simp] theorem enter_lin (g : Agent) (t : W64) : (enter g t).lin = g.lin := rfl
@[simp] theorem enter_fmt (g : Agent) (t : W64) : (enter g t).fmt = g.fmt := rfl
@[simp] theorem enter_xv (g : Agent) (t : W64) : (enter g t).xv = g.xv := rfl
@[simp] theorem enter_lc (g : Agent) (t : W64) : (enter g t).lc = g.lc := rfl
@[simp] theorem enter_ls (g : Agent) (t : W64) : (enter g t).ls = g.ls := rfl
@[simp] theorem enter_le (g : Agent) (t : W64) : (enter g t).le = g.le := rfl
@[simp] theorem enter_tags (g : Agent) (t : W64) : (enter g t).tags = g.tags := rfl
@[simp] theorem enter_outc (g : Agent) (t : W64) : (enter g t).outc = g.outc := rfl
@[simp] theorem enter_k (g : Agent) (t : W64) : (enter g t).k = g.k := rfl
@[simp] theorem enter_recs (g : Agent) (t : W64) : (enter g t).recs = g.recs := rfl
@[simp] theorem enter_stack (g : Agent) (t : W64) : (enter g t).stack = g.stack := rfl
@[simp] theorem enter_tcause (g : Agent) (t : W64) : (enter g t).tcause = g.tcause := rfl
@[simp] theorem enter_tval (g : Agent) (t : W64) : (enter g t).tval = g.tval := rfl
@[simp] theorem enter_tpcx (g : Agent) (t : W64) : (enter g t).tpcx = g.tpcx := rfl
@[simp] theorem enter_tvec (g : Agent) (t : W64) : (enter g t).tvec = g.tvec := rfl
@[simp] theorem enter_posHdr (g : Agent) (t : W64) : (enter g t).posHdr = g.posHdr := rfl
@[simp] theorem enter_posIdx (g : Agent) (t : W64) : (enter g t).posIdx = g.posIdx := rfl
@[simp] theorem enter_posCnt (g : Agent) (t : W64) : (enter g t).posCnt = g.posCnt := rfl
@[simp] theorem enter_written (g : Agent) (t : W64) : (enter g t).written = g.written := rfl
@[simp] theorem enter_tprio (g : Agent) (t : W64) : (enter g t).tprio = g.tprio := rfl
@[simp] theorem enter_depthAt (g : Agent) (t : W64) : (enter g t).depthAt = g.depthAt := rfl
@[simp] theorem enter_watch (g : Agent) (t : W64) : (enter g t).watch = g.watch := rfl
@[simp] theorem enter_suppress (g : Agent) (t : W64) : (enter g t).suppress = false := rfl
@[simp] theorem enter_nwin (g : Agent) (t : W64) : (enter g t).nwin = g.nwin := rfl
@[simp] theorem enter_pc (g : Agent) (t : W64) : (enter g t).pc = t := rfl
@[simp] theorem enter_clause (g : Agent) (t : W64) : (enter g t).clause = none := rfl
@[simp] theorem enter_idx (g : Agent) (t : W64) : (enter g t).idx = 0 := rfl
@[simp] theorem enter_waited (g : Agent) (t : W64) : (enter g t).waited = false := rfl
@[simp] theorem enter_pend (g : Agent) (t : W64) : (enter g t).pend = g.pend.map (fun p => { p with win := 0 }) := rfl
@[simp] theorem enter_outOps (g : Agent) (t : W64) : (enter g t).outOps = g.outOps := rfl
@[simp] theorem enter_fabErr (g : Agent) (t : W64) : (enter g t).fabErr = g.fabErr := rfl
@[simp] theorem enter_poison (g : Agent) (t : W64) : (enter g t).poison = g.poison := rfl
@[simp] theorem enter_wayCur (g : Agent) (t : W64) : (enter g t).wayCur = none := rfl
@[simp] theorem enter_acqHold (g : Agent) (t : W64) : (enter g t).acqHold = g.acqHold := rfl
@[simp] theorem enter_chkptAt (g : Agent) (t : W64) : (enter g t).chkptAt = g.chkptAt := rfl
@[simp] theorem enter_arrived (g : Agent) (t : W64) : (enter g t).arrived = g.arrived := rfl
@[simp] theorem enter_joinAt (g : Agent) (t : W64) : (enter g t).joinAt = g.joinAt := rfl
@[simp] theorem enter_mpSt (g : Agent) (t : W64) : (enter g t).mpSt = g.mpSt := rfl
@[simp] theorem enter_need (g : Agent) (t : W64) : (enter g t).need = g.need := rfl
@[simp] theorem enter_needT (g : Agent) (t : W64) : (enter g t).needT = g.needT := rfl
@[simp] theorem enter_resumed (g : Agent) (t : W64) : (enter g t).resumed = g.resumed := rfl
@[simp] theorem enter_logged (g : Agent) (t : W64) : (enter g t).logged = g.logged := rfl
@[simp] theorem enter_born (g : Agent) (t : W64) : (enter g t).born = g.born := rfl
@[simp] theorem enter_waitSince (g : Agent) (t : W64) : (enter g t).waitSince = g.waitSince := rfl
@[simp] theorem enter_promo (g : Agent) (t : W64) : (enter g t).promo = g.promo := rfl
@[simp] theorem enter_tried (g : Agent) (t : W64) : (enter g t).tried = g.tried := rfl
@[simp] theorem enter_turn (g : Agent) (t : W64) : (enter g t).turn = g.turn := rfl
@[simp] theorem enter_haltForm (g : Agent) (t : W64) : (enter g t).haltForm = g.haltForm := rfl
@[simp] theorem enter_haltReq (g : Agent) (t : W64) : (enter g t).haltReq = g.haltReq := rfl
@[simp] theorem enter_ended (g : Agent) (t : W64) : (enter g t).ended = g.ended := rfl
@[simp] theorem enter_trapPend (g : Agent) (t : W64) : (enter g t).trapPend = g.trapPend := rfl
@[simp] theorem enter_mx (g : Agent) (t : W64) : (enter g t).mx = g.mx := rfl

/-! What logged writes touch: memory and the undo logs. -/

/-- A logged write changes HBM as an unlogged one does, and so at the yard. -/
theorem modCk_mem (s : State) (p : Nat) (f : Ck → Ck) : (modCk s p f).mem = s.mem := rfl
theorem logLines_mem (s : State) (p kind lo n : Nat) : (logLines s p kind lo n).mem = s.mem := rfl
theorem logByte_mem (t : Option Nat) (s : State) (pa : Nat) : (logByte t s pa).mem = s.mem := by
  unfold logByte; split
  · rfl
  · rfl
theorem logFold_mem (t : Option Nat) (pa : Nat) (l : List Nat) (s : State) : (l.foldl (fun s i => logByte t s (pa + i)) s).mem = s.mem := by
  induction l generalizing s with
  | nil => rfl
  | cons i r ih => rw [List.foldl_cons, ih, logByte_mem]
@[simp] theorem hbmWriteFor_mem (t : Option Nat) (s : State) (pa : Nat) (bs : List Byte) :
    (hbmWriteFor t s pa bs).mem = { s.mem with hbm := writeBytes s.mem.hbm pa bs } := by
  simp only [hbmWriteFor, hbmPut_mem, logFold_mem]
@[simp] theorem yardWrite_mem (s : State) (k : Nat) (bs : List Byte) :
    (yardWrite s k bs).mem = { s.mem with yard := writeBytes s.mem.yard k bs } := by
  unfold yardWrite; split <;> rfl

/-! Every memory operation keeps the canonical form. -/

theorem hbmPut_ok {s : State} (h : s.MemOk) (pa : Nat) (bs : List Byte) : (hbmPut s pa bs).MemOk := ⟨writeBytes_wf h.1 pa bs, h.2⟩
theorem hbmWriteFor_ok {s : State} (h : s.MemOk) (t : Option Nat) (pa : Nat) (bs : List Byte) : (hbmWriteFor t s pa bs).MemOk := by
  refine ⟨?_, ?_⟩
  · rw [hbmWriteFor_mem]; exact writeBytes_wf h.1 pa bs
  · rw [hbmWriteFor_mem]; exact h.2
theorem yardWrite_ok {s : State} (h : s.MemOk) (k : Nat) (bs : List Byte) : (yardWrite s k bs).MemOk := by
  refine ⟨?_, ?_⟩
  · rw [yardWrite_mem]; exact h.1
  · rw [yardWrite_mem]; exact writeBytes_wf h.2 k bs
theorem setPoison_ok {s : State} (h : s.MemOk) (y : Bool) (l : Nat) (b : Bool) : (setPoison s y l b).MemOk := h
theorem hbmAtomFor_ok {s : State} (h : s.MemOk) (t : Option Nat) (pa : Nat) (q : AtomReq) : (hbmAtomFor t s pa q).1.MemOk := by
  unfold hbmAtomFor
  simp only
  split
  · exact h
  · exact hbmWriteFor_ok h t pa _
theorem reset_memOk : State.reset.MemOk := ⟨rfl, rfl⟩

end Sys2Proof.Machine
end

