-- ==== Sys2Proof/Tests/Slice0.lean ====
section
/-! SUPPORT. Tests of the model against words, values and cases of the manual, and for each statement with hypotheses a state and operands
that meet them. -/

namespace Sys2Proof.Tests

set_option Elab.async false

open Sys2Proof Sys2Proof.Machine


/-! ## Words of the manual, and terms the encoding refuses. -/

/- Each word is one the manual writes out beside its fields. -/
theorem test_decode_scalar : decode 0x000201030A11C000 = some (.sadd { plainT with ob := 2, oa := 1, dst := 3, ty := .s32, sat := true }) := by decide +kernel
theorem test_decode_scalar_immediate : decode 0x8000101D1679C018 = some (.smovi { plainI with imm := 0x8000101D, dst := 0x16, ty := .z64 }) := by decide +kernel
theorem test_decode_branch : decode 0x0000D0900005C030 = some (.bra { plainB with tgt1 := 13, tgt2 := 9 * 4096, sub := 1 }) := by decide +kernel
theorem test_decode_loop : decode 0xC00400000001C040 = some (.lpcnt { plainX with imm := 0xC004 }) := by decide +kernel
theorem test_decode_vector : decode 0x000C12054A01C082 =
    some (.vmul { plainT with ob := 0x0C, ub := true, oa := 0x12, dst := 5, ty := .s32 }) := by decide +kernel
theorem test_decode_quad : decode 0x060103041205C0E2 =
    some (.vshup { plainT with oc := 6, ob := 1, oa := 3, dst := 4, ty := .b32, sub := 1 }) := by decide +kernel
theorem test_decode_near : decode 0x0F0502005195C180 =
    some (.ld { plainM with data := 15, base := 5, off := 0x200, ord := .acq, scope := .team, space := .shared, ty := .b32, ubase := true }) := by decide +kernel
theorem test_decode_far : decode 0x010000100795C9C0 =
    some (.fld { plainM with c := ⟨false, 7, 2⟩, data := 1, off := 0x10, space := .far, ty := .b32, ubase := true }) := by decide +kernel
theorem test_decode_claim : decode 0x0800000D4005C1E8 = some (.gather { plainA with oa := 8, ckind := .status, carg := 20, sub := 1 }) := by decide +kernel
theorem test_decode_sync : decode 0x010000070001C222 = some (.wayarrNeighbour { plainX with imm := 0x100, oa := 7 }) := by decide +kernel
theorem test_decode_matrix : decode 0x200010042131C244 =
    some (.mdrain { plainM2 with abase := 0x20, aslot := 4, tile := 2, ty := .bf16, batch := 1, nk := 3 }) := by decide +kernel
theorem test_decode_population : decode 0x040603000001C263 = some (.resample { plainA with oa := 4, ob := 6, oc := 3 }) := by decide +kernel
theorem test_decode_notice : decode 0x080014000001C271 = some (.notice { plainA with oa := 8, oc := 0x14 }) := by decide +kernel
theorem test_decode_network : decode 0x0C0607000001CA85 = some (.xpoll { plainA with c := ⟨false, 7, 2⟩, oa := 12, ob := 6, oc := 7 }) := by decide +kernel
theorem test_decode_system : decode 0x073A00040001C2A6 = some (.watch { plainX with imm := 0x073A, oa := 4 }) := by decide +kernel
/- The default table does not assign 0x2C0; VADDMIN is not long-latency, so LA 1 is refused (12, the example of R259). -/
theorem test_unassigned_word : decode 0x030201040A01C2C0 = none := by decide +kernel
theorem test_decode_vaddmin : decode 0x030201040A01C089 =
    some (.vaddmin { plainT with oc := 3, ob := 2, oa := 1, dst := 4, ty := .s32 }) := by decide +kernel
theorem test_lookahead_refused : decode 0x030201040A01C489 = none := by decide +kernel
/- A clause header: COUNT 1, class 5, YIELD (Table 11-1 and the example of 10). -/
theorem test_clause_header : (parseHdr 0x0000000000020051).map (fun h => (h.count.toNat, h.cls.toNat, h.yld, h.drain)) = some (1, 5, true, false) := by
  decide +kernel

/-- Terms that break one check each, with the check: lookahead on an operation that is not long-latency. -/
theorem test_wf_lookahead : formOk (.sadd { plainT with ty := .s64, c := ⟨false, 7, 1⟩ }) = false ∧
    formOk (.sdiv { plainT with ty := .s64, c := ⟨false, 7, 1⟩ }) = true := by decide +kernel
/-- Format T: S64, an odd pair, P7 as destination, an unused field, a U bit, the type, SAT, RND, SUB, VCVT's types, a comparison code, a lane. -/
theorem test_wf_T : ([.sadd { plainT with ty := .s64, oa := 64 }, .vadd { plainT with ty := .s64, dst := 1 }, .pand { plainT with dst := 7 },
    .smov { plainT with ty := .b64, ob := 1 }, .sadd { plainT with ty := .s64, ua := true }, .sadd { plainT with ty := .f32 },
    .smulh { plainT with ty := .s64, sat := true }, .sadd { plainT with ty := .s64, rnd := .rz }, .vsqrt { plainT with ty := .f32, rnd := .rs },
    .smov { plainT with ty := .b64, sub := 1 }, .vcvt { plainT with ty := .f32, ob := 0 }, .vcmp { plainT with ty := .s32, oc := 6 },
    .vshup { plainT with ty := .b32, ob := 32, sub := 1 }, .qxch { plainT with ty := .b32 }, .vadd { plainT with ty := .b128 }] : List Instr).all
    (fun i => !formOk i) = true := by decide +kernel
/-- Format I: S64, the type, HI at 32 bits, HI of SCMPI and VMOVI. -/
theorem test_wf_I : ([.smovi { plainI with ty := .s64, dst := 64 }, .smovi { plainI with ty := .s32 }, .saddi { plainI with ty := .s32, hi := true },
    .sandi { plainI with ty := .b32, hi := true }, .scmpi { plainI with ty := .s64, hi := true }, .vmovi { plainI with ty := .b32, hi := true }] : List Instr).all
    (fun i => !formOk i) = true := by decide +kernel
/-- Format M: the space, a scope without an order, the base, the data register's alignment, a far b128, the order, the attribute byte. -/
theorem test_wf_M : ([.ld { plainM with ty := .b32, space := .far }, .fld { plainM with ty := .b32, space := .shared },
    .ld { plainM with ty := .b32, scope := .team }, .ld { plainM with ty := .b32, base := 64, ubase := true }, .fld { plainM with ty := .b32, space := .far, base := 1 },
    .ld { plainM with ty := .b64, data := 1 }, .ld { plainM with ty := .b128, data := 2 }, .fld { plainM with ty := .b128, space := .far },
    .ld { plainM with ty := .b32, ord := .rel }, .st { plainM with ty := .b32, ord := .acq }, .atomAdd { plainM with ty := .s32, off := 2 },
    .atomAdd { plainM with ty := .s32, off := 1, ord := .acq }, .atomAdd { plainM with ty := .b32 }, .cas { plainM with ty := .b64, off := 1 }] : List Instr).all
    (fun i => !formOk i) = true := by decide +kernel
/-- Format B: a condition where there is none, a second target, a guard on a region operation, an unused field. -/
theorem test_wf_B : ([.bra { plainB with cpred := 1 }, .bra { plainB with tgt2 := 1 }, .bra { plainB with cneg := true }, .brar { plainB with tgt1 := 1 },
    .call { plainB with sub := 1 }, .ret { plainB with tgt2 := 64 * 4096 }, .bifOpen { plainB with c := ⟨false, 0, 0⟩ }, .belse { plainB with tgt1 := 1 },
    .lpset { plainB with sub := 2 }] : List Instr).all (fun i => !formOk i) = true := by decide +kernel
/-- Format A: a completion out of range, an argument without a kind, an S range past S63, an unused register, claim or modifier, NWIN below 6. -/
theorem test_wf_A : ([.flow { plainA with ckind := .wp, carg := 16 }, .flow { plainA with carg := 1 }, .claim { plainA with oa := 62 }, .claim { plainA with ob := 1 },
    .copy { plainA with kh := 1 }, .kstat { plainA with sub := 1 }, .coll { plainA with sub := 4 }, .resample { plainA with oc := 7 }, .plin { plainA with oa := 1 },
    .nwin { plainA with sub := 5 }, .nstat { plainA with sub := 2 }, .xatom { plainA with oc := 63 }] : List Instr).all (fun i => !formOk i) = true := by decide +kernel
/-- Format X: an identity and a special register that do not exist, a read-only one written, a FENCE without an order or with scope 7, reserved
bits, BLK's neighbours, a counter class, a second immediate. -/
theorem test_wf_X : ([.srd { plainX with imm := 13 }, .srd { plainX with imm := 0 }, .mfsr { plainX with imm := 3 }, .mtsr { plainX with imm := 1 },
    .sfmt { plainX with imm := 2 }, .fence { plainX with imm := 0 }, .fence { plainX with imm := 0xB800 }, .nop { plainX with imm := 1 },
    .wayregNeed { plainX with imm := 0x3C0 }, .waywait { plainX with imm := 0x40 }, .ycfg { plainX with imm := 64 }, .waitc { plainX with imm := 0x6000 },
    .twait { plainX with imm := 2 }, .trapVec { plainX with imm := 0x8001 }, .rdtime { plainX with imm := 3 }, .watch { plainX with imm := 0x32 }] : List Instr).all
    (fun i => !formOk i) = true := by decide +kernel
/-- Format C: a reserved slot, the type, an unused fragment, a panel, a tile of MADDT. -/
theorem test_wf_C : ([.mma { plainM2 with ty := .f32 }, .mma { plainM2 with ty := .f16, aslot := 48 }, .mzero { plainM2 with abase := 1 },
    .mload { plainM2 with nk := 4 }, .mdrain { plainM2 with ty := .s8 }, .maddt { plainM2 with abase := 8 }, .mfence { plainM2 with tile := 1 }] : List Instr).all
    (fun i => !formOk i) = true := by decide +kernel
/-- The rows that share an opcode are told apart by their field. -/
theorem test_wf_variants : ([.wayreg { plainX with imm := 0x200 }, .wayregNeed { plainX with imm := 0 }, .wayarr { plainX with imm := 0x40 },
    .wayarrNeighbour plainX, .waydrop { plainX with imm := 0x200 }, .waydropReset plainX, .nstat { plainA with sub := 1 }, .nstatCnt plainA,
    .trap { plainX with imm := 0x8000 }, .trapVec plainX] : List Instr).all (fun i => !formOk i) = true := by decide +kernel

/-! ## One instruction on a small state: a dispatched warp, or a stream for a matrix operation, that holds the word. -/

/-- A block of core 0. -/
def blk0 : Block := ⟨⟨0, 0, 0⟩, 0, 0, 0, 0, 0, 0, 0, 0, 0, [], 0, [], [], [], [], [], false, false⟩
/-- The machine whose next step issues the word of i, its S registers as listed. -/
def held (i : Instr) (ss : List (Nat × W64) := []) : State :=
  let s := State.reset.withFetchWord 64 ((encode i).getD 0).toNat
  modAgent s s.cur (fun g => { g with s := msetAll g.s ss })
/-- The current agent. -/
def me (s : State) : Agent := (agent s s.cur).getD blankAgent
/-- The state an instruction leaves; a stop leaves the reset state. -/
def run (i : Instr) (s : State) : State := match exec i s with
  | .next t => t
  | _ => State.reset
/-- S register n, or the pending value for it, after i. -/
def sAfter (i : Instr) (ss : List (Nat × W64)) (n : Nat) : W64 := sget (settleAll (me (run i (held i ss)))) n
/-- Lane l of V register n after i on lanes given. -/
def vAfter (i : Instr) (vs : List (Nat × W32)) (n l : Nat) : W32 :=
  let s := held i
  vget (settleAll (me (run i (modAgent s s.cur (fun g => { g with v := msetAll g.v vs }))))) n l

/- Saturation: 2^31 - 1 + 1 stays, and SQ, bit 37 of FMT, is set (R264). -/
theorem test_sadd_saturates : sAfter (.sadd { plainT with oa := 1, ob := 2, dst := 3, ty := .s32, sat := true }) [(1, 0x7FFFFFFF), (2, 1)] 3 = 0x7FFFFFFF ∧
    (me (run (.sadd { plainT with oa := 1, ob := 2, dst := 3, ty := .s32, sat := true })
      (held (.sadd { plainT with oa := 1, ob := 2, dst := 3, ty := .s32, sat := true }) [(1, 0x7FFFFFFF), (2, 1)]))).fmt.getLsbD 37 = true := by decide +kernel
/- A 32-bit result is extended by its type (R282). -/
theorem test_ssub_extends : sAfter (.ssub { plainT with oa := 1, ob := 2, dst := 1, ty := .s32 }) [(1, 0), (2, 1)] 1 = 0xFFFFFFFFFFFFFFFF ∧
    sAfter (.ssub { plainT with oa := 1, ob := 2, dst := 1, ty := .z32 }) [(1, 0), (2, 1)] 1 = 0xFFFFFFFF := by decide +kernel
/- The zero divisor and the one overflow (R285). -/
theorem test_sdiv_corners : sAfter (.sdiv { plainT with oa := 1, ob := 2, dst := 3, ty := .z64 }) [(1, 7)] 3 = 0xFFFFFFFFFFFFFFFF ∧
    sAfter (.sdiv { plainT with oa := 1, ob := 2, dst := 3, ty := .s64 }) [(1, 0x8000000000000000), (2, 0xFFFFFFFFFFFFFFFF)] 3 = 0x8000000000000000 := by decide +kernel
theorem test_srem_sign : sAfter (.srem { plainT with oa := 1, ob := 2, dst := 3, ty := .s64 }) [(1, 0xFFFFFFFFFFFFFFF9), (2, 3)] 3 = 0xFFFFFFFFFFFFFFFF := by decide +kernel
/- Shift amounts are taken modulo the width (Table 14-1). -/
theorem test_shift_modulo : sAfter (.sshl { plainT with oa := 1, ob := 2, dst := 3, ty := .b32 }) [(1, 1), (2, 33)] 3 = 2 ∧
    sAfter (.ssar { plainT with oa := 1, ob := 2, dst := 3, ty := .s32 }) [(1, 0x80000000), (2, 31)] 3 = 0xFFFFFFFFFFFFFFFF := by decide +kernel
theorem test_scmp_signed : sAfter (.scmp { plainT with oa := 1, ob := 2, dst := 3, ty := .s64 }) [(1, 0xFFFFFFFFFFFFFFFF), (2, 1)] 3 = 0xFFFFFFFFFFFFFFFF ∧
    sAfter (.scmp { plainT with oa := 1, ob := 2, dst := 3, ty := .z64 }) [(1, 0xFFFFFFFFFFFFFFFF), (2, 1)] 3 = 1 := by decide +kernel
/- SMOVI.hi keeps the low half (R286). -/
theorem test_smovi_hi : sAfter (.smovi { plainI with imm := 2, dst := 8, ty := .s64, hi := true }) [(8, 0x1122334455667788)] 8 = 0x0000000255667788 := by decide +kernel
/- FMT reads 0x10 at dispatch (R289); MTSR of a reserved bit raises ILLOP. -/
theorem test_mfsr_fmt : sAfter (.mfsr { plainX with imm := 2, dst := 5 }) [] 5 = 0x10 := by decide +kernel
theorem test_mtsr_reserved : (me (run (.mtsr { plainX with imm := 2, oa := 1 }) (modAgent (held (.mtsr { plainX with imm := 2, oa := 1 }) [(1, 0x20)])
    (held (.mtsr { plainX with imm := 2, oa := 1 })).cur (fun g => { g with tvec := 0x1000 })))).tcause = 1 := by decide +kernel
/- Table 14-8: the inner test at a clause that ends both loops takes LC1 down and branches back, and on the last pass level 0 is tested. -/
def twoLoops (l1 l0 : W32) : Agent :=
  { blankAgent with pc := 0x50, lc := msetAll [] [(1, l1), (0, l0)], le := msetAll [] [(1, 0x50), (0, 0x50)], ls := msetAll [] [(1, 0x40), (0, 0x28)]
                    clause := some ⟨⟨false, false, 0, 0, 0, 0⟩, [0]⟩ }
theorem test_inner_first : (advance (twoLoops 2 3)).pc = 0x40 ∧ mget (advance (twoLoops 2 3)).lc 0 = 3 ∧ mget (advance (twoLoops 2 3)).lc 1 = 1 := by decide +kernel
theorem test_outer_on_exhaustion : (advance (twoLoops 1 3)).pc = 0x28 ∧ mget (advance (twoLoops 1 3)).lc 0 = 2 ∧ (advance (twoLoops 1 1)).pc = 0x60 := by decide +kernel
/- A CALL leaves the address of the next clause in S63 and goes to h + 8 * TGT1 (R291). -/
theorem test_call : (me (run (.call { plainB with tgt1 := 6 }) (held (.call { plainB with tgt1 := 6 })))).pc = 0x30 ∧
    sAfter (.call { plainB with tgt1 := 6 }) [] 63 = 0x10 := by decide +kernel
/- TRAP 5, S4: TCAUSE holds CODE 5 and SOFT (0x42), TVAL S4 (R381, example of 21). -/
def trapped5 : Agent := me (run (.trap { plainX with imm := 5, oa := 4 })
  (modAgent (held (.trap { plainX with imm := 5, oa := 4 }) [(4, 0xABC)]) (held (.trap { plainX with imm := 5, oa := 4 })).cur (fun g => { g with tvec := 0x1000 })))
theorem test_trap : trapped5.tcause = 0x50042 ∧ trapped5.tval = 0xABC ∧ trapped5.tpcx = 8 ∧ trapped5.pc = 0x1000 ∧ trapped5.tprio = true := by decide +kernel
/- A trap without a handler ends the warp with a fault record (R378). -/
theorem test_no_handler : (run (.brk { plainX with imm := 9 }) (held (.brk { plainX with imm := 9 }))).sched.faults.map (fun r => (r.cause, r.tval.toNat)) = [(0x40, 9)] := by
  decide +kernel
/- TRET outside trap priority raises PRIV (R379). -/
theorem test_tret_priv : (run (.tret plainX) (held (.tret plainX))).sched.faults.map (fun r => r.cause) = [4] := by decide +kernel
/- A vector add acts on every lane, on each 16-bit half by itself (R298): 1.0 + 2.0 = 3.0 in f16 is 0x3C00 + 0x4000 = 0x4200. -/
theorem test_vadd_halves : vAfter (.vadd { plainT with oa := 1, ob := 2, dst := 3, ty := .f16 }) [(32 + 7, 0x3C003C00), (64 + 7, 0x40000000)] 3 7 = 0x42003C00 := by decide +kernel
/- FP32: 1.0 + 2^-24 rounds to the even 1.0 under rn (R265); the default NaN is 0x7FC00000 (R263). -/
theorem test_vadd_ties : vAfter (.vadd { plainT with oa := 1, ob := 2, dst := 3, ty := .f32 }) [(32, 0x3F800000), (64, 0x33800000)] 3 0 = 0x3F800000 := by decide +kernel
theorem test_vmul_nan : vAfter (.vmul { plainT with oa := 1, ob := 2, dst := 3, ty := .f32 }) [(32, 0x7F800000)] 3 0 = 0x7FC00000 := by decide +kernel
/- VFMA rounds once: (1 + 2^-12)^2 - 1 = 2^-11 + 2^-24, exact in FP32. -/
theorem test_vfma_once : vAfter (.vfma { plainT with oa := 1, ob := 1, oc := 2, dst := 3, ty := .f32 }) [(32, 0x3F800800), (64, 0xBF800000)] 3 0 = 0x3A000400 := by decide +kernel
/- VSHUP by 1 gives lane l the value of lane l - 1 and lane 0 the fill; VSCAN adds in lane order (example of 15). -/
theorem test_vshup : vAfter (.vshup { plainT with oc := 3, ob := 1, oa := 1, dst := 1, ty := .b32, sub := 1 }) [(32, 5), (33, 6), (96, 9)] 1 1 = 5 ∧
    vAfter (.vshup { plainT with oc := 3, ob := 1, oa := 1, dst := 1, ty := .b32, sub := 1 }) [(32, 5), (33, 6), (96, 9)] 1 0 = 9 := by decide +kernel
theorem test_vscan : vAfter (.vscan { plainT with oa := 1, dst := 5, ty := .s32 }) [(32, 1), (33, 2), (34, 3)] 5 2 = 6 := by decide +kernel
theorem test_vred : sAfter (.vred { plainT with oa := 0, dst := 6, ob := 2, ty := .z32, ua := true }) [(0, 0xFFFFFFFF)] 6 = 0xFFFFFFFF := by decide +kernel
/- A 32-bit store of a lane lands little-endian in shared memory, and a load returns it (R13, R321). -/
def storeShared : Instr := .st { plainM with data := 1, base := 5, off := 4, space := .shared, ty := .b32, ubase := true, c := ⟨false, 0, 0⟩ }
def oneLane : State :=
  let s := held storeShared [(5, 0x100)]
  let s := modAgent s s.cur (fun g => { g with p := mset g.p 0 1#32, v := mset g.v 32 0x11223344 })
  setBlock s 0 { (block s 0).getD blk0 with shmem := 1 }
theorem test_store_order : ((block (run storeShared oneLane) 0).map (fun k => readBytes k.mem 0x104 4)) = some [0x44, 0x33, 0x22, 0x11] := by decide +kernel
/- The address past the block's 1 KiB raises BOUNDS with the address (R318). -/
theorem test_shared_bounds : ((run storeShared (modAgent oneLane oneLane.cur (fun g => { g with s := mset g.s 5 0x3FD, tvec := 8 }))) |> me |> fun g => (g.tcause, g.tval)) = (5, 0x401) := by
  decide +kernel
/- Table 21-2's BOUNDS is code 6: the same with an aligned address at the end. -/
theorem test_shared_end : ((run storeShared (modAgent oneLane oneLane.cur (fun g => { g with s := mset g.s 5 0x3FC, tvec := 8 }))) |> me |> fun g => (g.tcause, g.tval)) = (6, 0x400) := by
  decide +kernel
/- YCFG Y3 with 0x0000_0000_0100_0400 gives depth 2 at base 0x400 (example of 19); QPUSH then QPOP returns the entry. -/
def sidingState : State :=
  let i : Instr := .ycfg { plainX with imm := 3, oa := 4 }
  let s := held i [(4, 0x01000400)]
  run i (setBlock s 0 { (block s 0).getD blk0 with shmem := 2 })
theorem test_ycfg : (block sidingState 0).map (fun k => ((sidOf k 3).base, (sidOf k 3).dlog)) = some (0x400, 1) := by decide +kernel
/- TFIND of no tag gives 64, else the lowest (R371). -/
theorem test_tfind : sAfter (.tfind { plainX with dst := 5, oa := 4 }) [(4, 0xFF)] 5 = 64 := by decide +kernel
/- WAYARR writes the phase found; with the warp the only signaller the phase moves (R361, R363). -/
theorem test_wayarr : (block (run (.wayarr { plainX with dst := 5 }) (run (.wayreg plainX) (held (.wayarr { plainX with dst := 5 })))) 0).map (fun k => (wpOf k 0).phase) = some 1 := by
  decide +kernel
/- RDTIME of ticks: 250 ns is tick 2 (R384). -/
theorem test_rdtime : (let s := held (.rdtime { plainX with imm := 1, dst := 5 })
    sget (me (run (.rdtime { plainX with imm := 1, dst := 5 }) { s with fab := { s.fab with podNs := 250 } })) 5) = 2 := by decide +kernel
/- CHKPT in a dedicated partition writes 0 (R385). -/
theorem test_chkpt : sAfter (.chkpt { plainX with dst := 5 }) [(5, 77)] 5 = 0 := by decide +kernel
/- KSTAT of an invalid handle writes 0 (R403). -/
theorem test_kstat : sAfter (.kstat { plainA with oa := 5 }) [(5, 77)] 5 = 0 := by decide +kernel
/- MZERO opens a batch, MFENCE closes it, and an empty one is IDLE at once (R423, R430). -/
theorem test_mfence : let i : Instr := .mfence plainM2; let z : Instr := .mzero plainM2
    (me (run i (run z (held i)))).mx.queue = [0] ∧ (me (run i (held i))).mx.batches = [] := by decide +kernel
/- NWIN 8 sets the window (R468). -/
theorem test_nwin : (me (run (.nwin { plainA with sub := 8 }) (held (.nwin { plainA with sub := 8 })))).nwin = 8 := by decide +kernel
/- A post to a queue pair that does not exist raises PERM with the operand (R387). -/
theorem test_post_perm : (run (.xwrite { plainA with oa := 8, ob := 4 }) (held (.xwrite { plainA with oa := 8, ob := 4 }) [(4, 7)])).sched.faults.map
    (fun r => (r.cause, r.tval.toNat)) = [(0x11, 7)] := by decide +kernel

/-! ## Witnesses: for each statement about operations, states and operands that meet its hypotheses. -/

/-- The operation is ready on the agent it finds, and takes effect. -/
def rdy (s : State) (i : Instr) : Bool := (readyAgent s i).isSome
/-- Words of format T to try an operation with. -/
def wordsT : List FmtT :=
  [Ty.s64, .b64, .s32, .f32, .b32, .e4m3, .q4, .f16].flatMap fun ty => [0#2, 1#2].flatMap fun sub => [(false, false, false), (true, true, true), (false, true, false)].flatMap
    fun u => [0#8, 10#8].map fun ob => { plainT with ty, sub, ua := u.1, ub := u.2.1, uc := u.2.2, ob }
/-- Some word of the operation is ready on a state that holds it. -/
def someT (k : FmtT → Instr) (p : FmtT → Bool := fun _ => true) : Bool := wordsT.any (fun f => formOk (k f) && p f && rdy (held (k f)) (k f))

theorem witness_scalar : (scalarOps.all fun p => someT p.1 (fun f => !f.sat)) = true ∧ someT .ssel = true ∧ someT .sdiv = true ∧ someT .srem = true ∧
    (satOps.all fun p => rdy (held (p.1 { plainT with ty := .s64, sat := true })) (p.1 { plainT with ty := .s64, sat := true })) = true ∧
    (immOps.all fun p => [Ty.s64, .b64].any fun ty => rdy (held (p.1 { plainI with ty })) (p.1 { plainI with ty })) = true := by decide +kernel
/-- A guard of P0, false in every lane. -/
def offC : Common := ⟨false, 0, 0⟩
theorem witness_guarded_off : (uniformOps.all fun k => wordsT.any fun f => let g := { f with c := offC }
      formOk (k g) && rdy (held (k g)) (k g) && !uniformOk (held (k g)).cur (me (held (k g))) g.c) = true ∧
    (uniformOpsI.all fun k => [Ty.s64, .b64].any fun ty => let f := { plainI with ty, c := offC }
      rdy (held (k f)) (k f) && !uniformOk (held (k f)).cur (me (held (k f))) offC) = true ∧
    (uniformOpsX.all fun k => [0, 1].any fun imm => let f := { plainX with imm := BitVec.ofNat 16 imm, c := offC }; rdy (held (k f)) (k f)) = true ∧
    rdy (held (.lpset { plainB with c := offC })) (.lpset { plainB with c := offC }) = true := by decide +kernel
theorem witness_special : (identityTable.all fun p => let f := { plainX with imm := BitVec.ofNat 16 p.1 }; rdy (held (.srd f)) (.srd f)) = true ∧
    (identityTable.all fun p => let f := { plainX with imm := BitVec.ofNat 16 (0x8000 + p.1) }; rdy (held (.srd f)) (.srd f)) = true ∧
    rdy (held (.srd { plainX with imm := 0x8000 })) (.srd { plainX with imm := 0x8000 }) = true ∧
    (specialReads.all fun p => rdy (held (.mfsr { plainX with imm := p.1 })) (.mfsr { plainX with imm := p.1 })) = true ∧
    (specialWrites.all fun p => let i : Instr := .mtsr { plainX with imm := p.1 }
      rdy (modAgent (held i) (held i).cur (fun g => { g with tprio := true })) i) = true ∧
    rdy (held (.sfmt { plainX with imm := 1 })) (.sfmt { plainX with imm := 1 }) = true := by decide +kernel
/-- Two regions are open, the inner one in its else part. -/
def inRegion (i : Instr) : State := modAgent (held i) (held i).cur (fun g => { g with recs := [⟨0x10, true, 0x100⟩, ⟨0x10, false, 0x200⟩] })
theorem witness_divergence : rdy (held (.bifOpen plainB)) (.bifOpen plainB) = true ∧ rdy (inRegion (.belse plainB)) (.belse plainB) = true ∧
    rdy (inRegion (.bend plainB)) (.bend plainB) = true := by decide +kernel
theorem witness_branches : ([.bra plainB, .brar plainB, .call plainB, .callr plainB, .ret plainB, .lpset plainB, .lpcnt plainX, .yield plainX, .nop plainX,
    .bra { plainB with c := offC }] : List Instr).all (fun i => rdy (held i) i) = true := by decide +kernel
/- Each case of the loop test: level 1 goes on, level 1 ends and level 0 goes on, both end. -/
theorem witness_loop_test : (mget (twoLoops 2 3).lc 1 ≠ 0 ∧ mget (twoLoops 2 3).lc 1 ≠ 1 ∧ mget (twoLoops 2 3).le 1 = (twoLoops 2 3).pc) ∧
    (mget (twoLoops 1 2).lc 1 = 1 ∧ mget (twoLoops 1 2).lc 0 ≠ 1 ∧ clauseCount (twoLoops 1 2) ≤ (twoLoops 1 2).idx) ∧ mget (twoLoops 1 1).lc 0 = 1 := by decide +kernel
/- EXIT of all lanes; of some, with lanes left; of a stream. -/
theorem witness_exit : rdy (held (.exit plainX)) (.exit plainX) = true ∧ lanes (me (held (.exit plainX))) plainC = List.range 32 ∧
    (let i : Instr := .exit { plainX with c := offC }
     let s := modAgent (held i) (held i).cur (fun g => { g with p := mset g.p 0 1#32 })
     rdy s i = true ∧ (me s).live &&& ~~~ maskOf 32 (lanes (me s) offC) &&& (me s).exm ≠ 0) ∧
    (let s := { State.reset.withFetchWord 64 (((encode (.mfence plainM2)).getD 0).toNat) with stalled := [] }
     isStream s.cur = true ∧ rdy s (.exit plainX) = true) := by decide +kernel
/-- Far pages of this device's HBM at hand on die 0 and for the agent die: 0x100000 at physical 0x2000 and 0 at 0x8000. -/
def farAt (s : State) : State :=
  { s with
    mem := { s.mem with hbm := writeBytes s.mem.hbm 0x2000 [7, 0, 0, 0, 0, 0, 0, 0] }
    xl := { s.xl with cache := [0, 4, 8].flatMap fun die => [(0x100000, 0x2000), (0, 0x8000)].map fun p =>
      { ctx := 65536, die, va := p.1, size := 0x1000, loc := .dev 0, pa := p.2, gpa := p.1, rd := true, w := true, x := true, d := true, grant := false } } }

/-- The agent the operation finds. -/
def rd (s : State) (i : Instr) : Agent := (readyAgent s i).getD blankAgent
theorem rdy_meets {s : State} {i : Instr} (h : rdy s i = true) : Ready s i (rd s i) := by
  unfold rdy at h; unfold Ready rd; cases h' : readyAgent s i <;> simp_all
/-- The current agent changed. -/
def change (s : State) (fn : Agent → Agent) : State := modAgent s s.cur fn
def traps : Agent → Agent := fun g => { g with tprio := true }

/- SPAWN: a shape that fits no core, a misaligned code address, and one that appends. JOIN: misaligned, counting still, done. -/
def spawns : Instr := .spawn { plainT with oa := 4, ob := 2, oc := 6 }
def joins : Instr := .join { plainT with oa := 4 }
theorem witness_tasks : (let s := held spawns [(4, 0x1001)]
    rdy s spawns = true ∧ shapeFits 0x40000 = false ∧ shapeFits (sget (rd s spawns) 5) = true ∧ (sget (rd s spawns) 4).extractLsb' 0 3 ≠ 0) ∧
    (let s := held spawns [(4, 0x1000)]; let g := rd s spawns
     rdy s spawns = true ∧ (sget g 4).extractLsb' 0 3 = 0 ∧ sget g 6 = 0 ∧ (ctxOf s g.part g.ctx).isSome = true ∧ relWait s s.cur g 4 = false ∧
       queueLen s g.part g.die g.prio + 32 ≤ 65536) ∧
    ([1, 0x100000, 0x100008].map (fun v => let s := farAt (held joins [(4, v)]); let g := rd s joins
      rdy s joins && uniformOk s.cur g plainC && (ioFind s (.agent s.cur) 0).isNone && !acqWait g && !overlaps s s.cur g [v.toNat / 8] &&
        (ctxOf s g.part g.ctx).all (fun c => homeOf s c v.toNat ≠ .at_ (.host 0)) &&
        ((ctxOf s g.part g.ctx).bind (fun c => (hbmAt s c (cacheOf s.cur) v.toNat .rd).bind (fun pa => cleanNum s pa 8))) =
          some (if v = 0x100000 then 7 else 0)) = [true, true, true]) := by decide +kernel

/-- A result still out on V1. -/
def outP : Pend := ⟨1, true, [⟨0, 1⟩], 0, 1, ⟨[], [], 0, none⟩⟩
theorem witness_trap_taken : quiet { blankAgent with tvec := 8 } = true ∧ ({ blankAgent with tvec := 8 } : Agent).tprio = false ∧
    quiet { blankAgent with tvec := 8, tprio := true, resumed := true } = true ∧
    quiet { blankAgent with pend := [outP] } = false ∧ quiet blankAgent = true ∧ blankAgent.tvec = 0 ∧ quiet { blankAgent with tprio := true } = true := by decide +kernel
theorem witness_causes : ([.trap plainX, .brk plainX, .trapVec { plainX with imm := 0x8000 }] : List Instr).all (fun i => rdy (held i) i && uniformOk (held i).cur (rd (held i) i) plainC) = true ∧
    rdy (held (.trapVec { plainX with imm := 0x8000, oa := 3 }) [(3, 4)]) (.trapVec { plainX with imm := 0x8000, oa := 3 }) = true := by decide +kernel
/- TRET with a region of the handler open; at the word, the header and the written address; with .next inside and at the end; outside. -/
theorem witness_tret : (let i : Instr := .tret plainX; let at_ (fn : Agent → Agent) := change (held i) (fun g => fn (traps g))
      rdy (at_ (fun g => { g with recs := [⟨0, false, 0⟩] })) i = true ∧
      ([(fun g => { g with posIdx := some 2, posCnt := 2 }), (fun g => { g with posIdx := none }), (fun g => { g with written := true, tpcx := 0x40 })] : List (Agent → Agent)).all
        (fun fn => rdy (at_ fn) i && (rd (at_ fn) i).recs.length = (rd (at_ fn) i).depthAt && !pastLast (rd (at_ fn) i) false) = true) ∧
    (let i : Instr := .tret { plainX with imm := 1 }; let at_ (n : Nat) := change (held i) (fun g => { traps g with posIdx := some n, posCnt := 2 })
      rdy (at_ 1) i = true ∧ pastLast (rd (at_ 1) i) true = false ∧ rdy (at_ 2) i = true ∧ pastLast (rd (at_ 2) i) true = true) ∧
    (let i : Instr := .tret plainX; (me (held i)).tprio = false ∧ formOk i = true ∧ (me (held i)).need = 0) := by decide +kernel
/-- Partition 1 time-shared, function 1 committed at tick t. -/
def shared (s : State) (t : Nat) : State :=
  { s with part := { s.part with parts := s.part.parts.map (fun p => { p with nten := 1 }) }
           ck := [{ freshCk s 1 0 [1] with ckno := 4, images := [(1, { blankSnap t with ckno := 3 })] }] }
theorem witness_chkpt : let i : Instr := .chkpt plainX; let later (t : Nat) := change (shared (held i) t) (fun g => { g with chkptAt := some 5 })
    timeShared (held i) 1 = false ∧ rdy (held i) i = true ∧ timeShared (shared (held i) 0) 1 = true ∧ rdy (shared (held i) 0) i = true ∧
    rdy (later 6) i = true ∧ (later 6).ck.any (fun c => c.part = 1 && 5 < commTickOf c 1) = true ∧
    rdy (later 5) i = true ∧ (later 5).ck.any (fun c => !decide (5 < commTickOf c 1)) = true := by decide +kernel
theorem witness_clocks_watches : [0, 1, 2].all (fun n => rdy (held (.rdtime { plainX with imm := BitVec.ofNat 16 n })) (.rdtime { plainX with imm := BitVec.ofNat 16 n })) = true ∧
    [0, 4].all (fun v => rdy (change (held (.watch { plainX with imm := 0x34, oa := 4 }) [(4, v)]) traps) (.watch { plainX with imm := 0x34, oa := 4 })) = true ∧
    rdy (change (held (.unwatch plainX)) traps) (.unwatch plainX) = true ∧ rdy (change (held (.halt plainX)) traps) (.halt plainX) = true := by decide +kernel

/-! Vector operations. -/

def satT (k : FmtT → Instr) : Bool := someT (fun f => k { f with sat := true }) (fun f => Ty.isInt f.ty)
theorem witness_vector : (vectorBitOps.all fun p => someT p.1) = true ∧ someT .vsel = true ∧ rdy (held (.vmovi plainI)) (.vmovi plainI) = true ∧
    (vectorIntOps.all fun p => someT p.1 (fun f => Ty.isInt f.ty && !f.sat)) = true ∧ (vectorSatOps.all fun p => satT p.1) = true := by decide +kernel
theorem witness_vector_float : (vectorRoundOps.all fun p => someT p.1 (fun f => Ty.isFloat f.ty)) = true ∧
    (vectorExactOps.all fun p => someT p.1 (fun f => Ty.isFloat f.ty)) = true ∧ someT .vaddmin (fun f => Ty.isFloat f.ty) = true ∧
    someT .vaddmax (fun f => Ty.isFloat f.ty) = true := by decide +kernel
theorem witness_compare : someT .vcmp (fun f => Ty.bits f.ty = 64) = true ∧ someT .vcmp (fun f => Ty.isFloat f.ty) = true ∧
    someT .vcmp (fun f => f.ty = .s32) = true ∧ ([.pand, .por, .pxor, .pnot, .vv2p, .vp2v] : List (FmtT → Instr)).all (fun k => someT k) = true := by decide +kernel
theorem witness_convert : someT .vcvt (fun f => (Ty.ofCode f.ob.toNat).isSome) = true ∧
    ([.vf8pk, .vf8upk, .vqpack, .vqunpk] : List (FmtT → Instr)).all (fun k => someT k) = true := by decide +kernel
theorem witness_long : someT .vdiv = true ∧ someT .vsqrt = true ∧ (fixedResults.all fun p => someT p.1 (fun f => f.ty = .f32 && (p.2 0).isSome || f.ty = .f32 && (p.2 0x7F800000).isSome)) = true ∧
    lanes (me (held (.vrcp plainT))) plainC ≠ [] := by decide +kernel
theorem witness_scans : ([.vscan, .vred] : List (FmtT → Instr)).all (fun k => someT k (fun f => !Ty.isFloat f.ty && !f.sat) &&
    satT k && someT k (fun f => Ty.isFloat f.ty)) = true := by decide +kernel
theorem witness_cross_lane : ([.qxch, .qbrd, .vshup, .vshdn, .vshfl, .vbcast] : List (FmtT → Instr)).all (fun k => someT k) = true ∧
    [0, 1, 2].all (fun m => let i : Instr := .vvote { plainT with sub := BitVec.ofNat 2 m }; rdy (held i) i) = true ∧
    [Ty.b64, .f32, .b32].all (fun ty => let i : Instr := .prand { plainT with ty, ua := true, ub := true, uc := true }; rdy (held i) i) = true := by decide +kernel

/-! Memory. -/

/-- The accesses of a memory operation are all performed here. -/
def here (s : State) (i : FmtM → Instr) (f : FmtM) (k : MKind) : Option (List LaneAcc) :=
  if rdy s (i f) && !(f.ord = .rel || f.ord = .acqrel) then (localAccs s (rd s (i f)) f k (lanes (rd s (i f)) f.c)).filter (fun ls =>
    watchHit (rd s (i f)) f k (Ty.bytes f.ty) ls = none && memWaits (setAgent s s.cur (rd s (i f))) s.cur (rd s (i f)) f k ls = false) else none
theorem here_meets {s : State} {i : FmtM → Instr} {f : FmtM} {k : MKind} {ls : List LaneAcc} (h : here s i f k = some ls) :
    Ready s (i f) (rd s (i f)) ∧ AccessesHere s (rd s (i f)) f k ls := by
  unfold here at h
  split at h
  · rename_i c
    simp only [Bool.and_eq_true, Bool.not_eq_true', Bool.or_eq_false_iff, decide_eq_false_iff_not] at c
    obtain ⟨h1, h2⟩ := Option.filter_eq_some_iff.mp h
    simp only [Bool.and_eq_true, decide_eq_true_eq] at h2
    exact ⟨rdy_meets c.1, h1, fun o => absurd o (by simpa using c.2), h2.1, h2.2⟩
  · cases h
/-- Lane 0 alone, over 1 KiB of shared memory, the base in S5. -/
def oneLaneM (k : FmtM → Instr) (f : FmtM) (base : W64) : State :=
  let s := held (k f) [(5, base), (6, 0)]
  let s := modAgent s s.cur (fun g => { g with p := mset g.p 0 1#32 })
  setBlock s 0 { (block s 0).getD blk0 with shmem := 1 }
def fShared : FmtM := { plainM with base := 5, space := .shared, ty := .b32, ubase := true, c := ⟨false, 0, 0⟩ }
def fFar : FmtM := { fShared with base := 6, space := .far }
/-- Near or far, by the operation; atomics take their address from another place. -/
def wordsM : List FmtM := [fShared, { fShared with ty := .z32 }, { fShared with space := .far }, { fShared with space := .far, ty := .z32 }, { fShared with space := .yard },
  { fShared with space := .stack, ubase := false }]
def hereM (k : FmtM → Instr) (m : MKind) : Bool := wordsM.any fun f => ([0x100, 0x100000] : List W64).any fun b =>
  ((here (farAt (oneLaneM k f b)) k f m).any (fun ls => ls.length = 1))
theorem witness_loads_stores : (loadOps.all fun k => hereM k .load) = true ∧ (storeOps.all fun k => hereM k .store) = true := by decide +kernel
theorem witness_atomics : (atomicOps.all fun p => hereM p.1 p.2) = true := by decide +kernel
/- Each near space at its end, and a misaligned access. -/
def meets (k : FmtM → Instr) (m : MKind) (f : FmtM) (size : Nat) (base : W64) : Bool :=
  let s := oneLaneM k f base
  let addr (l : Nat) : Nat := laneAddr (rd s (k f)) f (m ≠ .load && m ≠ .store) l
  rdy s (k f) && ((lanes (rd s (k f)) f.c).find? (fun l => addr l % Ty.bytes f.ty ≠ 0 || size < addr l + Ty.bytes f.ty)).isSome
theorem witness_near_faults : ((([(.ld, .load), (.st, .store)] ++ atomicOps.take 8 : List ((FmtM → Instr) × MKind))).all fun p =>
    [Ty.b32, .z32].any fun ty => [0x400, 0x401].all fun b => meets p.1 p.2 { fShared with ty } 1024 b) = true ∧
    meets .ld .load { fShared with space := .stack, off := 0x7FFF, base := 5 } 0xF000 0xEFFE = true ∧
    meets .st .store { fShared with space := .yard } (4194304 * (clustersOf (held (.st fShared)) 1 0).length) 0x20000000 = true := by decide +kernel

/-! Synchronization. -/

/-- The warp's place taken by the stream of cluster 0. -/
def asStream (s : State) : State := { s with agents := [(.stream 0 0, me s)], cur := .stream 0 0 }
/-- Waypoint 0 and siding 0 of block 0 set. -/
def withW (s : State) (w : Wp) : State := setBlock s 0 { (block s 0).getD blk0 with wps := [(0, w)] }
def withY (s : State) (y : Siding) : State := setBlock s 0 { (block s 0).getD blk0 with sids := [(0, y)] }
/-- The operation acts on block 0. -/
def acts (s : State) (i : Instr) : Bool := rdy s i && uniformOk s.cur (rd s i) plainC &&
  (if isStream s.cur then 0 ≤ bptOf s (rd s i) && (s.blocks.find? (fun e => e.2.team = (rd s i).team && e.2.blockNo = 0)).any (fun e => e.1 = 0) else (rd s i).blk = 0) &&
  (block s 0).isSome
theorem witness_waypoint_phase : let w : Wp := ⟨7, 1, 1, [], []⟩; w.sigs ≠ 0 ∧ w.arr &&& w.sigs = w.sigs ∧ ({ w with arr := 0 } : Wp).arr &&& w.sigs ≠ w.sigs ∧
    wpDone w 6 = true ∧ wpDone w 7 = false ∧ wpDone w 0x80000007 = true ∧ wpDone w 0x80000006 = false := by decide +kernel
theorem witness_waypoints : ([.wayreg plainX, .wayregNeed { plainX with imm := 0x240, oa := 4 }, .waydrop plainX, .waydropReset { plainX with imm := 0x200 }, .wayarr plainX,
      .waywait plainX, .waywait { plainX with imm := 0x200 }, .waytest plainX, .waytest { plainX with imm := 0x200 }] : List Instr).all
      (fun i => acts (held i) i && acts (asStream (held i)) i) = true ∧
    ([⟨0, 1, 0, [], []⟩, ⟨0, 1, 1, [], []⟩] : List Wp).all (fun w => acts (withW (held (.wayarr plainX)) w) (.wayarr plainX)) = true ∧
    acts (withW (held (.waywait plainX)) ⟨1, 1, 0, [], []⟩) (.waywait plainX) = true := by decide +kernel
/- Toward the east: no mark, a mark without a block, a mark with one. -/
def eastward : Instr := .wayarrNeighbour { plainX with imm := 0xC0, oa := 4 }
def marked (s : State) : State := { s with blocks := s.blocks.map (fun e => (e.1, { e.2 with nbr := 4 })) }
def two (s : State) : State := { marked s with blocks := (marked s).blocks ++ (marked s).blocks.map (fun e => (1, { e.2 with core := ⟨0, 1, 0⟩ })) }
theorem witness_neighbour : let s := held eastward
    acts s eastward = true ∧ acts (marked s) eastward = true ∧ acts (two s) eastward = true ∧ nbrOpp 3 = 4 ∧
    (block s 0).map (nbrMarked · 3) = some false ∧ (block (marked s) 0).map (fun k => (nbrMarked k 3, nbrBlock (marked s) k 3)) = some (true, none) ∧
    (block (two s) 0).map (fun k => nbrBlock (two s) k 3) = some (some 1) ∧ (block (two s) 1).map Block.halted = some false ∧ relWait s s.cur (me s) 2 = false := by decide +kernel
/- A siding not configured, empty, with an entry, full. -/
theorem witness_sidings : ([.ycfg { plainX with oa := 4 }, .qlen plainX, .qpush plainX, .qpush { plainX with imm := 0x100 }, .qpop plainX, .qpop { plainX with imm := 0x100 }] : List Instr).all
      (fun i => acts (held i) i && ([⟨0, 1, 0, 0, [], []⟩, ⟨0, 1, 0, 1, [], []⟩, ⟨0, 1, 1, 2, [], []⟩] : List Siding).all (fun y => acts (withY (held i) y) i)) = true ∧
    othersFirst [] (held (.qlen plainX)).cur = false := by decide +kernel
def fenced : Instr := .fence { plainX with imm := 0xC000 }
theorem witness_fences : ([fenced, .waitc { plainX with imm := 0x1000 }, .twait plainX, .tfind { plainX with imm := 1 }, .tclr plainX] : List Instr).all
    (fun i => acts (held i) i && acts (change (held i) (fun g => { g with tags := 5, fabErr := some 9 })) i) = true := by decide +kernel

/-! Path claims: a descriptor of 16 bytes from shared address 0 to shared address 64 in S4 to S6. -/

def withSlots (s : State) (l : List (ClaimId × Slot)) : State :=
  let s := { s with eng := { s.eng with slots := l } }
  setBlock s 0 { (block s 0).getD blk0 with shmem := 1 }
def descS : List (Nat × W64) := [(4, 0), (5, 64), (6, 0x1200010), (7, 0x20010)]
def heldC (i : Instr) (l : List (ClaimId × Slot) := []) (ss : List (Nat × W64) := descS) : State :=
  change (withSlots (held i ss) l) (fun g => { g with k := mset g.k 0 0x80, nrank := 1 })
/-- A claim of the current agent on that descriptor. -/
def own (i : Instr) (w : CWork) (st : CState) : Claim := { newClaim (held i).cur (me (held i)) w (descS.map Prod.snd) with st, nrank := 1 }
def id0 : ClaimId := ⟨0, 0, 0⟩
def slot0 (c : Claim) : List (ClaimId × Slot) := [(id0, ⟨0, some c⟩)]
/-- Seated, as a Bool. -/
def seat (s : State) (id : ClaimId) (c : Claim) : Bool := (ctxByKey s c.ctx).isSome && (nextToPin c.pins (claimSegs c)).isNone && !c.denied && routeWants s c = [] &&
  !s.fab.resvQ.any (fun q => q.1 = id) && (claimResvs s id).all (fun r => r.granted)
theorem seat_meets {s : State} {id : ClaimId} {c : Claim} (h : seat s id c = true) : Seated s id c := by
  simp only [seat, Bool.and_eq_true, Bool.not_eq_true', decide_eq_true_eq, Option.isNone_iff_eq_none] at h
  exact ⟨h.1.1.1.1.1, h.1.1.1.1.2, h.1.1.1.2, h.1.1.2, h.1.2, h.2⟩
def may (s : State) (g : Agent) (c : Claim) (n : Nat) : Bool := !flowExport s c && orderedOk s s.cur g (allLocal s c) && outcGet g n < 1023
def wordA : FmtA := { plainA with oa := 4 }
/-- Value of a descriptor check. -/
def okC {α : Type} (e : Except (Cause × Nat) α) (p : α → Bool) : Bool := match e with
  | .ok c => p c
  | .error _ => false
def full (c : Claim) : List (ClaimId × Slot) := (List.range 48).map (fun n => (⟨0, 0, n⟩, ⟨1, some c⟩))
theorem witness_claims : ([(.claim wordA, .plain, mkPlain .plain), (.halo wordA, .halo, mkHalo)] :
      List (Instr × CWork × (FmtA → State → AgentId → Agent → Except (Cause × Nat) Claim))).all (fun p =>
    let s := heldC p.1
    let bad := heldC p.1 [] []
    let fl := heldC p.1 (full (own p.1 p.2.1 .ready))
    rdy s p.1 && (handleOf s s.cur (rd s p.1) 0).isNone && okC (p.2.2 wordA s s.cur (rd s p.1)) (fun c => freeSlotOf s (rd s p.1) true = some id0 && seat s id0 c) &&
    rdy bad p.1 && !okC (p.2.2 wordA bad bad.cur (rd bad p.1)) (fun _ => true) &&
    rdy fl p.1 && (handleOf fl fl.cur (rd fl p.1) 0).isNone && (freeSlotOf fl (rd fl p.1) true).isNone &&
    ([.walking, .faulted, .ready] : List CState).all (fun st => let s := heldC p.1 (slot0 (own p.1 p.2.1 st))
      rdy s p.1 && handleOf s s.cur (rd s p.1) 0 = some (id0, own p.1 p.2.1 st) && seat s id0 (own p.1 p.2.1 st))) = true := by decide +kernel
def flowS : List (Nat × W64) := [(4, 16 <<< 42)]
theorem witness_flows : ([(.flow wordA, .plain), (.hflow plainA, .halo)] : List (Instr × CWork)).all (fun p =>
    rdy (heldC p.1) p.1 && (handleOf (heldC p.1) (heldC p.1).cur (rd (heldC p.1) p.1) 0).isNone &&
    ([.ready, .flowing] : List CState).all (fun st => let s := heldC p.1 (slot0 (own p.1 p.2 st)) flowS; let g := rd s p.1; let c := own p.1 p.2 st
      rdy s p.1 && handleOf s s.cur g 0 = some (id0, c) && c.work = p.2 && may s g c 1 && (p.2 = .halo || flowWordOk c (sget g 4).toNat) && !flowWordOk c 0)) = true := by
  decide +kernel
/- A parked claim flows; a claim in another state, or of the other kind, traps. -/
theorem witness_flow_states : ([(.flow wordA, .plain), (.hflow plainA, .halo)] : List (Instr × CWork)).all (fun p =>
    ([.parked, .walking, .faulted, .revoked] : List CState).all (fun st => ([.plain, .halo] : List CWork).all (fun w =>
      let c := own p.1 w st; let s := heldC p.1 (slot0 c) flowS
      rdy s p.1 && handleOf s s.cur (rd s p.1) 0 = some (id0, c) && seat s id0 c && may s (rd s p.1) c 1))) = true := by decide +kernel
/-- A gather of one element of far address 0x100000, its page pinned. -/
def gathered : Claim := { own (.gather wordA) .gather .walking with
  desc := [0x100000, 0, 64, 0x124001], idxs := [0x100000], esz := 4, pins := [⟨0, 0x100000, 0x1000, .dev 0, 0x2000, 0x100000⟩] }
theorem witness_transient : (let i : Instr := .copy wordA; let s := heldC i; let g := rd s i
      rdy s i && okC (mkPlain .copy wordA s s.cur g) (fun c => (transientOf s s.cur .copy).isNone && (freeSlotOf s g false).any (fun id => seat s id c && may s g c 1))) = true ∧
    (let i : Instr := .copy wordA; let s := heldC i [] []
      rdy s i && (transientOf s s.cur .copy).isNone && !okC (mkPlain .copy wordA s s.cur (rd s i)) (fun _ => true)) = true ∧
    (let i : Instr := .copy wordA; let c := own i .copy .walking; let s := heldC i (slot0 c)
      rdy s i && transientOf s s.cur .copy = some (id0, c) && seat s id0 c && may s (rd s i) c 1) = true ∧
    (let i : Instr := .gather wordA; let s := heldC i (slot0 gathered)
      rdy s i && transientOf s s.cur .gather = some (id0, gathered) && seat s id0 gathered && may s (rd s i) gathered 3) = true ∧
    (let i : Instr := .coll wordA; let s := heldC i; let g := rd s i
      rdy s i && okC (mkColl wordA s s.cur g) (fun c => c.any (fun c => (transientOf s s.cur .coll).isNone && (freeSlotOf s g false).any (fun id => seat s id c && may s g c 4)))) = true ∧
    (let s := heldC (.gather wordA) [] []; let g := rd s (.gather wordA)
      rdy s (.gather wordA) && (transientOf s s.cur .gather).isNone && !okC (mkGather wordA s s.cur g) (fun _ => true)) = true ∧
    (let s := heldC (.coll wordA) [] [(6, 0xFFFFFFFFFFFFFFFF)]; let g := rd s (.coll wordA)
      rdy s (.coll wordA) && (transientOf s s.cur .coll).isNone && !okC (mkColl wordA s s.cur g) (fun _ => true)) = true := by
  decide +kernel
theorem witness_handles : ([.reclaim plainA, .unclaim plainA, .kstat plainA] : List Instr).all (fun i => rdy (heldC i) i &&
    (handleOf (heldC i) (heldC i).cur (rd (heldC i) i) 0).isNone && ([.ready, .flowing, .parked, .faulted, .walking, .revoked] : List CState).all (fun st =>
      let c := own i .plain st; let s := heldC i (slot0 c)
      rdy s i && handleOf s s.cur (rd s i) 0 = some (id0, c) && !c.pend && seat s id0 c)) = true := by decide +kernel

/-! The matrix engine. -/

def fMma : FmtC := { plainM2 with ty := .f16 }
/-- A stream that holds the word, with a feeder in slot 0 of its team's block, and batch 0 as listed. -/
def streamWith (i : Instr) (bs : List (Nat × Batch)) : State :=
  let s := State.reset.withFetchWord 64 ((encode i).getD 0).toNat
  let s := modAgent s s.cur (fun g => { g with mx := { g.mx with batches := bs } })
  { s with agents := s.agents ++ [(.warp ⟨0, 0, 0⟩ 0, { blankAgent with live := 1, alloc := 256, part := 1, fn := 1 })] }
/-- FeedersAre, as a Bool. -/
def fed (s : State) (g : Agent) (op : Nat) (f : FmtC) (ws : List AgentId) : Bool :=
  f.sub.toNat ≤ bptOf s g && (feedersOf op f).length = ws.length && ((feedersOf op f).zip ws).all (fun x => match feeder s g f.sub.toNat x.1.1 with
    | some (w, h) => w = x.2 && x.1.2.1 + x.1.2.2 ≤ min h.alloc 256
    | none => false)
def wordC (op : Nat) : FmtC := if op = 0x240 ∨ op = 0x241 then fMma else plainM2
theorem witness_matrix : matrixOps.all (fun p => let i := p.1 (wordC p.2)
    [[], [(0, ⟨true, [⟨0x242, plainM2, 0⟩], [], []⟩)], [(0, ⟨false, List.replicate 32 ⟨0x242, plainM2, 0⟩, [], []⟩)]].all (fun bs =>
      let s := streamWith i bs; let g := rd s i
      rdy s i && uniformOk s.cur g plainC && (feedersOf p.2 (wordC p.2) = [] ||
        fed (setAgent s s.cur g) g p.2 (wordC p.2) ((feedersOf p.2 (wordC p.2)).map (fun _ => .warp ⟨0, 0, 0⟩ 0)) && outcGet blankAgent 2 < 1023))) = true := by decide +kernel
theorem witness_mwait : [[], [(0, ⟨false, [⟨0x242, plainM2, 0⟩], [], []⟩)], [(0, ⟨false, [], [], []⟩)], [(0, (⟨true, [⟨0x242, plainM2, 0⟩], [], []⟩ : Batch))]].all (fun bs =>
    rdy (streamWith (.mwait plainM2) bs) (.mwait plainM2) && rdy (streamWith (.mfence plainM2) bs) (.mfence plainM2)) = true := by decide +kernel
/-- The stream of cluster 0 runs one operation. -/
def running (o : MOp) : State := modAgent (streamWith (.mwait plainM2) [(0, ⟨true, [o], [], []⟩)]) (.stream 0 0) (fun g => { g with mx := { g.mx with queue := [0], running := true } })
theorem witness_matrix_steps : [0x240, 0x241, 0x242, 0x243, 0x244, 0x245].all (fun op => (agent (running ⟨op, wordC op, 0⟩) (streamAt (running ⟨op, wordC op, 0⟩) 0 0)).any (fun g =>
    g.mx.running && g.mx.queue = [0] && (batchOf g.mx 0).ops = [⟨op, wordC op, 0⟩])) = true := by decide +kernel
/- MDRAIN writes the registers of the warp in its slot. -/
theorem witness_drain : (let o : MOp := ⟨0x244, plainM2, 0⟩; let s := running o; (agent s (streamAt s 0 0)).any (fun g =>
    !drainWaits s g && (let w := opAgent s g o.f o.f.aslot.toNat; w.1 = .warp ⟨0, 0, 0⟩ 0 && !isStream w.1 && mwf w.2.v && agent s w.1 = some w.2))) = true := by decide +kernel
/- MZERO clears its tile; a step leaves the others (R427). -/
theorem test_mzero_step : (let s := modAgent (running ⟨0x242, plainM2, 0⟩) (.stream 0 0) (fun g => { g with mx := { g.mx with tiles := [(5, 7), (16384, 9)] } })
    (agent (run (.matrixStepComplete 0 0) s) (.stream 0 0)).map (fun g => (tget g.mx 0 0 5, tget g.mx 1 0 0))) = some (0, 9) := by decide +kernel
/-- A closed instance that waits for a token of its die's ring. -/
def ready1 (ts : List Token) (pend : List (Nat × Nat × Nat)) : State :=
  let s := modAgent (running ⟨0x242, plainM2, 0⟩) (.stream 0 0) (fun g => { g with mx := { g.mx with running := false } })
  { s with part := { s.part with tokens := ts, tokPend := pend } }
theorem witness_tokens : (let s := ready1 [⟨1, 0, 0, false⟩] [];
      (agent s (streamAt s 0 0)).isSome ∧ instanceReady s 0 0 = true ∧ changePending s 1 0 = false ∧ s.part.tokens.any (fun t => t.part = 1 && t.die = 0 && t.at_ = 0 && !t.held) = true) ∧
    (let s := ready1 [⟨1, 0, 31, false⟩] [];
      (clustersOf s 1 0).contains 0 = true ∧ s.part.tokens.any (fun t => t.part = 1 && t.die = 0 && !t.held && ringNext (clustersOf s 1 0) t.at_ = 0 && !tokenUseful s 1 0 t.at_) = true) ∧
    (let s := ready1 [] [(1, 0, 2)];
      s.part.tokPend.find? (tokKey 1 0) = some (1, 0, 2) ∧ enginesRun s 1 0 = false) := by decide +kernel

/-! Populations. -/

/-- Object 0 of context 0 of partition 1. -/
def withPop (s : State) (o : PopObj) : State := { s with pop := [((65536, 0), o)] }
/-- Room for four, target 2; lane 0, or lanes 0 and 1, of the warp registered. -/
def pop0 (n : Nat) : PopObj := { popZero with v := true, cap := 4, target := 2, slots := (List.range n).map (fun l => (l, .warp ⟨0, 0, 0⟩ 0, l, true)) }
def lane0C : Common := ⟨false, 0, 0⟩
def p0 : Agent → Agent := fun g => { g with p := mset g.p 0 1#32 }
theorem witness_population : (([0x10, 0x100004, 0x300004] : List W64).all fun w => let i : Instr := .pinit wordA
      rdy (held i [(4, w)]) i && uniformOk (held i).cur (rd (held i) i) plainC) = true ∧
    pinitBad 0x200004 popZero = false ∧ pinitBad 0x300000000004 popZero = true ∧
    ([.pjoin plainA, .pleave plainA, .pjoin { plainA with c := lane0C }, .pleave { plainA with c := lane0C }, .pstat plainA, .pstat { plainA with sub := 16 }, .plin plainA] : List Instr).all
      (fun i => ([popZero, pop0 0, pop0 1] : List PopObj).all (fun o => rdy (withPop (held i) o) i && rdy (change (withPop (held i) o) p0) i)) = true := by decide +kernel
/- RESAMPLE: no object; a result in its window; a member lane outside; an offset of 1.0; no member; the arrival; already arrived. -/
theorem witness_resample : (let i : Instr := .resample { plainA with oa := 1, ob := 2 }; let s (o : PopObj) := withPop (held i) o
      rdy (s popZero) i = true ∧ windowReg (rd (s (pop0 1)) i) = none ∧ regLanes (pop0 0) (held i).cur = [] ∧ rdy (s (pop0 0)) i = true ∧
      (rdy (s (pop0 1)) i = true ∧ (regLanes (pop0 1) (held i).cur).filter (fun l => !(lanes (rd (s (pop0 1)) i) plainC).contains l) = [] ∧ offOk 0 = true ∧
        quiet (rd (s (pop0 1)) i) = true ∧ (settleAll (rd (s (pop0 1)) i)).poison = none) ∧ offOk 0x3F800000 = false ∧
      rdy (change (s (pop0 1)) (fun g => { g with arrived := true })) i = true) ∧
    (let i : Instr := .resample { plainA with oa := 1, ob := 2, c := lane0C }; let s := change (withPop (held i) (pop0 2)) p0
      rdy s i = true ∧ (regLanes (pop0 2) s.cur).filter (fun l => !(lanes (rd s i) lane0C).contains l) = [1]) ∧
    (let i : Instr := .resample { plainA with oa := 1, ob := 2 }
     let s := change (withPop (held i) (pop0 1)) (fun g => { g with pend := [⟨1, false, [⟨0, 9⟩], 1, 0, ⟨[], [], 0, none⟩⟩] });
      rdy s i = true ∧ windowReg (rd s i) = some 9) := by decide +kernel
theorem witness_commit : (let o := { pop0 2 with arrivals := [⟨.warp ⟨0, 0, 0⟩ 0, false, 0, [(0, 0), (1, 3)], 0, 3, [], []⟩] }
    popReady o = true ∧ o.target ≤ o.slots.length ∧ (o.slots.map Prod.fst).Nodup ∧
      (o.slots.map (fun e => (e.2.1, e.2.2.1))).Nodup ∧ (∀ e ∈ o.slots, e.2.2.1 < 32) ∧ (o.arrivals.map Arrival.agent).Nodup ∧ (∀ r ∈ o.arrivals, r.pdst < 7) ∧
      (let s := withPop (held (.resample { plainA with oa := 1, ob := 2 })) o; let s1 := progress (commitPop s (ckey 1 0, 0) o)
       popAt s (ckey 1 0, 0) = o ∧ (∀ e ∈ s.agents, mwf e.2.v = true ∧ mwf e.2.p = true ∧ mwf e.2.lin = true) ∧
       (popAt s1 (ckey 1 0, 0)).copy.any (fun c => c.clones = [(1, 0)] && (copyPop s1 (ckey 1 0, 0) c).2 && (carries [.warp ⟨0, 0, 0⟩ 0] s1).2.isSome) = true)) ∧
    ([1, 3] : List Nat) ≠ [] := by decide +kernel
/- Weights 1 and 3 and a target of 4: one and three offspring (R446). -/
theorem test_offspring : offspring 4 0 [1, 3] = [1, 3] := by decide +kernel

/-! Notices. -/

/-- A notice of rank 0 issued at tick 8, open till tick 16. -/
def note0 : Notice := ⟨0, 8, 8, 5, 2, 77, [], 1, true⟩
/-- Group 1 of the current agent's team, at tick t. -/
def grp0 (ns : List Notice) : NGroup := ⟨1, 65536, 1, 3, [⟨0, 0, 1, 0, 0, 0⟩], ns, 0, 0, 0⟩
def notedAt (s : State) (t : Nat) (ns : List Notice) : State := { s with ntc := ⟨[grp0 ns], 0⟩, fab := { s.fab with podNs := 125 * t } }
/-- The group's word, and the ticket of note0. -/
def dNotice : W64 := 1
def ticket0 : W64 := ticketWord 1 0 8
/-- The agent belongs to no block of the group. -/
def stranger : Agent → Agent := fun g => { g with gteam := 9 }
def sentAs (x : SendSt) : Agent → Agent := fun g => { g with mpSt := x }
theorem witness_nwin : rdy (held (.nwin { plainA with sub := 8 })) (.nwin { plainA with sub := 8 }) = true := by decide +kernel
theorem witness_notice : let i : Instr := .notice { plainA with oa := 4, oc := 8 }; let s (d : W64) := notedAt (held i [(4, d)]) 8 []
    (rdy (s 2) i = true ∧ groupOf (s 2) 65536 2 = none) ∧ (rdy (s 0x20001) i = true ∧ (0x20001 : W64).extractLsb' 17 15 ≠ 0) ∧
    (rdy (s dNotice) i = true ∧ groupOf (s dNotice) 65536 1 = some (grp0 []) ∧ agentRank (s dNotice) (grp0 []) (rd (s dNotice) i) = some 0 ∧
      postedBy (s dNotice) (grp0 []) 0 < 16 ∧ groupExport (s dNotice) (grp0 []) 1 1 = false ∧ mpFull (s dNotice) = false ∧ relWait (s dNotice) (s dNotice).cur (rd (s dNotice) i) 5 = false) ∧
    rdy (change (s dNotice) (sentAs (.injected 9))) i = true ∧ rdy (change (s dNotice) (sentAs .unreachable)) i = true ∧
    (rdy (change (s dNotice) stranger) i = true ∧ agentRank (s dNotice) (grp0 []) (rd (change (s dNotice) stranger) i) = none) := by decide +kernel
theorem witness_object : let i : Instr := .object wordA; let s (t : Nat) (ns : List Notice) := notedAt (held i [(4, ticket0)]) t ns
    groupOf (s 9 [note0]) 65536 (ticket0.extractLsb' 56 8).toNat = some (grp0 [note0]) ∧ ticketNotice (grp0 [note0]) ticket0 = some note0 ∧
    ticketNotice (grp0 []) ticket0 = none ∧ rdy (s 9 []) i = true ∧ rdy (s 9 [note0]) i = true ∧ podTick (s 9 [note0]) < closeOf note0 ∧
    agentRank (s 9 [note0]) (grp0 [note0]) (rd (s 9 [note0]) i) = some 0 ∧ rdy (s 16 [note0]) i = true ∧ closeOf note0 ≤ podTick (s 16 [note0]) ∧
    rdy (change (s 9 [note0]) (sentAs (.injected 9))) i = true ∧ rdy (change (s 9 [note0]) stranger) i = true := by decide +kernel
theorem witness_notice_reads : ([.nawait wordA, .nstat wordA, .nstatCnt { wordA with sub := 1 }, .nread { wordA with oc := 8 }] : List Instr).all (fun i =>
    [[], [note0], [{ note0 with out := 2 }]].all (fun ns => let s := notedAt (held i [(4, 0x100000000000000)]) 9 ns
      rdy s i && rdy (notedAt (held i [(4, ticket0)]) 9 ns) i && groupOf s 65536 1 = some (grp0 ns))) = true ∧
    note0.out = 1 ∧ note0.seen = true := by decide +kernel
theorem witness_nfilter : let i : Instr := .nfilter { wordA with ob := 5 }
    ([0x100000000000010, 0x100000000000000, 0x100000000000040, 0x200000000000010] : List W64).all (fun x => rdy (notedAt (held i [(5, x)]) 9 []) i) = true ∧
    rdy (change (notedAt (held i [(5, 0x100000000000010)]) 9 []) stranger) i = true ∧ (block (held i) 0).isSome = true := by decide +kernel

/-! Posts to a queue pair. -/

def qp0 : Qp := { qpn := 7, fn := 1, ctx := 65536, port := 0, mtu := 1024, sqDepth := 2, rqDepth := 2, rqBase := 0x100800, cq := 1, ackTimeout := 0, retries := 1, rnr := 0, st := .rts,
                  sq := [], sent := 0, sentAt := 0, fetch := [], back := [], resps := [], tries := 0, rnrTries := 0, rnrWait := none, rqHead := 0, rate := 65536, since := 0, rxq := [] }
def posts (q : Qp) (s : State) : State := farAt { s with net := { s.net with qps := [q], cqs := [⟨1, 65536, 1, 0x100400, 4, 0, 0⟩] } }
def fPost : FmtA := { plainA with oa := 8, ob := 4, oc := 12 }
def ss (len : W64) : List (Nat × W64) := [(4, 7), (8, 0x100000), (9, 0x200000), (10, len)]
/-- The word of a post: only XATOM has operands in OC. -/
def postWord (n : Nat) : FmtA := if n = 3 then fPost else { fPost with oc := 0 }
theorem witness_posts : (List.range 5).all (fun n => match (postOps (postWord n))[n]? with
    | some p =>
      ([qp0, { qp0 with st := .error }, { qp0 with sqDepth := 0 }] : List Qp).all (fun q => let s := posts q (held p.1 (ss 8)); let g := rd s p.1
        rdy s p.1 && postTrap s g p.2 7 0x100000 0x200000 8 = none && (ctxOf s g.part g.ctx).any (fun cx =>
          pinAll (.agent s.cur) cx g.die 4096 (postSegs p.2 0x100000 8) 4096 (setAgent s s.cur g) [] =
            (setAgent s s.cur g, (if p.2 = 6 then [] else [⟨0, 0x100000, 0x1000, .dev 0, 0x2000, 0x100000⟩]), .done)) && qpAt s 7 = some q) &&
      (let s := posts { qp0 with st := .init } (held p.1 (ss 8)); rdy s p.1 && (postTrap s (rd s p.1) p.2 7 0x100000 0x200000 8).isSome) &&
      (let s := posts qp0 (held p.1 (ss 0x100001)); rdy s p.1 && (postTrap s (rd s p.1) p.2 7 0x100000 0x200000 0x100001).isSome)
    | none => false) = true := by decide +kernel
theorem witness_poll : let i : Instr := .xpoll { plainA with oa := 8, ob := 4 }; let s (q : W64) := farAt (held i [(4, q)])
    rdy (s 0x100001) i = true ∧ (0x100001 : W64).extractLsb' 0 5 ≠ 0 ∧ (0x100000 : W64).extractLsb' 0 5 = 0 ∧ rdy (s 0x100000) i = true ∧
    (let g := rd (s 0x100000) i; acqWait g = false ∧ ioFind (s 0x100000) (.agent (s 0x100000).cur) 0 = none ∧
      overlaps (s 0x100000) (s 0x100000).cur g (vaBlocks 0x100000 32) = false ∧
      (ctxOf (s 0x100000) g.part g.ctx).any (fun cx => homeOf (s 0x100000) cx 0x100000 ≠ .at_ (.host 0) &&
        (hbmAt (s 0x100000) cx (cacheOf (s 0x100000).cur) 0x100000 .rd).any (fun pa => !poisoned (s 0x100000) false pa 32)) = true) ∧
    (let s1 := change (s 0x100000) (fun g => { g with acqHold := true, pend := [outP] }); rdy s1 i = true ∧ acqWait (rd s1 i) = true) := by decide +kernel

/-! ## Events: for each statement, states that meet its hypotheses. -/

/-- The small machine the events start from: one warp, its far pages at hand. -/
def base : State := farAt (held (.nop plainX))
def wp0 : AgentId := .warp ⟨0, 0, 0⟩ 0
/-- Words at a place of HBM. -/
def memAt (s : State) (pa : Nat) (ws : List W64) : State := { s with mem := { s.mem with hbm := writeBytes s.mem.hbm pa (ws.flatMap fun w => leBytes 8 w.toNat) } }
/-- The warp fetches the clause at far address 0x40: a header and one word. -/
def fetchS (hdr w : W64) (fn : Agent → Agent := id) : State := memAt (change base (fun g => fn { g with pc := 0x40, clause := none, waited := false })) 0x8040 [hdr, w]
def cx0 : Ctx := blankCtx 0 1 1
def nopW : W64 := (encode (.nop plainX)).getD 0
/-- HeaderLegal and WordLegal, as Bools. -/
def hdrOk (h : Hdr) (st : Bool) : Bool := h.cwait.toNat ≤ 5 && (h.cwait ≠ 0 || h.thr = 0) &&
  if st then (h.cls = 0 || h.cls = 5 || h.cls = 6 || h.cls = 9) && h.cwait = 0 else h.cls.toNat ≤ 9 && h.cls ≠ 6
def wordOk (h : Hdr) (i : Nat) (w : W64) : Bool := match mapOpcode (some cx0) (w.extractLsb' 0 10).toNat with
  | none => true
  | some op => (classOf op = 0 || classOf op = h.cls.toNat) &&
    (!(0x030 ≤ op && op ≤ 0x035 || op = 0x042 || 0x2A0 ≤ op && op ≤ 0x2A2) || i = h.count.toNat) && (w.extractLsb' 10 4).toNat + i ≤ h.count.toNat
/- A header that does not parse, one of a class no warp has, a word of another class, and a clause that begins: at once, after its wait,
with a fabric error, past its first word. -/
theorem witness_fetch : [(0x40000, nopW), (0x60, nopW), (0x10, (encode (.ld plainM)).getD 0), (0, nopW), (0x1100, nopW), (0x10000, nopW)].map (fun (p : W64 × W64) =>
      let s := fetchS p.1 p.2; let g := me s
      (agent s wp0 = some g && g.trapPend.isNone && !g.waited && !g.ended && g.haltForm = .no && g.clause.isNone && ctxOf s g.part g.ctx = some cx0 && codeAt s cx0 wp0 1 g.pc = some [p.1],
        (parseHdr p.1).map (fun h => (hdrOk h false, h.cwait.toNat, decide (codeAt s cx0 wp0 (h.count.toNat + 1) (g.pc + 8) = some [p.2]), wordOk h 0 p.2)))) =
    [(true, none), (true, some (false, 0, true, true)), (true, some (true, 0, true, false)), (true, some (true, 0, true, true)), (true, some (true, 1, true, true)),
     (true, some (true, 0, true, true))] ∧
    (let s := fetchS 0 nopW
     (codeAt s cx0 wp0 0 0x40 = some [] ∧ codeAt s cx0 wp0 1 0x40 = some [0]) ∧ farOk 0x40 = true ∧
      faultAt { s with xl := { s.xl with faults := [⟨65536, 0, .fetch, 0x10, .agent wp0⟩] } } (.agent wp0) (ctxKey cx0) 0x48 .fetch = some ⟨65536, 0, .fetch, 0x10, .agent wp0⟩) ∧
    (me (fetchS 0x1100 nopW (fun g => { g with fabErr := some 5 }))).fabErr = some 5 ∧ (me (fetchS 0 nopW (fun g => { g with idx := 1 }))).idx = 1 := by decide +kernel
/-- Tables that map the first GiB of the context to itself, homed on this device, with every permission. -/
def cx1 : Ctx := { cx0 with stage1 := 0x12000, stage2 := 0x10000, homemap := 0x14000 }
def paged (s : State) : State :=
  let s := [(0x10000, 0x11001), (0x11000, 0x16001), (0x16000, 0x3D), (0x12000, 0x13001), (0x13000, 0x17001), (0x17000, 0x3D), (0x14000, 0x15001), (0x15000, 0x80000000)].foldl
    (fun s (p : Nat × W64) => memAt s p.1 [p.2]) s
  { s with xl := { s.xl with ctxs := [cx1] } }
/- A commit whose parent's safe-point table lies in host memory waits for it. -/
theorem witness_commit_waits : let o := { pop0 2 with arrivals := [⟨.warp ⟨0, 0, 0⟩ 0, false, 0, [(0, 0), (1, 3)], 0, 3, [], []⟩] }
    let s := withPop (memAt (paged (held (.resample { plainA with oa := 1, ob := 2 }))) 0x15000 [0x82000000]) o
    popReady (popAt s (ckey 1 0, 0)) = true ∧
    (popAt (commitPop s (ckey 1 0, 0) o) (ckey 1 0, 0)).copy.any (fun c => !(copyPop (progress (commitPop s (ckey 1 0, 0) o)) (ckey 1 0, 0) c).2) = true := by decide +kernel
/-- Live registers V0 and S0 at the warp's word: the descriptor at 0 and its table at 0x100. -/
def safeS : State := memAt (memAt (paged (change base (fun g => { g with pc := 0x40, haltReq := some 0 }))) 0x8000 [0x4F584443, 0x100, 1]) 0x8100 [8, 1, 1, 0, 0, 0]
/-- One warp of which lane 0 alone is in EXM, in a code section of n bytes. -/
def lastWord (n : Nat) : State :=
  memAt (paged (change base (fun g => { g with pc := 0x40, exm := 1 }))) 0x8000 [0x4F584443 + n * 2 ^ 32, 0x100, 1]
/- EXIT with lanes left outside EXM: past its code section or not, or while the descriptor's page is being looked for (R476). -/
theorem witness_exit_last : [15, 16, 17].map (fun n => (pastCode (lastWord n) wp0 (me (lastWord n))).2) = [some true, some true, some false] ∧
    (let s := lastWord 16; rdy s (.exit plainX) = true ∧ lanes (me s) plainC = [0] ∧ s.cur = wp0 ∧ (me s).exm = 1 ∧ (me s).live = 0xFFFFFFFF ∧ (agent (run (.exit plainX) s) wp0).isNone = true) ∧
    (let s := lastWord 17; (agent (run (.exit plainX) s) wp0).any (fun g => g.live = 0xFFFFFFFE && g.pc = 0x50) = true) ∧
    (let s := { lastWord 16 with xl := { (lastWord 16).xl with cache := [] } }; (pastCode s wp0 (me s)).2 = none) := by decide +kernel
theorem witness_agent_events : (let s := change base (fun g => { g with pend := [{ outP with left := 0 }] }); (me s).pend = [{ outP with left := 0 }] ∧ outP.win = 0) ∧
    (let s := change base (fun g => { g with trapPend := some (5, 9, 0), tvec := 8 }); (me s).trapPend = some (5, 9, 0) ∧ (me s).pend = [] ∧ (me s).tprio = false ∧ (me base).tvec = 0) ∧
    (agent base wp0 = some (me base) ∧ (me base).promo = false ∧ (me base).haltForm = .no ∧ (me base).ended = false ∧ base.waiting.contains wp0 = false) ∧
    (me (change base (fun g => { g with joinAt := some 0 }))).joinAt.isSome = true ∧
    (safeHere safeS wp0 (me safeS) = some ⟨1, 1, 0⟩ ∧ (me safeS).haltReq.isSome = true) ∧
    (let s := { change base (fun g => { g with haltReq := some 0 }) with fab := { base.fab with podNs := 600 } }
     safeHere s wp0 (me s) = none ∧ haltDue s wp0 (me s) = true) := by decide +kernel

/-! Records, launches, packets. -/

/-- A launch of one team with one block on the first core. -/
def lau : Launch := { blankLaunch with id := 3, fn := 1, q := 0, part := 1, gen := 1, code := 0x40, teams := 1, map := [0], liveRecs := 1 }
def withLaunch (l : Launch) : State := { base with sched := { base.sched with launches := [l] } }
/-- A record for a core, or for a control core. -/
def rec0 (kind : Bool) : Cont := ⟨4, 0x40, 0, 0, 0, 1, 1, 1, 3, kind, 0, 0, 0, 0, 0, 1, 0, 0⟩
def withRec (c : Cont) (t : Nat := 0) : State := { base with sched := { base.sched with conts := [c] }, fab := { base.fab with podNs := t } }
theorem witness_resident : canDispatch (withLaunch lau) lau = true ∧ canDispatch (withLaunch { lau with gang := true }) { lau with gang := true } = true ∧
    popChoice (withRec (rec0 false)) (.core ⟨0, 0, 0⟩) = some (rec0 false) ∧ popChoice (withRec (rec0 true)) (.ctl 0 0) = some (rec0 true) ∧
    popChoice (withRec { rec0 false with gen := 9 }) (.core ⟨0, 0, 0⟩) = some { rec0 false with gen := 9 } ∧
    genCmp 1 (fnGen base 1).toNat = .current ∧ genCmp 9 (fnGen base 1).toNat ≠ .current ∧
    (let s := withRec (rec0 false) 20000; s.sched.conts.filter (fun x => x.part = 1 && x.die = 0 && x.prio = 0) = [rec0 false] ∧ s.sched.resvs = []) := by decide +kernel
/-- Queue 0 of function 1 with one request of one packet. -/
def ring0 (ws : List W64) : Ring := ⟨1, 0, [⟨⟨77, 0, 1, 1, 0x0100⟩, ws, false⟩], 0, 0, 0, false, 0, 0, 0⟩
def queued (ws : List W64) (s : State := base) : State := { s with sched := { s.sched with rings := [ring0 ws] } }
/-- PacketAt with a function that reads its queue and no access kept. -/
def packet (s : State) (ty len : Nat) : Bool := (ringAt s 1 0).any (fun r => ringReady s r && (ringBad s r).isNone && (headReq r).any (fun x => reqCtx s 1 x = some cx0) &&
    (headPkt r).any (fun p => p.1.extractLsb' 0 8 = BitVec.ofNat 8 ty && (p.1.extractLsb' 16 16).toNat = len)) &&
  s.sched.ios = [] && (func s 1).any (fun f => f.reading && !timeShared s f.part.toNat)
/-- A LAUNCH packet of lau: its map, of one word, at far 0x100000. -/
def launchW (shape : W64) : List W64 := [0x80001, 0x40, 0, 0, 0x100000, 0, shape, 0]
def descAs (s : State) : Option Launch := (ringAt s 1 0).bind (fun r => (headPkt r).bind (fun p => launchDesc s cx0 p.1 p.2))
theorem witness_launch : (let s := memAt (queued (launchW 0x0001000003FFFC00)) 0x2000 [0]
      packet s 1 8 = true ∧ (descAs s).map (fun l => (l.teams, l.bpt, l.joinp, placeCheck s { l with map := [0] } 0, placeCheck s { l with map := [1] } 0)) = some (1, 0, 0, true, false) ∧
      hbmAt s cx0 agentDie 0x100000 .rd = some 0x2000 ∧ cleanNum s 0x2000 4 = some 0) ∧
    (let l := { lau with next := 1, liveRecs := 0 }; let s := withLaunch l; launchDone s l = true ∧ launchDone s { l with failed := some 5 } = true) := by decide +kernel
theorem witness_signal_timer_layout : packet (queued [0x30005, 0x100000, 5]) 5 3 = true ∧ packet (queued [0x30005, 0x100001, 5]) 5 3 = true ∧
    (hbmAt base cx0 agentDie 0x100000 .wr).isSome = true ∧ undoFull base 1 = false ∧ packet (queued [0x6400010006]) 6 1 = true ∧ hasFeature base 1 13 = true ∧ hasFeature base 1 10 = true ∧
    [0, 1].all (fun (w : W64) => packet (queued [0x90004, 0, 0, 0, 0, 0, 0, 0, w]) 4 9) = true ∧
    layoutOk (BitVec.ofNat 512 (joinWords [0, 0, 0, 0, 0, 0, 0, 1])) = false ∧
    (let ok : List W64 := [0, 0, 0x100000000, 0, 0, 0, 0x1000000, 1]
     packet (queued (0x90004 :: ok)) 4 9 = true ∧ layoutOk (BitVec.ofNat 512 (joinWords ok)) = true) := by decide +kernel
/-- A fence on the 32-bit word at 0x100000, which holds 7: equal to n. -/
def fenceW (n : W64) : List W64 := [0x100040002, 0x100000, n, 0]
def polling (n : W64) (t : Nat) : State :=
  { base with sched := { base.sched with rings := [{ ring0 (fenceW n) with busy := true }], fences := [⟨1, 0, [(0x100000, n, 0)], 0, false⟩] }, fab := { base.fab with podNs := t } }
theorem witness_fence : packet (queued (fenceW 7)) 2 4 = true ∧ fenceHolds (.queue 1 0) base cx0 [(0x100000, 7, 0)] = some true ∧ fenceHolds (.queue 1 0) base cx0 [(0x100000, 8, 0)] = some false ∧
    groupsOf3 [0x100000, 7, 0] = [(0x100000, 7, 0)] ∧ FenceEntry (0x100000, 7, 0) ∧ fenceOf (queued (fenceW 7)) 1 0 = none ∧
    tenantRuns base 1 = true ∧ (fenceOf (polling 7 100) 1 0).isSome = true ∧ (ringAt (polling 7 100) 1 0).map Ring.busy = some true := by
  refine ⟨by decide +kernel, by decide +kernel, by decide +kernel, by decide +kernel, by unfold FenceEntry; decide +kernel, by decide +kernel, by decide +kernel, by decide +kernel, by decide +kernel⟩
/-- A graph of one node of a type, read from 0x100000. -/
def nodeWs (ty : W64) : List W64 := [0xFFFFFFFFFFFFFFFF, 0, 0, 0, 0, 1, 0x100000, ty]
def graphS (ty : W64) : State := memAt (queued [0x30003, 0x100000, 1]) 0x2000 (nodeWs ty)
def inGraph (ty : W64) (l : List Launch) : State :=
  { base with sched := { base.sched with rings := [{ ring0 [0x30003, 0x100000, 1] with busy := true }], graphs := [⟨1, 0, 0, [nodeWs ty], [], [(0, none)], none⟩], launches := l } }
theorem witness_graph : packet (graphS 3) 3 3 = true ∧ packet (graphS 9) 3 3 = true ∧ packet (graphS 0x103) 3 3 = true ∧ nodeOk [nodeWs 0x103] (nodeWs 0x103) = true ∧ hasFeature base 1 9 = true ∧ wordsAt (.queue 1 0) (graphS 3) cx0 8 0x100000 = some (nodeWs 3) ∧
    nodeOk [nodeWs 3] (nodeWs 3) = true ∧ nodeOk [nodeWs 9] (nodeWs 9) = false ∧
    [1, 3, 4, 5].all (fun (ty : W64) => let s := inGraph ty [{ lau with q := 0, node := some 0, next := 1, liveRecs := 0 }]
      (ringAt s 1 0).any (fun r => (headPkt r).isSome) && (graphAt s 1 0).any (fun g => nodeType g 0 = ty.toNat && g.running = [(0, none)] && g.failed.isNone) && s.sched.ios = [] &&
      s.xl.ctxs.find? (fun c => c.fn = 1 && c.ctxid = 0) = some cx0 && s.sched.launches.all (fun l => launchDone s l)) = true := by decide +kernel

/-! Claims and flows. -/

def claimS : State := { heldC (.claim wordA) (slot0 (own (.claim wordA) .plain .walking)) with waiting := [wp0] }
/-- Partition 1 spans devices 0 and 3 with fabric port 0, which is up. -/
def fabric (s : State) : State :=
  { s with part := { s.part with parts := s.part.parts.map (fun p => { p with devs := maskOf 144 [0, 3], fports := 1 }) }, fab := { s.fab with fabUp := 1 } }
theorem witness_seating : (let g := me claimS; let c := own (.claim wordA) .plain .walking
      claimAt claimS id0 = some c ∧ agent claimS c.owner = some g ∧ g.haltForm = .no ∧ c.owner ∈ claimS.waiting ∧ g.trapPend = none ∧
      decodeIn claimS g (curWord g) = some (.claim wordA) ∧ uniformOk c.owner g plainC = true ∧ handleOf claimS c.owner g 0 = some (id0, c) ∧ seat claimS id0 c = true) ∧
    (let s := { claimS with fab := { claimS.fab with resvQ := [(id0, 3, true)] } }; let out := ⟨id0, 0, 3, true, 656, 11, false⟩
     pathPorts s 1 3 = [] ∧ pathPorts (fabric s) 1 3 = [0] ∧ headOut (fabric s) id0 3 true = false ∧ pathFits (fabric s) id0 1 3 true 1 0 0 = true ∧
     headOut { s with fab := { s.fab with resvs := [out] } } id0 3 true = true) := by decide +kernel
/-- A flow of one leg between two pinned pages here, or from device 3. -/
def farFlow (loc : Loc) : Claim := { own (.flow wordA) .plain .flowing with
  desc := [0x100000, 0x100800, 0x7E00010], pins := [⟨0, 0x100000, 0x1000, loc, 0x2000, 0x100000⟩, ⟨1, 0x100000, 0x1000, .dev 0, 0x2000, 0x100000⟩]
  legs := [⟨0, 0, 16, 0, 0x100000, 1, 0x100800, false, 0⟩], flowLen := 16, compl := .tag 3, opId := 9 }
/-- The first of its legs, which ends within a word. -/
def partFlow (loc : Loc) : Claim := { farFlow loc with legs := [⟨0, 0, 12, 0, 0x100000, 1, 0x100800, false, 0⟩, ⟨1, 12, 4, 0, 0x10000C, 1, 0x10080C, false, 0⟩] }
def haloFlow : Claim := { own (.hflow plainA) .halo .flowing with paths := [(2, 1, 0, 0x100000)] }
theorem witness_legs : [farFlow (.dev 0), farFlow (.dev 3), partFlow (.dev 0), partFlow (.dev 3)].all (fun c =>
      let s := change (heldC (.flow wordA) (slot0 c)) (fun g => { g with outOps := [⟨9, 4, false⟩] })
      claimAt s id0 = some c && srcSpace c = 7 && dstSpace c = 7 && (c.legs.find? (fun x => x.n = 0 && !x.acked)).any (fun l => 0 < l.len && l.off + l.len ≤ c.flowLen &&
        l.src = descAt c 0 + c.doneB + l.off && l.dst = descAt c 1 + c.esz + l.off && l.src % 8 = 0 && l.dst % 8 = 0) && c.stage = [] && c.ahead = [] &&
      (pinAt c 0 0x100000).any (fun p => p.2 = 0x2000) && pinAt c 1 0x100800 = some (.dev 0, 0x2800) && !poisoned s false 0x2000 16 &&
      (ctxByKey s c.ctx).all (fun cx => [0x100000, 0x100800].all (fun a => homeOf s cx a ≠ .at_ (.host 0))) &&
      !c.orphan && c.inval.isNone && (agent s c.owner).any (fun g => hasOp g c.opId)) = true ∧
    claimAt (heldC (.hflow plainA) (slot0 haloFlow)) id0 = some haloFlow ∧ (haloFlow.paths.find? (fun p => p.1 = 2)).isSome ∧ 2 ∉ haloFlow.started := by decide +kernel
/-- An all-reduce of 4 bytes between two ranks. -/
def coll0 : Claim := { own (.coll wordA) .coll .flowing with desc := [0x100000, 0x100800, 0x7E00004], nrank := 2, pins := [⟨0, 0x100000, 0x1000, .dev 0, 0x2000, 0x100000⟩, ⟨1, 0x100000, 0x1000, .dev 0, 0x2000, 0x100000⟩] }
def collS : State := let s := heldC (.coll wordA) (slot0 coll0); { s with eng := { s.eng with colls := [(65536, 0, id0)] } }
theorem witness_collective : let x : CollShare := ⟨1, 0, 0x7E00004, [1, 0, 0, 0], false, []⟩
    claimAt collS id0 = some coll0 ∧ collS.eng.colls.filter (fun x => x.1 = 65536 && x.2.1 = 0) = [(65536, 0, id0)] ∧ (x.word.extractLsb' 35 16).toNat = 0 ∧ x.rank ≠ coll0.rank ∧
    x.spec.toNat = coll0.spec ∧ x.word.extractLsb' 0 21 = (0x7E00004 : W64).extractLsb' 0 21 ∧ srcSpace coll0 = 7 ∧ dstSpace coll0 = 7 ∧
    pinAt coll0 0 0x100000 = some (.dev 0, 0x2000) ∧ (∀ i, i < 4 → pinAt coll0 1 (0x100800 + i) = some (.dev 0, 0x2800 + i)) := by decide +kernel

/-! Translation. -/

def walkS (va : Nat) (acc : Acc) (c : Ctx := cx1) (leaf : W64 := 0x3D) : State :=
  let s := memAt (paged base) 0x17000 [leaf]
  { s with xl := { s.xl with ctxs := [c], cache := [], walks := [⟨5, 65536, va, acc, 0, none, []⟩] } }
def ended (s : State) (c : Ctx) (va : Nat) (acc : Acc) : WalkR := (walkAll s.mod.stackLost s.mem.hbm (walkCache s 65536 0) c.stage1 c.stage2 va acc).2.1
theorem witness_walks : ended (walkS 0x5000 .rd) cx1 0x5000 .rd = .ok 0 0x40000000 0 0 0x3D false ∧ ended (walkS 0x5000 .wr cx1 0x0D) cx1 0x5000 .wr = .perm ∧
    ended (walkS 0x5000 .rd { cx1 with stage1 := 0x18000 }) { cx1 with stage1 := 0x18000 } 0x5000 .rd = .xlate ∧
    ended (walkS 0x5000 .rd { cx1 with stage2 := 0x18000 }) { cx1 with stage2 := 0x18000 } 0x5000 .rd = .s2 0x12000 false ∧
    (walkS 0x5000 .rd).xl.walks.find? (fun x => x.n = 5 && x.s2 = none) = some ⟨5, 65536, 0x5000, .rd, 0, none, []⟩ ∧ ctxByKey (walkS 0x5000 .rd) 65536 = some cx1 ∧
    (walkS 0x5000 .rd).xl.grantIn = [] ∧ onWalker (walkS 0x5000 .rd) ⟨5, 65536, 0x5000, .rd, 0, none, []⟩ = true ∧ lostAt (walkS 0x5000 .rd) 0 = false ∧
    lostAt { walkS 0x5000 .rd with mod := { base.mod with stackLost := 1 } } 0 = true := by decide +kernel
/-- A packet from device 3. -/
def pkt (kind : Nat) (b : PktBody) : Packet := { mkPkt base 1 1 0 kind b with src := 3, tgt := 0 }
/-- Fresh, as a Bool. -/
def fresh (s : State) (p : Packet) : Bool := headerOk p && !tooOld s p && (match pktTenant s p with
  | some v => genCmp p.gen.toNat (fnGen s v).toNat
  | none => genOfPart s p.part.toNat p.gen.toNat) = .current
def asks (va : Nat) (acc : Acc) (ctx : Nat := 0) : Packet := pkt 0x10 (.grantReq ctx va acc)
def invalOf (base_ size : Nat) (gpa : Bool) : Inval := ⟨9, ⟨65536, base_, size, gpa⟩, .unmap, [], .none, 0, false, false⟩
theorem witness_grant_requests : fresh base (asks 0x100000 .rd) = true ∧ base.xl.grantIn = [] ∧ invalCovers base false 65536 0x100000 = false ∧
    invalCovers { base with xl := { base.xl with invals := [invalOf 0x100000 0x1000 false] } } false 65536 0x100000 = true ∧ ctxByKey base (ckey 1 5) = none ∧
    ctxByKey base 65536 = some cx0 ∧ base.xl.fwds = [] ∧
    ({ base with xl := { base.xl with fwds := [⟨⟨65536, 0x100000, 0x1000, false⟩, .dev 3, 0⟩] } } : State).xl.fwds.length = 1 ∧
    (faultAt { base with xl := { base.xl with faults := [⟨65536, 0x100, .rd, 5, .peer⟩] } } .peer 65536 0x100000 .rd).isSome = true ∧
    faultAt base .peer 65536 0x100000 .rd = none ∧ (cacheHit base 65536 agentDie 0x100000).any (fun x => serves x .rd) = true ∧ base.xl.grantIn.any (fun x => x.src = 3 && x.seq = 0) = false ∧
    invalCovers { base with xl := { base.xl with invals := [invalOf 0x100000 0x1000 true] } } true 65536 0x100000 = true ∧ invalCovers base true 65536 0x100000 = false ∧
    (base.xl.cache.map (fun x => { x with rd := false })).all (fun x => !serves x .rd) = true ∧
    (cacheHit (paged base) 65536 agentDie 0x7000).isNone = true ∧ pendingXl (paged base) 65536 agentDie 0x7000 = false ∧ (homeVia (paged base) agentDie cx1 0x7000).2 = .at_ (.dev 0) := by decide +kernel
/-- A request of this device for a page of device 3, and its entry. -/
def grants (r : GrantReq) : State :=
  { fabric base with
    xl := { base.xl with grants := [r] }
    fab := { (fabric base).fab with entries := [⟨.tag 6, { pkt 0x10 (.grantReq 0 0x900000 .rd) with tgt := 3, src := 0 }, 0, 0, 0x900000, [], 65536, .grant 4, 0, 0, 1⟩] } }
def grant4 : GrantReq := ⟨4, 65536, 0x900000, .rd, 0, .dev 3, 0, false, none, [], []⟩
def answer (a : GrantAns) : Packet := { pkt 0x19 (.grantAns a) with seq := 6 }
theorem witness_grant_responses : [grant4, { grant4 with stale := true }, { grant4 with fwds := 4 }].all (fun r =>
      fresh (grants r) (answer (.forward (.dev 3) 0)) && (tagEntry (grants r) (answer (.fault true))).any (fun e => e.owner = .grant 4) &&
      (grants r).xl.grants.find? (fun x => x.n = 4) = some r && (ctxByKey (grants r) r.ctx).isSome) = true ∧
    ownsLoc (grants grant4) 1 (.dev 3) = true ∧ ownsLoc (grants grant4) 1 (.dev 9) = false := by decide +kernel
def ats (pri : Bool) (gen : BitVec 16) (n : Nat) : State := { base with xl := { base.xl with
  ats := ⟨2, 1, gen, 1, 65536, 0, 0x900000, .rd, pri, []⟩ :: (List.range n).map (fun i => ⟨100 + i, 1, 1, 1, 65536, 0, 0x4096 * i, .rd, true, []⟩) } }
theorem witness_host_translations : [true, false].all (fun pri => (ats pri 1 0).xl.ats.any (fun x => x.id = 2 && x.pri = pri) && fnGen (ats pri 1 0) 1 = 1 &&
      (ats pri 9 0).xl.ats.any (fun x => x.id = 2 && x.pri = pri) && fnGen (ats pri 9 0) 1 ≠ 9 && (ats pri 1 0).xl.grantIn = [] && (ats pri 1 0).xl.migs = []) = true ∧
    (((ats false 1 0).xl.ats.filter (fun x => x.pri && x.fn = 1)).length < priShare (ats false 1 0) 1) ∧
    priShare (ats false 1 512) 1 ≤ ((ats false 1 512).xl.ats.filter (fun x => x.pri && x.fn = 1)).length := by decide +kernel
/-- A path asked of junction 0, and the junction's answer. -/
def asked : Entry := ⟨.tag 6, { pkt 0x20 (.resvReq ⟨id0, 0, 3, 1, true, 656, 11⟩) with tgt := 144, src := 0 }, 0, 0, 0, [], 65536, .resv id0 0, 0, 0, 1⟩
theorem witness_reservation : let s := { fabric claimS with fab := { (fabric claimS).fab with entries := [asked], resvQ := [(id0, 3, true)], resvs := [⟨id0, 0, 3, true, 656, 11, false⟩] } }
    [true, false].all (fun ok => let p := { pkt 0x21 (.resvReply ⟨id0, 0, ok⟩) with src := 144, seq := 6 }
      fresh s p && (tagEntry s p).any (fun e => e.owner = .resv id0 0) && (claimAt s id0).isSome) = true := by decide +kernel
/-- The stream from device 3 runs from base 1. -/
def open3 : TgtStream := ⟨3, 1, true, 1, [], [], [], none⟩
def running3 (s : State := base) (t : TgtStream := open3) : State := { s with fab := { s.fab with tgts := [t] } }
/-- FirstHere, as a Bool. -/
def first (s : State) (p : Packet) (t : TgtStream) : Bool :=
  fresh s p && (tgtAt s 3 1).run && t = retireLow (tgtAt s 3 1) p.low && seqGe p.seq t.base && !t.done.contains p.seq && (p.seq - t.base).toNat < 1024 && !begun (setTgt s (slideWin t)) p
def seqd (kind : Nat) (b : PktBody) (seq : BitVec 24 := 1) : Packet := { pkt kind b with seq, low := 1 }
def invalP : Packet := seqd 0x11 (.inval 0 0x100000 0x1000 .unmap)
/-- A store of the warp to 0x100000 still out. -/
def storeE : Entry := ⟨.seq 3 1 1, { pkt 0x11 (.write [(0x2000, [1])]) with tgt := 3, src := 0, seq := 1 }, 0, 0, 0x100000, [0x20000], 65536, .store wp0, 0, 0, 1⟩
def outE (s : State) (e : Entry) : State := { s with fab := { s.fab with entries := [e] } }
def range0 : Range := ⟨65536, 0x100000, 0x1000, false⟩
def invalS (i : Inval) (t : Nat) : State := { base with xl := { base.xl with invals := [i] }, fab := { base.fab with podNs := t } }
theorem witness_taken_back : first (running3) invalP open3 = true ∧ base.xl.invalIn = [] ∧
    (base.eng.slots = [] ∧ base.net.qps = [] ∧ base.net.inops = [] ∧ allEntries base = [] ∧ base.host.reads = []) ∧
    writesUse (outE (running3) storeE) range0 = true ∧ first (outE (running3) storeE) invalP open3 = true ∧
    (let s := { base with xl := { base.xl with invalIn := [⟨8, invalP, range0, 0⟩] } }; pageQuiet s range0 = true ∧ pageQuiet (outE s storeE) range0 = false) ∧
    pageQuiet (invalS (invalOf 0x100000 0x1000 false) 0) range0 = true ∧
    ([.none, .ats 3, .cmd 1 77 none] : List InvalFor).all (fun w => (invalS { invalOf 0 4096 false with what := w } 0).xl.invals.length = 1) = true ∧
    (let i := { invalOf 0x100000 0x1000 false with wait := [(3, 0x100000, 0x1000)] }
     (invalS i 100000).xl.invals.any (fun x => x.n = 9 && x.wait ≠ [] && !x.stuck && x.since + 100000 ≤ 100000) = true) := by decide +kernel
def migr (stage t : Nat) : State := { base with xl := { base.xl with migs := [⟨4, 1, 77, 65536, 0x100000, 0x3000, stage, 0⟩] }, fab := { base.fab with podNs := t } }
theorem witness_migrations : (migr 2 0).xl.migs.any (fun x => x.n = 4 && x.stage = 2) = true ∧ ctxByKey (migr 2 0) 65536 = some cx0 ∧ (migr 2 0).xl.grantIn = [] ∧
    (migr 1 20000).xl.migs.any (fun x => x.n = 4 && x.since + 20000 ≤ 20000) = true ∧ (invalS (invalOf 0x100000 0x1000 false) 100000).xl.invals.length = 1 ∧ (invalOf 0x100000 0x1000 false).done = false ∧ atsInvals base < 32 ∧
    (let s := { migr 4 0 with xl := { (migr 4 0).xl with invals := [{ invalOf 0x100000 0x1000 false with what := .migr 4 }] } }
     pageQuiet s range0 = true ∧ s.xl.migs.any (fun x => x.n = 4 && x.stage = 4) = true) ∧
    pinHit_ range0 65536 ⟨0, 0x100000, 0x1000, .dev 0, 0x2000, 0x100000⟩ = true := by decide +kernel

/-! The word plane. -/

/-- Entries of stream (3, 1), number 1, and of read tag 6, by owner. -/
def seqE (o : Owner) (b : PktBody := .write [(0x2000, [1])]) : Entry := { storeE with owner := o, pkt := { storeE.pkt with body := b } }
def tagE (o : Owner) : Entry := ⟨.tag 6, { pkt 0x10 (.read [(0x2000, 4)]) with tgt := 3, src := 0, seq := 6 }, 0, 0, 0x100000, [], 65536, o, 0, 0, 1⟩
def ackP (v : Option W64) : Packet := seqd 0x18 (.ack v)
def dataP : Packet := { pkt 0x19 (.data [([1, 2, 3, 4], false)]) with seq := 6 }
def atomO : Owner := .atomic wp0 1 [0] false (.rmw 0 .z32 [1])
theorem witness_answers : ([.store wp0, atomO, .inval 9, .io 2 none, .reset] : List Owner).all (fun o =>
      let s := outE base (seqE o (.inval 0 0x100000 0x1000 .unmap)); fresh s (ackP (some 5)) && (seqEntry s (ackP none)).any (fun e => e.owner = o) && s.fab.waitQ = []) = true ∧
    (seqEntry base (ackP none)).isNone = true ∧ (tagEntry base dataP).isNone = true ∧ (agent base wp0).isSome = true ∧
    ([.load wp0 1 0 [(0, 0)], .io 2 none] : List Owner).all (fun o => let s := outE base (tagE o); fresh s dataP && (tagEntry s dataP).any (fun e => e.owner = o)) = true := by decide +kernel
def late (s : State) (t : Nat) : State := { s with fab := { s.fab with podNs := t } }
/-- What is left to a grant request whose ports have drawn route errors: none, or junction 1's. -/
def twoPorts : State := let s := grants grant4; { s with part := { s.part with parts := s.part.parts.map (fun p => { p with fports := 3 }) }, fab := { s.fab with fabUp := 3 } }
def reservedS : State := let s := fabric base; { s with fab := { s.fab with entries := [asked], resvs := [⟨id0, 0, 3, true, 656, 11, false⟩] } }
theorem witness_failures : ([.load wp0 1 0 [(0, 0)], .io 2 (some wp0), .grant 4] : List Owner).all (fun o =>
      let s := outE (grants grant4) (tagE o); fresh s dataP && (tagEntry s dataP).any (fun e => e.owner = o) && (ctxByKey s grant4.ctx).isSome && (entryOf (late s 50000) (.tag 6)).isSome) = true ∧
    (List.range 18).filter (fun j => ownsJct (grants grant4) 1 j) = [0] ∧ (List.range 18).filter (fun j => ownsJct twoPorts 1 j) = [0, 1] ∧
    livePorts (grants grant4) 1 3 = [0] ∧ livePorts { grants grant4 with fab := { (grants grant4).fab with fabUp := 0 } } 1 3 = [] ∧
    (late reservedS 50000).fab.resvs.find? (fun y => y.claim = id0 && y.j = 0 && !y.granted) = some ⟨id0, 0, 3, true, 656, 11, false⟩ ∧ (entryOf (late reservedS 50000) (.tag 6)).any (fun e => e.owner = .resv id0 0) = true ∧
    ([.store wp0, .reset] : List Owner).all (fun o => let s := outE base (seqE o); fresh s (ackP none) && (seqEntry s (ackP none)).isSome && (entryOf s (.seq 3 1 1)).isSome && s.fab.entries.all (fun x => x.ref = .seq 3 1 1)) = true := by decide +kernel
def runs (n : BitVec 24) : State := { base with fab := { base.fab with srcs := [⟨3, 1, true, n, 0, none⟩] } }
/-- A store waits for the stream in reset form since time 0. -/
def waits (t : Nat) : State := let s := late (fabric base) t; { s with fab := { s.fab with waitQ := [storeE] } }
theorem witness_again : (entryOf (late (outE base storeE) 2000) (.seq 3 1 1)).any (fun e => e.last + 2000 ≤ 2000 && 2000 ≤ e.first + 30000 && !streamDown (late (outE (runs 5) storeE) 2000) e && streamDown (outE base storeE) e) = true ∧
    (let s := waits 46000; let x := srcOf s 3 1; x.run = false ∧ x.next = 0 ∧ x.since + 46000 ≤ s.fab.podNs ∧ waiters s 3 1 = [storeE] ∧ s.fab.entries.all (fun e => !isSeq e 3 1) = true) ∧
    (let s := waits 96000; let s := { s with fab := { s.fab with srcs := [⟨3, 1, false, 0, 0, some 46000⟩] } }
     waiters s 3 1 = [storeE] ∧ (srcOf s 3 1).tried = some 46000 ∧ max storeE.first 46000 + 50000 ≤ s.fab.podNs) := by decide +kernel
def readP (a : Nat) : Packet := { pkt 0x10 (.read [(a, 4)]) with seq := 6 }
theorem witness_reads : fresh base (readP 0x2000) = true ∧ headerOk { readP 0x2000 with rsv := 1 } = false ∧ hostPageOf base (readP 0x2000) 0x2000 = none ∧ hostPageOf base (readP hostTag) hostTag = none ∧ 0x2000 < hostTag ∧ fresh base (readP hostTag) = true ∧ base.host.reads = [] ∧
    tooOld (late base 125000) (readP 0x2000) = true ∧ genOfPart base 1 0 = .older ∧ runVf base 1 = some 1 ∧ (func base 1).isSome = true := by decide +kernel
def writeP (seq : BitVec 24) (a : Nat := 0x2000) : Packet := seqd 0x11 (.write [(a, [1, 2])]) seq
theorem witness_writes : (tgtAt base 3 1).run = false ∧ fresh base (writeP 1) = true ∧ first (running3) (writeP 1) open3 = true ∧
    (let s := running3 base { open3 with base := 2, done := [4], fetched := [(1, 9, false, 0)] }; (seqGe (writeP 1).seq 2 = false ∧ (4 : BitVec 24) ∈ (tgtAt s 3 1).done)) ∧
    1024 ≤ ((1025 : BitVec 24) - open3.base).toNat ∧ seqGe 1025 open3.base = true := by decide +kernel
def atomP (o : Bool) (seq : BitVec 24) (a : Nat := 0x2000) : Packet := seqd 0x12 (reqBody a o (.rmw 0 .z32 [1])) seq
def casP : Packet := seqd 0x13 (reqBody 0x2000 false (.cas .b32 [(1, 2)]))
theorem witness_atomic_packets : [atomP false 1, atomP true 1, atomP true 2, atomP false 1 hostTag, casP].all (fun p => first (running3) p open3 && (pktReq p.body).any (fun y => hostPageOf (running3) p y.1 = none)) = true ∧
    (let s := running3 base { open3 with held := [atomP true 1] }
     (tgtAt s 3 1).held = [atomP true 1] ∧ (pktReq (atomP true 1).body).any (fun y => y.2.1) = true ∧ hostPageOf s (atomP true 1) 0x2000 = none ∧ s.host.reads = [] ∧ s.xl.invalIn = [] ∧ (atomP true 1).seq = (tgtAt s 3 1).base) ∧
    (let s := running3 base { open3 with held := [atomP true 2] }; (tgtAt s 3 1).held.all (fun x => orderedWait s x) = true) := by decide +kernel
def hostRd (a : HostAct) : State := { base with host := { base.host with reads := [⟨5, 65536, 0, 0x40, 4, a, [], [], 0, 0⟩] }, xl := { base.xl with migs := [⟨4, 1, 77, 65536, 0x100000, 0x3000, 1, 0⟩] } }
theorem witness_resets_completions : fresh base (seqd 0x22 .none 0) = true ∧ (tgtAt (running3 base { open3 with lastReset := some (1, 0) }) 3 1).run = true ∧
    ([.load wp0 1 0 0 0, .atomic wp0 1 [0] false (.rmw 0 .z32 [1]), .reply (readP hostTag), .reply (atomP false 1 hostTag), .io 2, .ioAtom 2 (.rmw 0 .z32 [1]), .migr 4] : List HostAct).all (fun a =>
      (hostRd a).host.reads.any (fun x => x.id = 5 && x.len = 4 && hostIssued (hostRd a) x && x.act = a)) = true ∧ (hostRd (.migr 4)).xl.migs.any (fun x => x.n = 4) = true := by decide +kernel

/-! Junctions, time, mileposts, notices. -/

/-- Junction 0 routes partition 1 between devices 0 and 3. -/
def jct (s : State) : State := { fabric s with fab := { (fabric s).fab with jRoute := [(0, 1, [0, 3])] } }
theorem witness_junctions : (jPorts (jct base) 0 1 = [0, 3] ∧ jPorts base 0 1 = []) ∧ [0x10, 0x20].all (fun k => !tooOld base (pkt k .none)) = true ∧
    tooOld (late base 125000) (pkt 0x10 .none) = true ∧ headerOk { pkt 0x10 .none with rsv := 1 } = false ∧
    (let r : ResvReq := ⟨id0, 3, 0, 1, true, 2, 1⟩; let s := { jct base with fab := { (jct base).fab with jSlots := [⟨0, r, [(0, 1), (1, 2)], [(0, 1)]⟩] } }
     let q : ResvReq := ⟨id0, 3, 0, 1, true, 768, 1⟩; let p := { pkt 0x20 (.resvReq r) with tgt := 144 }
     jRoom (jct base) 0 r = true ∧ (seatSlots (jct base) 0 (some 3) (some 0) 2).length = 2 ∧ (seatSlots (jct base) 0 (some 0) (some 3) 1).length = 1 ∧
     s.fab.jSlots.any (fun x => x.j = 0 && x.req = r) = true ∧ jRoom s 0 q = false ∧ s.fab.jSlots.any (fun x => x.req = q) = false ∧
     p.tgt.toNat = 144 + 0 ∧ headerOk p = true ∧ (pkt 0x10 .none).tgt.toNat ≠ 144 + 0) := by decide +kernel
/- The pool of a port that holds nothing has room for one flit, and for no more than 256. -/
theorem witness_pool : jHeld base 0 3 + flitsOf (pkt 0x10 (.read [])) ≤ 256 ∧ 256 < jHeld base 0 3 + flitsOf (pkt 0x12 (.atomic (List.replicate 20000 0))) := by
  have h : jHeld base 0 3 = 0 := by unfold jHeld; show 0 - _ = 0; omega
  rw [h]; exact ⟨by decide +kernel, by simp only [pkt, mkPkt, flitsOf, List.length_replicate]; omega⟩
theorem witness_links_time : (let c := own (.claim wordA) .plain .ready; let s := heldC (.claim wordA) (slot0 c)
      s.eng.slots = [(id0, ⟨0, some c⟩)] ∧ c.st = .ready ∧ mapDown s 0 3 = false ∧
      ({ s with fab := { s.fab with resvs := [⟨id0, 0, 3, true, 656, 11, true⟩] } } : State).fab.resvs.any (fun r => r.claim = id0 && r.j = 0 && r.tgt = 3) = true) ∧
    (∀ i, i < 18 → jUp { base with fab := { base.fab with linkDownMap := (List.range 18).map (fun j => (j, List.range 144)) } } i = 0) ∧ jUp base 1 ≠ 0 ∧
    (let s := { base with fab := { base.fab with synced := false } }
     s.fab.podNs < s.fab.lastTb + 1000000 ∧ s.fab.lastTb ≤ s.fab.masterHeard + 4 ∧ s.fab.masterHeard ≤ s.fab.lastTb + 4) ∧ base.fab.synced = true ∧ (late base 1000000).fab.lastTb + 1000000 ≤ (late base 1000000).fab.podNs ∧ base.fab.podNs < base.fab.lastTb + 1000000 := by decide +kernel
/-- A flit of the kind in the group of device 0 and partition 1. -/
def flit (kind : BitVec 8) (payload : BitVec 256) (src : BitVec 16 := 0) : Flit := { mkFlit base 1 1 1 0 0 with kind, payload, src, dest := 1, itick := 8 }
def sends (kind : BitVec 8) (payload : BitVec 256) (t : Nat) (ns : List Notice) : State :=
  let s := fabric (notedAt base t ns); { s with fab := { s.fab with mpQueue := [⟨flit kind payload, some wp0⟩] } }
def noteW : BitVec 256 := noticePayload 77 5 3 8 0 2
def objW (t : Nat) : BitVec 256 := objPayload t 3 0 0
theorem witness_injected : (let s := sends 2 (objW 8) 16 [note0]; objLate s (flit 2 (objW 8)) = true) ∧
    (let s := sends 1 noteW 9 []; injectors s (flit 1 noteW) = [0] ∧ openings s (flit 1 noteW) = [0] ∧ s.fab.synced = true ∧
      injectors { s with fab := { s.fab with fabUp := 0 } } (flit 1 noteW) = [] ∧
      openings { s with fab := { s.fab with mpOut := [(0, { flit 1 noteW with itick := 9 })] } } (flit 1 noteW) = []) := by decide +kernel
theorem witness_delivered : flitGen base (flit 1 noteW) = .current ∧ flitGen base { flit 1 noteW with gen := 9 } = .newer ∧
    (let f := flit 4 (BitVec.ofNat 256 (1 * 2 ^ 152 + 1 * 2 ^ 144)); flitGen base { f with gen := 0 } = .older ∧ markTen f = 1 ∧ markOp f = 1 ∧ flitGen base f = .current) := by decide +kernel
/-- FlitTaken, as a Bool. -/
def taken (s : State) (f : Flit) (gid rank : Nat) : Bool := genOfSender s f.part.toNat f.gen.toNat = .current &&
  (groupGid s gid).any (fun grp => (grp.members[rank]?).any (fun m => m.dev = f.src.toNat && m.part = f.part.toNat))
theorem witness_notice_flits : (let s := notedAt base 9 []; let f := flit 1 noteW
      taken s f 3 0 = true ∧ fld f.payload 159 144 = 3 ∧ fld f.payload 135 130 = 0 ∧ fld f.payload 120 0 = 0 ∧ 6 ≤ fld f.payload 143 136 ∧ noticeOf (grp0 []) 0 8 = none ∧
      noticeOf (grp0 [note0]) 0 8 = some note0 ∧ note0.seen = true ∧ fld (f.payload + 1) 120 0 ≠ 0 ∧ groupGid s 4 = none) ∧
    (let s := notedAt base 9 [note0]; let f := flit 2 (objW 8)
      taken s f 3 0 = true ∧ fld f.payload 207 192 = 3 ∧ fld f.payload 185 180 = 0 ∧ fld f.payload 179 0 = 0 ∧ fld f.payload 191 186 = 0 ∧ fld f.payload 255 208 = 8 ∧
      f.itick.toNat < note0.itick + note0.win ∧ note0.objs.any (fun o => o.1 = 0) = false) ∧
    (let s := notedAt base 9 [{ note0 with out := 5 }]; let f := flit 3 (outPayload 8 3 0 2)
      taken s f 3 0 = true ∧ fld f.payload 207 192 = 3 ∧ fld f.payload 182 0 = 0 ∧ fld f.payload 185 183 = 2 ∧ fld f.payload 255 208 = 8 ∧
      podTick s ≤ note0.itick + note0.win + 7) ∧
    (let s := notedAt base 9 []; let k := (block s 0).map (fun k => { k with filters := [(0, 1, 0, 0x10)] })
      k.any (fun k => (grp0 []).ctx = ckey k.part k.ctx && memberRank s (grp0 []) k.part k.ctx k.gteam k.blockNo = some 0) = true ∧ fld (0x10 : W64) 5 4 = 1 ∧
      filterBlocks { s with blocks := [(0, (block s 0).getD blk0)], ck := [] } = [(0, (block s 0).getD blk0)] ∧ s.fab.mpQueue = []) := by decide +kernel
theorem witness_decided : groupGid (notedAt base 19 [note0]) 3 = some (grp0 [note0]) ∧ noticeOf (grp0 [note0]) 0 8 = some note0 ∧ note0.out = 1 ∧
    note0.itick + note0.win + 3 ≤ podTick (notedAt base 19 [note0]) ∧ outcomeOf (notedAt base 19 [note0]) (grp0 [note0]) note0 = 2 ∧
    outcomeOf (notedAt base 19 [note0]) (grp0 [note0]) { note0 with objs := [(0, 9)] } = 3 ∧
    (boardAt (paged (notedAt base 19 [note0])) ⟨0, 0, 1, 0, 0, 0⟩ 2 .wr).2.isSome = true ∧
    note0.itick + note0.win + 7 ≤ podTick (notedAt base 23 [{ note0 with out := 5 }]) := by decide +kernel

/-! The module, the driver, resets. -/

theorem witness_module : (State.reset.mod.power = .off ∧ base.mod.power = .presented ∧
      ({ base with mod := { base.mod with power := .ready } } : State).mod.power = .ready) ∧
    (base.mod.scFailed.getLsbD 1 = false ∧ ({ base with mod := { base.mod with scFailed := 2, leader := some 0 } } : State).mod.scFailed.getLsbD 1 = true) ∧
    (base.part.parts.all (fun p => base.part.parts = [p] && tokenCount base p 0 ≠ 0) && base.part.parts.length = 1 && base.part.tokEff.isEmpty) = true ∧
    pinnedIn base 0 = [] ∧ base.host.funcs.all (fun e => e.2.part = ((base.part.parts.find? (fun p => (partVfs p).contains e.1)).map (fun p => BitVec.ofNat 16 p.part)).getD 0xFFFF) = true := by decide +kernel
/-- Function 1 as it stands, and changed. -/
def fn1 : Func := fetchFunc
def withF (f : Func) (s : State := base) : State := { s with host := { s.host with funcs := [(0, { fn1 with part := 0xFFFF }), (1, f)] } }
def ev0 : EvRec := ⟨1, 0, 1, 1, 0, 0, 0⟩
/-- Function 1 with its queue q enabled. -/
def onQ (q : Nat) : Func := setVq fn1 { vqOf 1 fn1 q with on := true }
/-- A chain of a form, with a result's or a record's room. -/
def chain (form : ChainForm) (room : Nat) : Chain := ⟨form, 2, ⟨77, 0, 1, 0, 0⟩, .raw [], [], 0, room⟩
theorem witness_driver : (let f : Func := { fn1 with reading := false }; func (withF f) 1 = some f ∧ f.reading = false) ∧
    [0, 1, 2].all (fun q => (onQ q).reading && queueOn 1 (onQ q) q && (servedBy (withF (onQ q)).mod 1).isSome && func (withF (onQ q)) 1 = some (onQ q)) = true ∧ queueOn 1 fn1 0 = false ∧
    (fn1.held = [] ∧ fn1.lost = 0 ∧ base.xl.s2 = [] ∧ [0, 1, 2].map (fun q => formOf q (chain .ok 64)) = [.ok, .ok, .ok] ∧
      [1, 2].map (fun q => formOf q (chain .noWritable 64)) = [.noWritable, .noWritable] ∧ formOf 2 (chain .writableFirst 64) = .writableFirst) ∧
    (let f : Func := { onQ 1 with held := [ev0] }; func (withF f) 1 = some f ∧ f.held = [ev0] ∧ f.lost = 0 ∧ queueOn 1 f 1 = true) ∧
    (let f : Func := { fn1 with status := 3 }; let s := { withF f with mod := { base.mod with fault := 1 } }
      func s 1 = some f ∧ f.status.getLsbD 3 = false ∧ (0x700000000#64) &&& ~~~ (offered s 1) = 0 ∧
      (0x700000000#64).extractLsb' 32 3 = 0b111) ∧ fn1.status.getLsbD 3 = true ∧
    (let v := vqOf 1 fn1 (selQueue fn1); v.on = false ∧ 64 ≤ queueMax 1 fn1 v.num ∧ 64 = 2 ^ 6 ∧ queueMax 1 fn1 v.num ≠ 0) ∧
    queueMax 1 { fn1 with config := mset fn1.config 0x16 99 } (vqOf 1 fn1 99).num = 0 ∧
    [0x1000, 0x1004, 0x1084, 0x1088, 0x1002, 0x2000].map notifyAt = [true, true, true, false, false, false] ∧
    (withF fn1).host.resets = [] ∧ fn1.needsReset = false := by decide +kernel
def toldAt : ResetOp := ⟨1, none, [3], none, 1, 2, [65536], 0, false, 1, true⟩
theorem witness_resets : (func base 1 = some fn1 ∧ (fn1.needsReset && fn1.resetSeen) = false) ∧
    (let f : Func := { fn1 with needsReset := true, resetSeen := true }; func (withF f) 1 = some f) ∧ (func (withF fn1) 0).isSome = true ∧
    otherDevs base 1 = [] ∧ otherDevs (fabric base) 1 = [3] ∧
    (let r : ResetOp := { toldAt with wait := [] }; let s : State := { base with host := { base.host with resets := [r] } }
     s.mod.power ≠ .ready ∧ s.host.resets = [r] ∧ writesOut s r.ctxs = false ∧ func s r.fn = some fn1 ∧ r.answer = none) := by decide +kernel
/-- A head request that has run since time 0, under a watchdog of 1 µs. -/
def dog (t : Nat) : State := { queued [] (late base t) with sched := { base.sched with rings := [{ ring0 [] with period := 1 }] } }
def resetM (ng : Nat) : Flit := { mkFlit base 1 1 1 4 (markPayload 0 0 5 1 ng) with src := 3 }
theorem witness_spread : [500, 2000].map (fun t => (ringAt (dog t) 1 0).any (fun r => (headReq r).isSome && (r.period ≠ 0 && tenantRuns (dog t) 1 &&
      r.period * 1000 ≤ r.count + ((dog t).fab.podNs - r.since)))) = [false, true] ∧
    ((dog 2000).host.resets = [] ∧ otherDevs (dog 2000) 1 = [] ∧ allEntries (dog 2000) = [] ∧ (dog 2000).host.reads = []) ∧
    [2, 1].map (fun ng => (func base (markTen (resetM ng))).any (fun x => (resetM ng).kind = 4 && markOp (resetM ng) = 5 && markTen (resetM ng) = 1 &&
      x.part = (resetM ng).part && genCmp (markNgen (resetM ng)).toNat x.gen.toNat = .newer)) = [true, false] ∧
    (let s : State := { late base 10000 with host := { base.host with resets := [toldAt] } }
     s.host.resets.filter (fun r => r.fn = 1 && (r.wait ≠ [] && r.sentAt + 10000 ≤ s.fab.podNs)) = [toldAt]) := by decide +kernel

/-! Checkpoints, slices, pre-emption. -/

def snap0 : Snap := { blankSnap 0 with ckno := 3 }
def ck0 : Ck := { freshCk base 1 0 [1, 2] with ckno := 4, images := [(1, snap0), (2, snap0)] }
def used0 : UsedEl := ⟨1, 0, 0, 0, 0, 0, [], 16⟩
/-- Partition 1 time-shared by tenants 1 and 2, over the devices given; tenant 2 has work. -/
def turns (c : Ck) (devs : List Nat) (s : State := base) : State :=
  { withF fn1 s with
    part := { s.part with parts := s.part.parts.map (fun p => { p with devs := maskOf 144 devs, vfs := 3, nten := 2, order := [1, 2], slice := 100, ckpt := 20 }) }
    ck := [c], sched := { s.sched with rings := [{ ring0 [] with fn := 2 }] } }
def thePart (s : State) : Part := (partOf s 1).getD (fetchPart 0)
def onPod (s : State) (d : Nat) : State := { s with mod := { s.mod with poddev := d } }
def cutM (op ten ckno tick : Nat) : Flit := { mkFlit base 1 1 1 4 (markPayload tick ckno op ten 0) with src := 3 }
/-- SharedPart, as a Bool, with whether the device leads. -/
def sharedOn (s : State) (c : Ck) (leads : Bool) : Bool := (partOf s 1).isSome && ckOf s 1 = some c && isLeader s (thePart s) = leads
def follows (c : Ck) : State := onPod (turns c [0, 3]) 3
theorem witness_announced : (let s := turns ck0 [0]; sharedOn s ck0 true = true ∧ ck0.ctick = none ∧ s.fab.synced = true) ∧ sharedOn (follows ck0) ck0 false = true ∧
    (let c := { ck0 with exports := [(7, 2, .used used0)] }; let s := turns c [0]
     sharedOn s c true = true ∧ c.ctick = none ∧ 2 ≠ c.tenant ∧ 2 ∈ (thePart s).order ∧ s.fab.synced = true ∧ heldBy c 2 = some 7) ∧
    (let f := cutM 1 2 9 20; sharedOn (follows ck0) ck0 false = true ∧ f.kind = 4 ∧ markOp f = 1 ∧ markCkno f ≠ ck0.ckno ∧ markTen f ∈ (thePart (follows ck0)).order ∧
      f.part.toNat = 1) := by decide +kernel
/-- A cut of tenant 1 at tick 8, its image taken or not. -/
def cut8 (i : Option Snap) : Ck := { ck0 with ctick := some 8, cutTen := 1, cand := i }
def snap4 : Snap := { snap0 with ckno := 4, tick := 8, iv := 1 }
theorem witness_cuts : (let s := late (follows (cut8 none)) 2000; sharedOn s (cut8 none) false = true ∧ cutReady s (cut8 none) = true) ∧
    (let s := late (turns (cut8 none) [0]) 2000; sharedOn s (cut8 none) true = true ∧ cutReady s (cut8 none) = true ∧ otherDevs s 1 = [] ∧ (cut8 none).exports = []) ∧
    cutReady (turns (cut8 none) [0]) (cut8 none) = false ∧
    (let f := cutM 2 1 4 8; let c := cut8 (some snap4); let s := turns c [0, 3]
     f.kind = 4 ∧ markOp f = 2 ∧ markNgen f = 0 ∧ f.part.toNat = 1 ∧ sharedOn s c true = true ∧ c.ctick.isSome = true ∧ c.ckno = markCkno f ∧ snap4.ckno = c.ckno ∧
       otherDevs s 1 = [3] ∧ f.src.toNat = 3 ∧ otherDevs (turns c [0, 3, 5]) 1 = [3, 5]) ∧
    (let f := { cutM 2 1 4 8 with payload := markPayload 0 0 2 1 2 }; f.kind = 4 ∧ markOp f = 2 ∧ markNgen f ≠ 0) ∧
    (let f := cutM 3 1 4 8; let c := { cut8 (some snap4) with exports := [(7, 1, .used used0)] }
     f.kind = 4 ∧ markOp f = 3 ∧ ckOf (follows c) 1 = some c ∧ snap4.ckno = markCkno f ∧ (cut8 (some snap4)).exports = [] ∧ c.cutTen = 1 ∧ 7 < snap4.tick ∧
       (func (follows c) used0.fn).any (fun x => x.reading) = true) ∧
    (8 + 160 ≤ podTick (late (turns (cut8 none) [0]) 21000) ∧ ¬ 8 + 160 ≤ podTick (late (turns (cut8 none) [0]) 20000)) := by decide +kernel
theorem witness_slices : (let s := turns ck0 [0]; otherDevs s 1 = [] ∧ sharedOn s ck0 true = true ∧ sliceOver s (thePart s) ck0 = true ∧ nextTenant s (thePart s) ck0 = some 2) ∧
    (let s := { turns ck0 [0] with sched := base.sched }; sharedOn s ck0 true = true ∧ sliceOver s (thePart s) ck0 = true ∧ nextTenant s (thePart s) ck0 = none) ∧
    (let c := { ck0 with undo := [(1, 0, 0x2000, 9)] }; let s := turns c [0]
     nextTenant s (thePart s) c = some 2 ∧ sliceOver s (thePart s) c = true ∧ c.undoWait = [] ∧ c.exports = [] ∧ s.fab.entries = [] ∧ s.fab.waitQ = [] ∧ s.host.reads = [] ∧ (base.agents.map Prod.fst).Nodup) ∧
    (let f := cutM 4 1 4 8; let s := follows ck0
     sharedOn s ck0 false = true ∧ f.kind = 4 ∧ markOp f = 4 ∧ markTen f = ck0.tenant ∧ (markCkno f, markTick f) ∉ ck0.seen ∧ nextTenant s (thePart s) ck0 = some 2 ∧
      nextTenant { s with sched := base.sched } (thePart s) ck0 = none) ∧
    (let f := cutM 4 1 4 8; let c := { ck0 with cand := some snap4 }; sharedOn (follows c) c false = true ∧ markTen f = c.tenant ∧ snap4.ckno = markCkno f ∧ c.exports = []) := by decide +kernel
/-- The warp has halted for a pre-emption. -/
def yields (p : Pre) : State := let s := change base (fun g => { g with haltForm := .safe }); { s with sched := { s.sched with pre := [p] } }
def pre0 (why : PreWhy) (saved : Bool) : Pre := ⟨1, 0, why, [wp0], saved, 0⟩
/-- A queue of priority 3 whose team has waited 100 µs for the core a warp of priority 1 holds. -/
def pushy : State :=
  let s := late (change base (fun g => { g with prio := 1, alloc := 256 })) 100000
  let l := { lau with prio := 3, wpb := 47, regs := 1 }
  { s with sched := { s.sched with launches := [l], rings := [{ ring0 [] with busy := true }] } }
theorem witness_yields : [PreWhy.prio 3 0, .destroy 1 77].all (fun w => saveReady (yields (pre0 w false)) (pre0 w false)) = true ∧
    (saveReady base (pre0 (.prio 3 0) false) = false ∧ ctxOf (yields (pre0 (.destroy 1 77) false)) 1 0 = some cx0 ∧ base.part.holdCmd = [] ∧ base.sched.rings = []) ∧
    resumeReady (yields (pre0 (.prio 3 0) true)) (pre0 (.prio 3 0) true) = true ∧ resumeReady base (pre0 (.prio 3 0) false) = false ∧
    (prioDue pushy 1 0).map (fun x => (x.1.id, x.2)) = some (3, [0]) ∧ prioDue base 1 0 = none := by decide +kernel

/-! Commands. -/

def cmd (fn gen : Nat) (a : CmdArgs) (count : Nat := 0) (ctx : Nat := 0) : CmdReq := ⟨fn, ⟨77, BitVec.ofNat 16 ctx, BitVec.ofNat 16 gen, BitVec.ofNat 16 count, 0⟩, a, count, 4096⟩
/-- Both functions read their queues; function 1 belongs to partition 1. -/
def pf (s : State := base) : State := withF fn1 s
/-- Admitted, as a Bool. -/
def admitted (s : State) (q : CmdReq) (who : Issuer) (free : Bool) : Bool := (func s q.fn).any (fun f => q.hdr.gen = f.gen && q.hdr.count.toNat = q.len && (who != .pf || q.fn = 0) &&
  (who != .vf || q.fn ≠ 0) && (q.fn = 0 || f.part ≠ 0xFFFF || free))
def raw (fn : Nat) (bs : List Byte) : CmdReq := cmd fn 1 (.raw bs) bs.length
theorem witness_commands : ((func (pf) 0).any (fun f => f.gen = 1) && (func (pf) 1).any (fun f => f.gen = 1 && f.part ≠ 0xFFFF) &&
      (func (withF { fn1 with part := 0xFFFF }) 1).any (fun f => f.gen = 1 && f.part = 0xFFFF)) = true ∧
    (admitted (pf) (raw 1 []) .any true && admitted (pf) (raw 0 []) .any true && hasFeature (pf) 1 12 && hasFeature (pf) 1 15 &&
      !hasFeature (withF { fn1 with features := 0 }) 1 12) = true ∧
    (let bs : List Byte := [5, 0, 0, 0, 9]; admitted (pf) (raw 0 bs) .pf false = true ∧ byteFld bs 0 3 = 5 ∧ (pf).mod.rollback ≤ 5 ∧
      5 < ({ pf with mod := { base.mod with rollback := 6 } } : State).mod.rollback) := by decide +kernel
/-- The paged machine with a granule homed on this device's host memory, its units the partition's. -/
def moving : State := let s := memAt (paged (pf)) 0x15000 [0x8200000080000000]
  { s with xl := { s.xl with ctxs := [{ cx1 with hostpt := 0x18000 }] }, part := { s.part with units := [(0, 1)] } }
def cxM : Ctx := { cx1 with hostpt := 0x18000 }
def okCtx (s : State) (q : CmdReq) (vf : Nat) (c : Ctx) : Bool := match ctxFor s q vf with
  | .ok x => x = c
  | .error _ => false
def noCtx (s : State) (q : CmdReq) (vf : Nat) : Bool := match ctxFor s q vf with
  | .ok _ => false
  | .error _ => true
theorem witness_contexts : (let q := raw 1 []; admitted (pf) q .vf false = true ∧ (∀ c ∈ (pf).xl.ctxs, c.ctxid ≠ 1) ∧ okCtx (pf) q 0 cx0 = true ∧
      noCtx (pf) (cmd 1 1 (.raw []) 0 9) 0 = true) ∧
    (let q := cmd 1 1 (.xlate 0 (some 0x1000) none none none (some 3) none); admitted (pf) q .any false = true ∧ okCtx (pf) q 0 cx0 = true) ∧
    (let q := cmd 0 1 (.xlate 1 none (some 0x1000) (some 0x2000) none none none); admitted (pf) q .any false = true ∧ okCtx (pf) q 1 cx0 = true) ∧
    (let q := cmd 1 1 (.inval 0 0x100000 4096 .unmap false none); admitted (pf) q .any false = true ∧ okCtx (pf) q 0 cx0 = true) ∧
    (let q := cmd 1 1 (.migrate 0 0x40000000 0x3000); admitted moving q .any false = true ∧ okCtx moving q 0 cxM = true ∧ hasFeature moving cxM.fn 11 = true ∧
      homeOf moving cxM 0x40000000 = .at_ (.host moving.mod.poddev) ∧ hbmOwner moving 0x3000 = some cxM.part ∧ moving.xl.migs = [] ∧
      (hostPte moving cxM 0x40000000).testBit 1 = false ∧ hbmOwner moving 0x100003000 ≠ some cxM.part) ∧
    (let q := cmd 0 1 (.s2 4 true); let r : S2Req := ⟨4, 1, 1, 65536, 0x9000, 0, true⟩; let s := pf { base with xl := { base.xl with s2 := [r] } }
     admitted s q .pf false = true ∧ s.xl.s2.find? (fun x => x.idx = 4) = some r ∧ fnGen s r.fn = r.gen ∧ s.xl.grantIn = [] ∧ (pf).xl.s2 = []) ∧
    (let q := cmd 0 1 (.homemap 1 [(1, 0)]); admitted moving q .pf false = true ∧ (partOf moving 1).isSome = true ∧ (∀ d ∈ homemapsOf moving 1, (leafAt moving d 1).isSome = true) ∧
      moving.xl.ctxs.filter (fun x => x.part = 1) = [cxM] ∧ partOf moving 7 = none) := by decide +kernel
/-- Table 6-1's payload of a partition of device 0. -/
def partBytes (vfs hbm cgrp jmem : Nat) (part : Nat := 1) : List Byte := leBytes 64 (2 ^ 368 + part * 2 ^ 352 + vfs * 2 ^ 320 + hbm * 2 ^ 272 + cgrp * 2 ^ 256 + jmem * 2 ^ 208)
def askedPart (s : State) (bs : List Byte) : Bool × Bool × Option Bool := let v := leVal bs; let old := partOf s (nfld v 367 352); let p := partFrom v old;
  (partFormed s v p, partFree s p, old.map (fun o => takesAway o p && hasCtx s p.part))
theorem witness_partitions : ([partBytes 1 0xBBBBBBBBBBBB 0xFFFF 0, partBytes 1 0xCBBBBBBBBBBB 0xFFFF 0, partBytes 2 0 0xF000 0 2, partBytes 1 0xBBBBBBBBBBB 0xFFFF 0].map (askedPart (pf)) =
      [(true, true, some false), (false, false, some false), (true, false, none), (true, true, some true)]) ∧
    (admitted (pf) (raw 0 (partBytes 1 0 0 0)) .pf false && (pf).host.resets.isEmpty && (func (pf) 1).any (fun f => f.part = 1) && (raw 0 (partBytes 1 0 0 0)).hdr.count = 64) = true ∧
    ([[1, 1, 1, 1, 0, 0, 1, 0], [60, 1, 1, 1, 0, 0, 1, 0]] : List (List Byte)).map (fun bs => bs.length = 8 && byteFld bs 4 5 = 0 && (partOf (pf) (byteFld bs 6 7)).isSome &&
      (List.range 4).all (fun d => byteFld bs d d ≤ (clustersOf (pf) 1 d).length)) = [true, false] ∧ base.mod.halving = false ∧ base.part.tokCmd = [] ∧ base.part.tokPend = [] := by
  decide +kernel
/-- Table 6-4's payload: two tenants, slices of 100 µs. -/
def sliceBytes (nten : Nat) (ckpt : Nat := 20) : List Byte := leBytes 32 (2 ^ 240 + nten * 2 ^ 232 + 100 * 2 ^ 200 + ckpt * 2 ^ 184 + 2 ^ 176 + 1 * 2 ^ 133)
def sliceAsk (s : State) (bs : List Byte) : Bool := let v := leVal bs; let n := nfld v 239 232;
  bs.length = 32 && (partOf s (nfld v 255 240)).any (fun p => sliceOk p v n (nfld v 231 200) (nfld v 199 184) (nfld v 183 176) ((List.range n).map (fun i => nfld v (132 + 5 * i) (128 + 5 * i) + 1)))
/-- A partition of two functions, without contexts. -/
def bare : State := let s := turns ck0 [0]; { s with host := { s.host with funcs := [(0, { fn1 with part := 0xFFFF }), (1, fn1), (2, fn1)] }, xl := { s.xl with ctxs := [] } }
theorem witness_slicing : [sliceBytes 2, sliceBytes 0, sliceBytes 2 7].map (sliceAsk bare) = [true, true, false] ∧ hasCtx bare 1 = false ∧ hasCtx (turns ck0 [0]) 1 = true ∧
    [1, 2].all (fun n => hasFeature bare n 5) = true ∧ (∀ k ∈ bare.ck, k.exports = []) ∧
    (let q := cmd 0 1 (.vf 1); admitted (pf) q .pf false = true ∧ func (pf) 1 = some fn1 ∧ func (pf) 5 = none ∧ otherDevs (pf) 1 = [] ∧ allEntries (pf) = [] ∧ (pf).host.reads = []) := by
  decide +kernel
/-- A queue pair and a region of function 1. -/
def withQp (q : Qp) (s : State := base) : State := pf { s with net := { s.net with qps := [q], cqs := [⟨1, 65536, 1, 0x100400, 4, 0, 0⟩] } }
def mr0 : MemReg := ⟨1, 65536, 5, 0x100000, 0x100, true, true, true, [⟨0, 0x100000, 0x1000, .dev 0, 0x2000, 0x100000⟩], false⟩
theorem witness_network_objects : hasFeature (pf) 1 4 = true ∧ hasFeature (withF { fn1 with features := 0 }) 1 4 = false ∧
    (let q := cmd 1 1 (.qpCreate 0 1024 16 16 0x100800 1 0x100400 64 1 1 0); admitted (pf) q .vf false = true ∧ okCtx (pf) q 0 cx0 = true ∧ (pf).net.qps = [] ∧ (pf).net.cqs = []) ∧
    [(1, QpState.reset), (1, .init), (2, .init), (3, .rtr), (3, .rts), (0, .rts), (4, .rts), (2, .rts)].all (fun x =>
      let q := cmd 1 1 (.qpModify 7 x.1); admitted (withQp { qp0 with st := x.2 }) q .vf false && (qpAt (withQp { qp0 with st := x.2 }) 7).any (fun y => y.st = x.2 && y.fn = q.fn)) = true ∧
    (let q := cmd 1 1 (.obj 7); admitted (withQp { qp0 with st := .error }) q .vf false = true ∧ qpAt (withQp { qp0 with st := .error }) 7 = some { qp0 with st := .error }) ∧
    [0x100000, 0x900000].map (fun b => let q := cmd 1 1 (.mrReg 5 b 0x100 true true true)
      (okCtx (paged (pf)) q 0 cx1, (regPins (inHand (paged (pf)) q) (.reg 1 q.hdr.cookie) cx1 b 0x100 true true true).2.2)) = [(true, .done), (true, .wait)] ∧
    (let s := pf { base with net := { base.net with mrs := [mr0] } }; ∃ m ∈ s.net.mrs, m.fn = 1 ∧ m.key.toNat = 5) ∧
    admitted (pf) (cmd 1 1 (.netAddr 0 9 [(3, 7)])) .vf false = true := by decide +kernel
/-- Payloads of DECODE_LOAD, PGROUP_SET and NGROUP_SET (Table 28-1): a member on another device, so that no board is checked here. -/
def groupBytes : List Byte := leBytes 16 (7 + 2 ^ 16 + 3 * 2 ^ 32) ++ leBytes 32 (0x5000 * 2 ^ 192 + 3 * 2 ^ 184 + 2 ^ 168)
theorem zeros_value (n : Nat) : leVal (List.replicate n 0#8) = 0 := by induction n with
  | zero => rfl
  | succ n ih => simp [List.replicate_succ, leVal, ih]
theorem zeros_field (n lo hi : Nat) : byteFld (List.replicate n 0#8) lo hi = 0 := by simp [byteFld, zeros_value]
theorem witness_decode_table : let bs : List Byte := List.replicate 4096 0#8; let es : List W32 := (List.range 1024).map (fun k => BitVec.ofNat 32 (byteFld bs (4 * k) (4 * k + 3)));
    bs.length = 4096 ∧ ∀ e ∈ es, e.extractLsb' 10 21 = 0 ∧ (e.getLsbD 31 = true → assigned (e.extractLsb' 0 10).toNat = true) := by
  refine ⟨List.length_replicate .., fun e he => ?_⟩
  obtain ⟨k, -, rfl⟩ := List.mem_map.1 he
  rw [zeros_field]
  exact ⟨by decide, by decide⟩
/-- The context's work is gone. -/
def idle : State := { pf with agents := [] }
theorem witness_tables : (ctxBusy (pf) cx0 = true ∧ ctxBusy idle cx0 = false) ∧ hasFeature idle 1 6 = true ∧ okCtx idle (raw 1 []) 0 cx0 = true ∧
    (let bs : List Byte := [0, 0, 1, 0] ++ List.replicate 28 0; bs.length = 16 + 16 * byteFld bs 2 3 ∧ byteFld bs 0 1 ≤ 255 ∧ byteFld bs 4 15 = 0 ∧ byteFld bs 31 31 = 0 ∧ ownsDev (pf) 1 0 = true ∧
      ownsDev (pf) 1 9 = false) ∧
    (let bs := groupBytes; let n := leVal (bs.take 16) / 2 ^ 16 % 128; n = 1 ∧ bs.length = 48 ∧ byteFld bs 4 5 = 3 ∧ leVal (bs.take 16) / 2 ^ 8 % 256 = 0 ∧ leVal (bs.take 16) / 2 ^ 23 % 512 = 0 ∧
      leVal (bs.take 16) / 2 ^ 48 = 0 ∧ byteFld bs 16 47 % 2 ^ 134 = 0 ∧ (∀ m ∈ membersOf bs n, m.board.toNat % 4096 = 0 ∧ m.dev ≠ base.mod.poddev) ∧ hasFeature (pf) 1 1 = true ∧ base.ntc.groups = []) ∧
    (let s := notedAt (pf) 9 [note0]; s.ntc.groups = [grp0 [note0]] ∧ note0.out = 1 ∧ (grp0 [note0]).gid.toNat = 3) := by decide +kernel
/- What is refused: a count that is not the payload's, features not accepted, a page that moves or has moved, a queue pair and a group of others. -/
theorem witness_refusals : ({ raw 1 [] with len := 1 } : CmdReq).hdr.count.toNat ≠ 1 ∧ [1, 4, 6, 11, 15].all (fun n => !hasFeature (withF { fn1 with features := 0 }) 1 n) = true ∧
    (hostPte (memAt moving (hostEntryAt moving cxM 0x40000000) [2]) cxM 0x40000000).testBit 1 = true ∧
    (let m : Migr := ⟨4, 1, 77, 65536, 0x40000000, 0x3000, 1, 0⟩; ({ moving with xl := { moving.xl with migs := [m] } } : State).xl.migs = [m] ∧ m.ctx = ctxKey cxM) ∧
    ({ qp0 with fn := 2 } : Qp).fn ≠ (raw 1 []).fn ∧ (let g := grp0 [note0]; (g.ctx = ctxKey cx0 && g.handle = 9) = false ∧ (g.ctx = ctxKey cx0 && g.handle = 1) = true) := by decide +kernel

/-! The network engine. -/

def wq (op : Nat) : NetWq := ⟨op, false, .tag 3, 0x100000, 0x200000, 8, 5, 1, 2, 9, 1, wp0, 0, 0, 1, [⟨0, 0x100000, 0x1000, .dev 0, 0x2000, 0x100000⟩], 0⟩
/-- Queue pair 7 with one request, sent or not, its port up. -/
def sending (q : Qp) : State := let s := memAt (memAt (paged (withQp q)) 0x16000 [0xFD]) 0x17000 [0xFD]; { s with fab := { s.fab with ethUp := 1 } }
def qpW (op sent : Nat) : Qp := { qp0 with sq := [wq op], sent }
def qpNum (n : Nat) (q : Qp) (s : State) : Bool := q.qpn = n && s.net.qps.filter (fun x => x.qpn = n) = [q]
/-- Entered, as a Bool: the entry's two parts are placed and nothing else changes. -/
def enters (s : State) (q : Qp) : Bool := match cqOf s q, ctxByKey s q.ctx with
  | some c, some cx => let e := entryBytes (if c.tail / c.depth % 2 = 0 then 1 else 0) 1 0 q.qpn (ctxGen s cx).toNat 8 9; let a := c.base.toNat + 32 * (c.tail % c.depth);
    (c.tail + 2 ^ 32 - farIndex s cx (c.base.toNat + 32 * c.depth) % 2 ^ 32) % 2 ^ 32 < c.depth && (match farPlace s cx (a + 8) .wr with
      | (s', some hi) => let s1 := { s with mem := { s.mem with hbm := writeBytes s.mem.hbm hi (e.drop 8) } }; s' = s && (match farPlace s1 cx a .wr with
        | (s2, some _) => s2 = s1
        | _ => false)
      | _ => false)
  | _, _ => false
def pinned (s : State) (w : NetWq) : Bool := match w.pins with
  | [p] => p.loc = .dev s.mod.poddev && p.va ≤ w.laddr.toNat && w.laddr.toNat + w.len ≤ p.va + p.size
  | _ => false
theorem witness_requests_out : [1, 3, 2, 4, 6].all (fun op => let q := qpW op 0; let s := sending q
      qpNum 7 q s && q.st = .rts && q.rnrWait = none && q.back = [] && q.resps = [] && q.fetch = [] && q.rxq = [] && s.net.inops = [] && !timeShared s (q.ctx / 65536) &&
      ctxByKey s q.ctx = some cx1 && q.sq[q.sent]? = some (wq op) && 0 < q.mtu && pinned s (wq op) && (List.range 8).all (fun i => lostAt s (0x2000 + i) = lostAt s 0x2000) && !poisoned s false 0x2000 8 && s.fab.ethUp.getLsbD q.port && enters s q) = true ∧
    (let q := { qp0 with sq := [wq 2, { wq 1 with fence := true }], sent := 1 }; q.sq[q.sent]? = some { wq 1 with fence := true } ∧
      ((q.sq.take q.sent).filter (fun x => x.op = 2 || x.op = 4 || x.op = 5)).length ≠ 0) ∧
    (let q := { qp0 with sq := List.replicate 17 (wq 2), sent := 16 }; q.sq[q.sent]? = some (wq 2) ∧ 16 ≤ ((q.sq.take q.sent).filter (fun x => x.op = 2 || x.op = 4 || x.op = 5)).length) ∧
    (let s : State := { sending (qpW 1 0) with mem := { (sending (qpW 1 0)).mem with poison := [(0x80, false)] } }; poisoned s false (0x2000 + 0) 1 = true ∧ enters s (qpW 1 0) = true ∧ 0 < (wq 1).len ∧ (qpW 1 0).sq = [wq 1]) ∧
    (withQp (qpW 1 0)).fab.ethUp.getLsbD 0 = false := by decide +kernel
/-- The poster still has the post outstanding. -/
def posted (q : Qp) : State := change (sending q) (fun g => { g with outOps := [⟨1, 5, false⟩] })
theorem witness_responses : [1, 2, 3, 4, 5, 6].all (fun op => let q := qpW op 1; let s := posted q
      qpNum 7 q s && q.st = .rts && q.back = [] && q.resps = [] && q.sq.head? = some (wq op) && ctxByKey s q.ctx = some cx1 && enters s q && (agent s (wq op).owner).any (fun g => hasOp g (wq op).opId) && 0 < q.sent && pinned s (wq op)) = true ∧
    [QpState.error, .reset].all (fun st => let q := { qp0 with st }; qpNum 7 q (withQp q)) = true ∧ qp0.rnr = 0 ∧ (7 = 7 ∨ qp0.rnrTries < 7) := by decide +kernel
theorem witness_retries : (let q := qpW 1 1; qpNum 7 q (sending q) = true ∧ 0 < q.sent ∧ q.sq.head? = some (wq 1) ∧ q.sentAt + 4096 * 2 ^ q.ackTimeout = 4096 ∧ q.tries < q.retries) ∧ [4095, 4096].all (fun t => (late base t).fab.podNs = t) = true ∧
    (let q := { qpW 1 1 with tries := 1 }; qpNum 7 q (posted q) = true ∧ q.retries ≤ q.tries ∧ enters (late (posted q) 4096) q = true) ∧ qp0.sq = [] ∧ qp0.since + 55000 = 55000 := by decide +kernel
/-- A queue pair that receives into function 1's region, a receive buffer posted or not. -/
def receives (n : W64) : State := let s := memAt (sending { qp0 with st := .rtr }) 0x100800 [0x2000000000, 0x100000, 0, 0, n]
  { s with net := { s.net with mrs := [mr0] } }
theorem witness_incoming : [0, 1].all (fun (n : W64) => let q : Qp := { qp0 with st := .rtr }; let s := receives n
      qpNum 7 q s && q.rxq = [] && ctxByKey s q.ctx = some cx1 && !timeShared s (q.ctx / 65536) && s.fab.ethUp.getLsbD q.port && s.net.inops = [] && 0 < q.mtu && enters s q && !undoOpen s (q.ctx / 65536) q.fn &&
      farIndex s cx1 (q.rqBase.toNat + 16 * q.rqDepth) = n.toNat && (match farPlace s cx1 (q.rqBase.toNat + 16 * (q.rqHead % q.rqDepth)) .rd with
        | (s', some pa) => s' = s && pa = 0x100800
        | _ => false)) = true ∧
    (readNum (receives 1).mem.hbm 0x100804 4 = 32 ∧ readNum (receives 1).mem.hbm 0x100808 8 = 0x100000 ∧ (match rxPins (receives 1) { qp0 with st := .rtr } cx1 0x100000 8 with
      | (s', [p], .done) => s' = receives 1 ∧ p.loc = .dev 0 ∧ p.va ≤ 0x100000
      | _ => false) = true) ∧
    (∀ x ∈ (receives 0).net.mrs, x = mr0) ∧ (mr0.key ≠ 6 ∧ 0x100000 % 8 = 0 ∧ 0x100001 % 8 ≠ 0 ∧ 0x2000 % 8 = 0) ∧ (32 < (List.replicate 33 (0 : Byte)).length) ∧
    (let s : State := { receives 0 with mem := { (receives 0).mem with poison := [(0x80, false)] } }; poisoned s false 0x2000 8 = true ∧ poisoned (receives 0) false 0x2000 8 = false) ∧ (mr0.ctx = qp0.ctx ∧ mr0.key = 5 ∧ mr0.base ≤ 0x100000 ∧ 0x100000 + 8 ≤ mr0.base + mr0.len ∧ (mr0.w && mr0.rd && mr0.atomic && !mr0.revoked) = true) ∧
    [QpState.reset, .init, .error].all (fun st => let q := { qp0 with st }; qpNum 7 q (withQp q)) = true := by decide +kernel

/-! Issue and step. -/

/-- An addition of vector registers, the agent changed. -/
def adding (fn : Agent → Agent) : State := change (held (.vadd { plainT with oa := 3, ob := 2, dst := 0, ty := .s32 })) fn
def passes (s : State) (i : Instr) (op : Nat) (f : Fmt) : Bool := ((wordChecks s (me s) i op f).find? Prod.fst).isNone
theorem witness_issue : (let i : Instr := .vadd { plainT with oa := 3, ob := 2, dst := 0, ty := .s32 }
      let op := (opcode i).getD 0; let f := (fmtOf i).getD (.t plainT); let u := useOf op f
      (opcode i).isSome = true ∧ (fmtOf i).isSome = true ∧
        (agent (adding id) (adding id).cur = some (me (adding id)) ∧ (me (adding id)).trapPend = none ∧ (me (adding fun g => { g with poison := some 9 })).poison = some 9) ∧
        ((wordChecks (adding fun g => { g with need := 1 }) (me (adding fun g => { g with need := 1 })) i op f).find? Prod.fst).isSome = true ∧
        (passes (adding id) i op f = true ∧ ((u.dst ++ u.src).find? (fun r => r.file = 0 && (me (adding fun g => { g with alloc := 3 })).alloc ≤ r.num)).isSome = true ∧
          (u.dst ++ u.src).find? (fun r => r.file = 0 && (me (adding id)).alloc ≤ r.num) = none) ∧
        u.dst = [⟨0, 0⟩] ∧ (let p : Pend := ⟨1, true, [⟨0, 0⟩], 2, 1, ⟨[], [], 0, none⟩⟩; 0 < p.win ∧ { p with win := 0 }.left ≠ 0)) ∧
    spawnBegun base base.cur 0x048 = false ∧ spawnBegun base base.cur 1 = false ∧
    spawnBegun { base with sched := { base.sched with ios := [⟨0, .agent base.cur, 0, .out⟩] } } base.cur 0x048 = true := by decide +kernel
theorem witness_step : wordsOfTheManual.all (fun p => let s := State.reset.withFetchWord 64 p.1; let t := takeTurn s s.cur
      (nextInternal s).isNone && s.late = [] && s.inbox = [] && chooseAgent s = some s.cur && (agent t s.cur).any (fun g => g.clause.isSome && g.waited && decodeIn t g (curWord g) = some p.2)) = true ∧
    State.reset.inbox = [] ∧ State.reset.late = [] ∧ waitsUndo { State.reset with late := [.thermalShutdown] } .thermalShutdown = false ∧ (nextInternal State.reset).isNone = true ∧ chooseAgent State.reset = none ∧ ({ State.reset with inbox := [.thermalShutdown] } : State).inbox ≠ [] ∧
    opcode .thermalShutdown = none ∧ (agent base base.cur).isSome = true ∧ (let s := change base (fun g => { g with clause := none }); chooseAgent s = some wp0 ∧ (nextInternal s).isNone = true) ∧
    [none, some 9].all (fun p => let s := change (State.reset.withFetchWord 64 0x3FF) (fun g => { g with poison := p }); let t := takeTurn s s.cur
      (nextInternal s).isNone && chooseAgent s = some s.cur && (agent t s.cur).any (fun g => g.clause.isSome && g.waited && g.poison = p && decodeIn t g (curWord g) = none)) = true := by decide +kernel
theorem witness_only_events : OnlyEvents State.reset ∧ OnlyEvents { base with inbox := [.thermalShutdown] } := by
  unfold OnlyEvents; decide +kernel
theorem witness_memory : Memory.wf State.reset.mem.hbm = true ∧ Memory.wf State.reset.mem.yard = true ∧ Memory.wf base.mem.hbm = true ∧
    [State.reset, base].all (fun s => match step s with
      | .next _ => true
      | _ => false) = true := by decide +kernel
/-- Partition 1 time-shared, its undo log as full as it can be. -/
def undoLogFull : State := turns { ck0 with lines := List.replicate (Config.undoCap (thePart base).logu + 1) (1, 0, 0, 0) } [0]
/- A full undo log holds back a store and what arrives; a full register log every operation. -/
theorem witness_full_logs : waitsUndo undoLogFull (.writePacket (writeP 1)) = true ∧
    (let s := modAgent (turns ck0 [0]) wp0 (fun g => { g with logged := List.replicate 482 0 })
     (agent s wp0).any (fun g => logWait s wp0 g 1 (.t plainT)) = true) := by
  refine ⟨?_, by decide +kernel⟩
  have h : waitsUndo undoLogFull (.writePacket (writeP 1)) =
    decide (Config.undoCap (thePart base).logu + 1 ≤ (List.replicate (Config.undoCap (thePart base).logu + 1) (1, 0, 0, 0)).length) := by rfl
  rw [h, List.length_replicate]; exact decide_eq_true (Nat.le_refl _)
end Sys2Proof.Tests
end

section
/-! SUPPORT. Bits of masks, and what an operation leaves of the module, the partition table and the functions: one frame for what
reaches the host side of a list of functions, one for what ends claims and requests. -/

namespace Sys2Proof.Machine

/-! Bits. -/

theorem getLsbD_setBit {w : Nat} (x : BitVec w) (i : Nat) (b : Bool) (j : Nat) :
    (setBit x i b).getLsbD j = (decide (j < w) && if j = i then b else x.getLsbD j) := by
  have low : x.toNat % 2 ^ i < 2 ^ i := Nat.mod_lt _ (Nat.two_pow_pos i)
  have v2 : (if b then 1 else 0) % 2 ^ (i + 1 - i) = b.toNat := by cases b <;> simp
  have whole : x.toNat % 2 ^ i + (if b then 1 else 0) % 2 ^ (i + 1 - i) * 2 ^ i + (x.toNat >>> (i + 1)) * 2 ^ (i + 1)
      = 2 ^ i * (2 ^ 1 * (x.toNat >>> (i + 1)) + b.toNat) + x.toNat % 2 ^ i := by
    rw [v2, Nat.pow_succ, Nat.pow_one, Nat.mul_add, Nat.mul_comm b.toNat, Nat.mul_comm (x.toNat >>> (i + 1)), Nat.mul_assoc]
    omega
  have high : b.toNat < 2 ^ 1 := Bool.toNat_lt b
  rw [setBit, setFld, BitVec.getLsbD_ofNat, whole, Nat.testBit_two_pow_mul_add _ low]
  congr 1
  by_cases hlt : j < i
  · rw [if_pos hlt, if_neg (Nat.ne_of_lt hlt), Nat.testBit_mod_two_pow, decide_eq_true hlt, Bool.true_and, BitVec.getLsbD]
  · rw [if_neg hlt, Nat.testBit_two_pow_mul_add _ high]
    obtain rfl | hgt := Nat.eq_or_lt_of_not_lt hlt
    · cases b <;> simp
    · rw [if_neg (by omega), if_neg (by omega), Nat.testBit_shiftRight, BitVec.getLsbD]
      congr 1; omega

theorem getLsbD_maskFold {w : Nat} (ls : List Nat) (m : BitVec w) (i : Nat) :
    (ls.foldl (fun m i => m ||| (1#w <<< i)) m).getLsbD i = (m.getLsbD i || (decide (i < w) && decide (i ∈ ls))) := by
  induction ls generalizing m with
  | nil => simp
  | cons k r ih =>
    rw [List.foldl_cons, ih]
    by_cases h : i = k
    · subst h; by_cases hw : i < w <;> simp [hw]
    · have : (1#w <<< k).getLsbD i = false := by
        rw [BitVec.getLsbD_shiftLeft]; by_cases hk : i < k <;> simp [hk]; omega
      simp [this, h]
theorem getLsbD_maskOf {w : Nat} (ls : List Nat) (i : Nat) : (maskOf w ls).getLsbD i = (decide (i < w) && decide (i ∈ ls)) := by
  rw [maskOf, getLsbD_maskFold]; simp

/-! Folds. -/

/-- Steps that each stand in a reflexive, transitive relation to the state before them do so together. -/
theorem foldl_frame {α : Type} {R : State → State → Prop} {f : State → α → State} (refl : ∀ s, R s s)
    (trans : ∀ {s t u}, R s t → R t u → R s u) (l : List α) (h : ∀ s, ∀ x ∈ l, R s (f s x)) (s : State) : R s (l.foldl f s) :=
  List.foldlRecOn l f (refl s) (fun t ht x hx => trans ht (h t x hx))

/-! The host side. -/

@[simp] theorem func_setFunc (s : State) (fn : Nat) (f : Func) : func (setFunc s fn f) fn = some f := lkp_ins_self _ _ _
theorem func_setFunc_ne (s : State) {fn n : Nat} (h : n ≠ fn) (f : Func) : func (setFunc s fn f) n = func s n := lkp_ins_ne _ h.symm _

/-- What reaches the host side of the listed functions: the module, the partitions, the translations and the fabric stand as they were, so do
all other functions, and no record that was written is lost. -/
structure HostStep (fns : List Nat) (s t : State) : Prop where
  mod : t.mod = s.mod
  part : t.part = s.part
  xl : t.xl = s.xl
  fab : t.fab = s.fab
  others : ∀ n, n ∉ fns → func t n = func s n
  events : s.host.events ⊆ t.host.events

namespace HostStep
theorem refl (fns : List Nat) (s : State) : HostStep fns s s := ⟨rfl, rfl, rfl, rfl, fun _ _ => rfl, List.Subset.refl _⟩
theorem trans {fns : List Nat} {s t u : State} (h : HostStep fns s t) (k : HostStep fns t u) : HostStep fns s u :=
  ⟨k.mod.trans h.mod, k.part.trans h.part, k.xl.trans h.xl, k.fab.trans h.fab, fun n hn => (k.others n hn).trans (h.others n hn),
    List.Subset.trans h.events k.events⟩
theorem mono {fns gns : List Nat} {s t : State} (h : HostStep fns s t) (hs : fns ⊆ gns) : HostStep gns s t :=
  { h with others := fun n hn => h.others n (fun hm => hn (hs hm)) }
/-- A step for each function of a list is a step for the list. -/
theorem fold {f : State → Nat → State} (h : ∀ s fn, HostStep [fn] s (f s fn)) (fns : List Nat) (s : State) :
    HostStep fns s (fns.foldl f s) :=
  foldl_frame (refl fns) trans fns (fun s fn hm => (h s fn).mono (List.cons_subset.2 ⟨hm, List.nil_subset _⟩)) s
end HostStep

theorem setFunc_hostStep (s : State) (fn : Nat) (f : Func) : HostStep [fn] s (setFunc s fn f) :=
  ⟨rfl, rfl, rfl, rfl, fun _ hn => func_setFunc_ne s (List.ne_of_not_mem_cons hn) f, List.Subset.refl _⟩
theorem modFunc_hostStep (s : State) (fn : Nat) (h : Func → Func) : HostStep [fn] s (modFunc s fn h) := by
  unfold modFunc; split
  · exact setFunc_hostStep s fn _
  · exact .refl _ s
theorem signal_hostStep (s : State) (fn v : Nat) : HostStep [fn] s (signal s fn v) := by
  unfold signal; split
  · exact .refl _ s
  · split
    · exact ⟨rfl, rfl, rfl, rfl, fun _ _ => rfl, List.Subset.refl _⟩
    · exact setFunc_hostStep s fn _
theorem useNext_hostStep (s : State) (fn q : Nat) : HostStep [fn] s (useNext s fn q) := by
  unfold useNext; split
  · exact .refl _ s
  · next f hf =>
    simp only
    generalize hu : setFunc s fn _ = u
    have hs : HostStep [fn] s u := hu ▸ setFunc_hostStep s fn _
    split
    · exact hs.trans (signal_hostStep u fn _)
    · have hs' : HostStep [fn] s { u with freeIx := u.freeIx + 1 } := ⟨hs.mod, hs.part, hs.xl, hs.fab, hs.others, hs.events⟩
      split
      · exact hs'.trans (signal_hostStep _ fn _)
      · exact hs'
theorem cfgChange_hostStep (s : State) (fn : Nat) : HostStep [fn] s (cfgChange s fn) :=
  (modFunc_hostStep s fn _).trans (signal_hostStep _ fn 0)
theorem syncFunc_hostStep (s : State) (fn : Nat) : HostStep [fn] s (syncFunc s fn) := by
  unfold syncFunc; split
  · simp only
    split
    · exact .refl _ s
    · exact (setFunc_hostStep s fn _).trans (cfgChange_hostStep _ fn)
  · exact .refl _ s
theorem syncFuncs_hostStep (s : State) : HostStep (allFns s) s (syncFuncs s) := HostStep.fold syncFunc_hostStep (allFns s) s

/-! Records (R113, R114). -/

/-- A record written is among the function's records, and its function's queue moves on. -/
theorem writeEvent_hostStep (s : State) (fn : Nat) (f : Func) (r : EvRec) : HostStep [fn] s (writeEvent s fn f r) := by
  have put : HostStep [fn] s { setFunc s fn { f with seq := f.seq + 1, buffers := f.buffers - 1 } with
      host := { (setFunc s fn { f with seq := f.seq + 1, buffers := f.buffers - 1 }).host with
        events := s.host.events ++ [{ r with seq := f.seq.toNat }] } } :=
    { setFunc_hostStep s fn { f with seq := f.seq + 1, buffers := f.buffers - 1 } with events := List.subset_append_left _ _ }
  exact put.trans (useNext_hostStep _ fn 1)
theorem writeEvent_written (s : State) (fn : Nat) (f : Func) (r : EvRec) :
    ({ r with seq := f.seq.toNat } : EvRec) ∈ (writeEvent s fn f r).host.events :=
  (useNext_hostStep _ fn 1).events (List.mem_append_right _ (List.mem_singleton.mpr rfl))
theorem takeEvent_hostStep (s : State) (r : EvRec) : HostStep [r.fn] s (takeEvent s r) := by
  unfold takeEvent; split
  · exact .refl _ s
  · split
    · exact writeEvent_hostStep s r.fn _ r
    · exact setFunc_hostStep s r.fn _
theorem postEvent_hostStep (s : State) (fn kind ctx : Nat) (payload : BitVec 256) : HostStep [fn] s (postEvent s fn kind ctx payload) := by
  unfold postEvent; split
  · exact .refl _ s
  · next f _ =>
    simp only
    split
    · exact ⟨rfl, rfl, rfl, rfl, fun _ _ => rfl, List.Subset.refl _⟩
    · exact takeEvent_hostStep s ⟨fn, kind, 0, f.gen.toNat, ctx, s.fab.podNs, payload⟩
theorem postAll_hostStep (s : State) (fns : List Nat) (kind ctx : Nat) (payload : BitVec 256) :
    HostStep fns s (postAll s fns kind ctx payload) := HostStep.fold (fun s fn => postEvent_hostStep s fn kind ctx payload) fns s
/-- A function that takes records, holds none and is not a time-shared tenant's gets the record written. -/
theorem postEvent_posted (s : State) (fn kind ctx : Nat) (payload : BitVec 256) : Posted s (postEvent s fn kind ctx payload) fn kind ctx payload := by
  intro f hf hr hb hh ht
  have now : ¬(fn ≠ 0 && timeShared s f.part.toNat) = true := by
    obtain h | h := ht <;> simp [h]
  have takes : (canWrite f && f.held = []) = true := by simp [canWrite, hr, hb, hh]
  simp only [postEvent, hf, now, takeEvent, takes, if_true]
  exact writeEvent_written s fn f _
theorem postAll_posted (s : State) (fns : List Nat) (kind ctx : Nat) (payload : BitVec 256) :
    PostedAll s (postAll s fns kind ctx payload) fns kind ctx payload := by
  rintro pre fn post rfl hpre f hf hr hb hh ht
  have before : HostStep pre s (postAll s pre kind ctx payload) := postAll_hostStep s pre kind ctx payload
  have here := postEvent_posted (postAll s pre kind ctx payload) fn kind ctx payload f ((before.others fn hpre).trans hf) hr hb hh
    (by rw [timeShared, before.part]; exact ht)
  have after : HostStep post _ (postAll (postEvent (postAll s pre kind ctx payload) fn kind ctx payload) post kind ctx payload) :=
    postAll_hostStep _ post kind ctx payload
  have split : postAll s (pre ++ fn :: post) kind ctx payload
      = postAll (postEvent (postAll s pre kind ctx payload) fn kind ctx payload) post kind ctx payload := List.foldl_append ..
  rw [split, ← before.fab]
  exact after.events here

/-- Function f' takes records as f does, with the same numbers. -/
structure SameTaker (f f' : Func) : Prop where
  gen : f'.gen = f.gen
  part : f'.part = f.part
  seq : f'.seq = f.seq
  reading : f'.reading = f.reading
  buffers : f'.buffers = f.buffers
  held : f'.held = f.held
theorem SameTaker.refl (f : Func) : SameTaker f f := ⟨rfl, rfl, rfl, rfl, rfl, rfl⟩
theorem SameTaker.trans {f g h : Func} (a : SameTaker f g) (b : SameTaker g h) : SameTaker f h :=
  ⟨b.gen.trans a.gen, b.part.trans a.part, b.seq.trans a.seq, b.reading.trans a.reading, b.buffers.trans a.buffers, b.held.trans a.held⟩
/-- Every function of s takes records in t as it does in s. -/
def SameTakers (s t : State) : Prop := ∀ n f, func s n = some f → ∃ f', func t n = some f' ∧ SameTaker f f'
/-- What is posted to takers that are the same, at the same time, is posted to them. -/
theorem PostedAll.of_takers {s u t : State} {fns : List Nat} {kind ctx : Nat} {payload : BitVec 256} (h : PostedAll u t fns kind ctx payload)
    (hs : SameTakers s u) (hn : u.fab.podNs = s.fab.podNs) (ht : ∀ p, timeShared u p = timeShared s p) : PostedAll s t fns kind ctx payload := by
  intro pre fn post hfns hpre f hf hr hb hh hnow
  obtain ⟨f', hf', k⟩ := hs fn f hf
  have := h pre fn post hfns hpre f' hf' (k.reading.trans hr) (k.buffers ▸ hb) (k.held.trans hh) (by rw [k.part, ht]; exact hnow)
  rwa [k.seq, k.gen, hn] at this

/-! ## A function's view of its partition (R104). -/

theorem signal_taker {s : State} {fn v : Nat} {f : Func} (h : func s fn = some f) : ∃ f', func (signal s fn v) fn = some f' ∧ SameTaker f f' := by
  simp only [signal, h]
  split
  · exact ⟨f, h, .refl f⟩
  · exact ⟨_, func_setFunc _ _ _, ⟨rfl, rfl, rfl, rfl, rfl, rfl⟩⟩
theorem cfgChange_taker {s : State} {fn : Nat} {f : Func} (h : func s fn = some f) : ∃ f', func (cfgChange s fn) fn = some f' ∧ SameTaker f f' := by
  have hm : func (modFunc s fn (fun f => { f with cfgGen := f.cfgGen + 1 })) fn = some { f with cfgGen := f.cfgGen + 1 } := by
    simp [modFunc, h]
  obtain ⟨f', hf', k⟩ := signal_taker (v := 0) hm
  exact ⟨f', hf', k.gen, k.part, k.seq, k.reading, k.buffers, k.held⟩
/-- The partition a function shows by the partition table. -/
def shownPart (s : State) (fn : Nat) : BitVec 16 :=
  ((s.part.parts.find? (fun p => (partVfs p).contains fn)).map (fun p => BitVec.ofNat 16 p.part)).getD 0xFFFF
/-- A view of the partition the function shows already changes nothing that records depend on. -/
theorem viewOf_taker {s : State} {f : Func} {o : Option Part} (h : f.part = (o.map (fun p => BitVec.ofNat 16 p.part)).getD 0xFFFF) :
    SameTaker f (viewOf s f o) := by
  cases o <;> exact ⟨rfl, h.symm, rfl, rfl, rfl, rfl⟩
/-- A function that shows the right partition takes records as before when its view is brought up to date. -/
theorem syncFunc_taker {s : State} {fn : Nat} {f : Func} (h : func s fn = some f) (hv : fn ≠ 0 → f.part = shownPart s fn) :
    ∃ f', func (syncFunc s fn) fn = some f' ∧ SameTaker f f' := by
  simp only [syncFunc, h]
  split
  · exact ⟨f, h, .refl f⟩
  · next hc =>
    have hfn : fn ≠ 0 := fun h0 => hc (by simp [h0])
    obtain ⟨f', hf', k⟩ := cfgChange_taker (func_setFunc s fn (viewOf s f (s.part.parts.find? (fun p => (partVfs p).contains fn))))
    exact ⟨f', hf', (viewOf_taker (hv hfn)).trans k⟩
theorem syncFuncs_takers {s : State} (hv : ∀ fn f, fn ≠ 0 → func s fn = some f → f.part = shownPart s fn) : SameTakers s (syncFuncs s) := by
  have keep : HostStep (allFns s) s (syncFuncs s) ∧ SameTakers s (syncFuncs s) := by
    refine List.foldlRecOn (motive := fun t => HostStep (allFns s) s t ∧ SameTakers s t) (allFns s) syncFunc
      ⟨.refl _ s, fun n f h => ⟨f, h, .refl f⟩⟩ ?_
    rintro t ⟨hst, htk⟩ fn hfn
    have one := syncFunc_hostStep t fn
    refine ⟨hst.trans (one.mono (List.cons_subset.2 ⟨hfn, List.nil_subset _⟩)), fun n f h => ?_⟩
    obtain ⟨g, hg, k⟩ := htk n f h
    by_cases hn : n = fn
    · subst hn
      have shown : n ≠ 0 → g.part = shownPart t n := fun h0 => by
        rw [k.part, hv n f h0 h, shownPart, shownPart, hst.part]
      obtain ⟨g', hg', k'⟩ := syncFunc_taker hg shown
      exact ⟨g', hg', k.trans k'⟩
    · exact ⟨g, (one.others n (by simpa using hn)).trans hg, k⟩
  exact keep.2

end Sys2Proof.Machine
end

section
/-! SUPPORT. What ending claims and posted requests leaves: the module and the partition table. -/

namespace Sys2Proof.Machine

/-- The module's own state and the partition table stand as they were. -/
structure SameModPart (s t : State) : Prop where
  mod : t.mod = s.mod
  part : t.part = s.part

namespace SameModPart
theorem refl (s : State) : SameModPart s s := ⟨rfl, rfl⟩
theorem trans {s t u : State} (h : SameModPart s t) (k : SameModPart t u) : SameModPart s u := ⟨k.mod.trans h.mod, k.part.trans h.part⟩
/-- The same from an earlier state, where the two fields stand as they did then. -/
theorem after {s t u : State} (k : SameModPart t u) (hm : t.mod = s.mod) (hp : t.part = s.part) : SameModPart s u := trans ⟨hm, hp⟩ k
/-- The same to a later state. -/
theorem upTo {s t u : State} (h : SameModPart s t) (hm : u.mod = t.mod) (hp : u.part = t.part) : SameModPart s u := trans h ⟨hm, hp⟩
theorem fold {α : Type} {f : State → α → State} (h : ∀ s x, SameModPart s (f s x)) (l : List α) (s : State) : SameModPart s (l.foldl f s) :=
  foldl_frame refl trans l (fun s x _ => h s x) s
end SameModPart
theorem HostStep.sameModPart {fns : List Nat} {s t : State} (h : HostStep fns s t) : SameModPart s t := ⟨h.mod, h.part⟩

/-! Completions (R204 to R207). -/

theorem modAgent_sameModPart (s : State) (a : AgentId) (f : Agent → Agent) : SameModPart s (modAgent s a f) := by
  unfold modAgent; split <;> exact ⟨rfl, rfl⟩
theorem modBlock_sameModPart (s : State) (b : Nat) (f : Block → Block) : SameModPart s (modBlock s b f) := by
  unfold modBlock; split <;> exact ⟨rfl, rfl⟩
theorem modOp_sameModPart (s : State) (a : AgentId) (opId : Nat) (f : Agent → Agent) : SameModPart s (modOp s a opId f) := by
  unfold modOp; split
  · exact modAgent_sameModPart s a f
  · exact ⟨rfl, rfl⟩
theorem modBlockSaved_sameModPart (s : State) (b : Nat) (f : Block → Block) : SameModPart s (modBlockSaved s b f) := by
  unfold modBlockSaved; split
  · exact modBlock_sameModPart s b f
  · exact ⟨rfl, rfl⟩
theorem deliver_sameModPart (s : State) (a : AgentId) (blk : Nat) (c : Compl) (opId bytes cls st : Nat) :
    SameModPart s (deliver s a blk c opId bytes cls st) := by
  unfold deliver; split
  · exact .refl s
  · exact modBlockSaved_sameModPart s blk _
  · exact modOp_sameModPart s a opId _
theorem complete_sameModPart (s : State) (a : AgentId) (blk : Nat) (c : Compl) (opId bytes cls st : Nat) :
    SameModPart s (complete s a blk c opId bytes cls st) :=
  (deliver_sameModPart s a blk c opId bytes cls st).trans (modOp_sameModPart _ a opId _)

/-! Completion entries (R86, R87). -/

theorem logByte_sameModPart (ten : Option Nat) (s : State) (pa : Nat) : SameModPart s (logByte ten s pa) := by
  unfold logByte; split <;> exact ⟨rfl, rfl⟩
theorem hbmWriteFor_sameModPart (ten : Option Nat) (s : State) (pa : Nat) (bs : List Byte) : SameModPart s (hbmWriteFor ten s pa bs) :=
  (SameModPart.fold (fun s i => logByte_sameModPart ten s (pa + i)) (List.range bs.length) s).trans ⟨rfl, rfl⟩
theorem farPlace_sameModPart (s : State) (c : Ctx) (va : Nat) (acc : Acc) : SameModPart s (farPlace s c va acc).1 := by
  unfold farPlace; split
  · split
    · exact .refl s
    · split <;> exact ⟨rfl, rfl⟩
  · exact .refl s
theorem farPut_sameModPart (ten : Option (Option Nat)) (s : State) (c : Ctx) (va : Nat) (bs : List Byte) : SameModPart s (farPut ten s c va bs) := by
  have found := farPlace_sameModPart s c va .wr
  unfold farPut; split
  · next u pa hp =>
    rw [hp] at found
    split
    · exact found.trans (hbmWriteFor_sameModPart _ u pa bs)
    · exact found.trans ⟨rfl, rfl⟩
  · next u hp => rw [hp] at found; exact found
theorem writeCqe_sameModPart (s : State) (q : Qp) (rx : Bool) (wrid bytes st op : Nat) : SameModPart s (writeCqe s q rx wrid bytes st op).1 := by
  have both (ten : Option (Option Nat)) (cx : Ctx) (a b : Nat) (x y : List Byte) : SameModPart s (farPut ten (farPut ten s cx a x) cx b y) :=
    (farPut_sameModPart ten s cx a x).trans (farPut_sameModPart ten _ cx b y)
  unfold writeCqe; split
  · split
    · exact .refl s
    · simp only
      generalize hu : farPut _ (farPut _ _ _ _ _) _ _ _ = u
      have k : SameModPart s u := by rw [← hu]; exact both _ _ _ _ _ _
      exact ⟨k.mod, k.part⟩
  · exact .refl s

/-! Queue pairs that enter Error (R99, R100). -/

theorem dropInops_sameModPart (s : State) (qs : List Nat) : SameModPart s (dropInops s qs) := by
  have drop (s : State) (o : InOp) : SameModPart s (ioDrop s (.inop o.n)) := ⟨rfl, rfl⟩
  exact (SameModPart.fold drop _ s).upTo rfl rfl
theorem qpIoDrop_sameModPart (s : State) (n : Nat) : SameModPart s (qpIoDrop s n) := ⟨rfl, rfl⟩
theorem dropHeldNet_sameModPart (s : State) (qs : List Nat) : SameModPart s (dropHeldNet s qs) := ⟨rfl, rfl⟩
theorem netDeliver_sameModPart (s : State) (w : NetWq) (bytes st : Nat) : SameModPart s (netDeliver s w bytes st) :=
  complete_sameModPart s w.owner w.blk w.compl w.opId bytes 5 st
theorem cqOverrun_sameModPart (s : State) (q : Qp) : SameModPart s (cqOverrun s q) := by
  have ends (s : State) (x : Qp) : SameModPart s
      (x.sq.foldl (fun s w => netDeliver s w 0 7) (postEvent s x.fn 0x0A (x.ctx % 65536) (payWords [x.qpn]))) :=
    (postEvent_hostStep s x.fn _ _ _).sameModPart.trans (SameModPart.fold (fun s w => netDeliver_sameModPart s w 0 7) _ _)
  unfold cqOverrun
  refine SameModPart.trans ?_ (postEvent_hostStep _ _ _ _ _).sameModPart
  refine SameModPart.trans ?_ (SameModPart.fold ends _ _)
  refine SameModPart.trans ?_ (dropHeldNet_sameModPart _ _)
  refine SameModPart.trans ?_ (dropInops_sameModPart _ _)
  exact (SameModPart.fold (fun s (x : Qp) => qpIoDrop_sameModPart s x.qpn) _ _).after rfl rfl
theorem netComplete_sameModPart (s : State) (q : Qp) (w : NetWq) (bytes st : Nat) : SameModPart s (netComplete s q w bytes st) := by
  have written := writeCqe_sameModPart s q false w.wrid.toNat bytes st w.op
  unfold netComplete; split
  · next u h => rw [h] at written; exact written.trans (netDeliver_sameModPart u w bytes st)
  · next u h =>
    rw [h] at written
    exact (written.trans (netDeliver_sameModPart u w 0 0x0B)).trans (cqOverrun_sameModPart _ q)
theorem netFlush_sameModPart (q : Qp) (l : List (NetWq × Nat)) (s : State) : SameModPart s (netFlush s q l) := by
  induction l generalizing s with
  | nil => exact .refl s
  | cons x r ih => exact (netComplete_sameModPart s q x.1 0 x.2).trans (ih _)
theorem qpError_sameModPart (s : State) (q : Qp) (st : NetWq → Nat) : SameModPart s (qpError s q st) := by
  unfold qpError
  refine SameModPart.trans ?_ (netFlush_sameModPart q _ _)
  have posted : SameModPart s (postEvent (setQp s (qpDead q)) q.fn 0x0A (q.ctx % 65536) (payWords [q.qpn])) :=
    (postEvent_hostStep (setQp s (qpDead q)) _ _ _ _).sameModPart.after rfl rfl
  exact ((posted.trans (qpIoDrop_sameModPart _ _)).trans (dropInops_sameModPart _ _)).trans (dropHeldNet_sameModPart _ _)
theorem netRevoke_sameModPart (s : State) (q : Range) : SameModPart s (netRevoke s q) := by
  unfold netRevoke
  refine SameModPart.fold (fun s x0 => ?_) _ s
  split
  · split
    · exact qpError_sameModPart s _ _
    · exact .refl s
  · exact .refl s

/-! Claims (Table 22-5). -/

theorem settleHalo_sameModPart (s : State) (id : ClaimId) (c : Claim) : SameModPart s (settleHalo s id c) := by
  unfold settleHalo; split
  · exact ⟨rfl, rfl⟩
  · split <;> exact ⟨rfl, rfl⟩
theorem invalClaim_sameModPart (q : Range) (reason : Nat) (s : State) (id : ClaimId) (c : Claim) : SameModPart s (invalClaim q reason s id c) := by
  unfold invalClaim; split
  · exact .refl s
  · split
    case h_3 => split <;> exact ⟨rfl, rfl⟩
    case h_6 =>
      split
      · exact settleHalo_sameModPart s id _
      · exact ⟨rfl, rfl⟩
    all_goals exact ⟨rfl, rfl⟩
theorem invalClaims_sameModPart (s : State) (q : Range) (reason : Nat) : SameModPart s (invalClaims s q reason) := by
  unfold invalClaims
  refine (SameModPart.fold (fun s e => ?_) _ _).after rfl rfl
  split
  · exact invalClaim_sameModPart q reason s e.1 _
  · exact .refl s

end Sys2Proof.Machine
end

section
/-! The module's events (01): bring-up, service cores, heat and scrub, each by the equation of its operation, and O48 from them. -/

namespace Sys2Proof.Machine

/-! ## Bring-up (R21, R22). -/

theorem lkp_map_const {α : Type} (l : List Nat) (v : α) (n : Nat) : lkp (l.map (fun k => (k, v))) n = if n ∈ l then some v else none := by
  induction l with
  | nil => rfl
  | cons k r ih =>
    by_cases h : k = n
    · simp [lkp, h]
    · simp [lkp, h, ih, Ne.symm h]
theorem powerOff_cleared (s : State) (p : Power) : Cleared s (powerOff s p) := ⟨rfl, rfl, rfl, rfl, rfl, rfl, rfl, rfl, rfl, rfl, rfl, rfl, rfl, rfl⟩
/-- Each bit of the failure cause stands for its check, and no bit means that every check passed. -/
theorem failCause_bits (b : BringUp) : (failCause b).getLsbD 0 = !b.bundleOk ∧ (failCause b).getLsbD 1 = decide (b.stacksOk ≠ 0xFFF) ∧
    (failCause b).getLsbD 2 = decide (b.diesOk ≠ 0xF) ∧ (failCause b = 0 ↔ b.bundleOk = true ∧ b.stacksOk = 0xFFF ∧ b.diesOk = 0xF) := by
  unfold failCause
  by_cases hs : b.stacksOk = 0xFFF <;> by_cases hd : b.diesOk = 0xF <;> cases b.bundleOk <;>
    simp only [hs, hd, ne_eq, if_true, if_false, Bool.false_eq_true] <;> decide
/-- A stack is lost where neither of its service cores passed. -/
theorem lostStacks_bit (failed : BitVec 24) {i : Nat} (h : i < 12) :
    (lostStacks failed).getLsbD i = (failed.getLsbD (2 * i) && failed.getLsbD (2 * i + 1)) := by
  rw [lostStacks, getLsbD_maskOf]
  simp [h]
theorem leads_iff (pass : BitVec 24) (c : Nat) : Leads pass c ↔ ∃ k, k < 12 ∧ c = 2 * k + 1 ∧ pass.getLsbD (2 * k + 1) = true := by
  constructor
  · rintro ⟨hc, ho, hp⟩
    have hk : 2 * (c / 2) + 1 = c := by omega
    exact ⟨c / 2, by omega, hk.symm, hk.symm ▸ hp⟩
  · rintro ⟨k, hk, rfl, hp⟩
    exact ⟨by omega, by omega, hp⟩
/-- Of the twelve command cores, one that is not among the failed has passed. -/
theorem commandCore_passed (pass : BitVec 24) {k : Nat} (hk : k < 12) : (!(~~~pass).getLsbD (2 * k + 1)) = pass.getLsbD (2 * k + 1) := by
  have hlt : 2 * k + 1 < 24 := by omega
  rw [BitVec.getLsbD_not, decide_eq_true hlt, Bool.true_and, Bool.not_not]
theorem leaderOf_some {pass : BitVec 24} {c : Nat} (h : leaderOf (~~~pass) = some c) : Leads pass c ∧ ∀ d, Leads pass d → c ≤ d := by
  rw [leaderOf, List.find?_map, Option.map_eq_some_iff] at h
  obtain ⟨k, hk, rfl⟩ := h
  obtain ⟨hp, hm, hlow⟩ := List.find?_range_eq_some.mp hk
  have hk12 : k < 12 := List.mem_range.mp hm
  refine ⟨(leads_iff pass _).mpr ⟨k, hk12, rfl, (commandCore_passed pass hk12).symm.trans hp⟩, fun d hd => ?_⟩
  obtain ⟨j, hj12, rfl, hj⟩ := (leads_iff pass d).mp hd
  have notBelow : ¬j < k := fun hjk => by
    have failed : (!!(~~~pass).getLsbD (2 * j + 1)) = true := hlow j hjk
    rw [commandCore_passed pass hj12, hj] at failed
    cases failed
  omega
theorem leaderOf_none {pass : BitVec 24} (h : leaderOf (~~~pass) = none) (d : Nat) : ¬Leads pass d := by
  rw [leads_iff]
  rintro ⟨k, hk, rfl, hp⟩
  have listed : 2 * k + 1 ∈ (List.range 12).map (fun s => 2 * s + 1) := List.mem_map.mpr ⟨k, List.mem_range.mpr hk, rfl⟩
  exact List.find?_eq_none.mp h _ listed ((commandCore_passed pass hk).trans hp)

theorem powerGoodOp_up {s : State} (h : s.mod.power = .ready ∨ s.mod.power = .presented) (b : BringUp) : powerGoodOp s b = s := by
  simp only [powerGoodOp]; rw [if_pos]; simpa using h
/-- What POWER_GOOD leaves of the module where it was down. -/
theorem powerGoodOp_down {s : State} (hr : s.mod.power ≠ .ready) (hp : s.mod.power ≠ .presented) (b : BringUp) :
    powerGoodOp s b = { powerOff s .ready with mod := { (powerOff s .ready).mod with
      poddev := b.poddev, fwver := b.fwver, fault := failCause b, scFailed := ~~~b.scPass, leader := leaderOf (~~~b.scPass)
      stackLost := lostStacks (~~~b.scPass), inForce := s.mod.sel, rollback := if b.bundleOk then max s.mod.rollback (selVersion s) else s.mod.rollback } } := by
  simp only [powerGoodOp]; rw [if_neg]; simp [hr, hp]
theorem presentOp_func {s : State} (h : s.mod.power = .ready) (n : Nat) :
    func (presentOp s) n = if n < 33 then some (Func.fresh (decide (s.mod.fault ≠ 0))) else none := by
  simp only [presentOp, h, if_true, func, lkp_map_const, List.mem_range]

/-- POWER_GOOD, presentation and the two ways power goes, from the equations of bring-up. -/
theorem theModuleComesUp : TheModuleComesUp := by
  refine ⟨fun b s => ⟨fun h => ?_, fun hr hp => ?_⟩, fun s => ⟨fun h => ?_, fun h => ?_, ?_, ?_⟩⟩
  · exact congrArg (fun t => Host.Outcome.next (progress t)) (powerGoodOp_up h b)
  · obtain ⟨bundle, stack, die, good⟩ := failCause_bits b
    refine ⟨_, congrArg (fun t => Host.Outcome.next (progress t)) (powerGoodOp_down hr hp b), powerOff_cleared s .ready, rfl, rfl, rfl, rfl, rfl,
      fun i hi => ?_, bundle, stack, die, good, fun h => if_pos h, fun h => if_neg (by simp [h]), fun c => leaderOf_some, leaderOf_none⟩
    have h0 : 2 * i < 24 := by omega
    have h1 : 2 * i + 1 < 24 := by omega
    simp [lostStacks_bit _ hi, h0, h1]
  · have : presentOp s = s := if_neg h
    exact congrArg (fun t => Host.Outcome.next (progress t)) this
  · have shown (n : Nat) : func (progress (presentOp s)) n = _ := presentOp_func h n
    refine ⟨_, rfl, ?_, ?_, fun n hn => ?_, fun n hn => ?_⟩
    · simp [presentOp, h]
    · simp [presentOp, h]
    · rw [shown, if_neg (by omega)]
    · exact ⟨_, by rw [shown, if_pos hn], rfl, rfl, rfl, rfl, rfl⟩
  · exact ⟨_, rfl, powerOff_cleared s .shutdown, rfl⟩
  · exact ⟨_, rfl, powerOff_cleared s .off, rfl, rfl⟩

/-! ## Service cores (R15). -/

/-- The other service core of a core's stack. -/
def otherCore (sc : Nat) : Nat := if sc % 2 = 0 then sc + 1 else sc - 1
theorem otherCore_ne (sc : Nat) : otherCore sc ≠ sc := by
  unfold otherCore; split <;> omega
theorem otherCore_lt {sc : Nat} (h : sc < 24) : otherCore sc < 24 := by
  unfold otherCore; split <;> omega
/-- The module's state as a core's failure leaves it before its stack is looked at. -/
def coreDown (s : State) (sc : Nat) : State :=
  let failed := setBit s.mod.scFailed sc true
  { s with mod := { s.mod with scFailed := failed, leader := match s.mod.leader with
    | some l => if l = sc || failed.getLsbD l then (if failed.getLsbD (otherCore sc) then leaderOf failed else some (otherCore sc)) else some l
    | none => none } }
theorem coreDown_failed (s : State) {sc : Nat} (h : sc < 24) : (coreDown s sc).mod.scFailed.getLsbD sc = true := by
  simp [coreDown, getLsbD_setBit, h]
theorem coreDown_other (s : State) {sc : Nat} (h : sc < 24) : (coreDown s sc).mod.scFailed.getLsbD (otherCore sc) = s.mod.scFailed.getLsbD (otherCore sc) := by
  simp only [coreDown, getLsbD_setBit, otherCore_ne, if_false, otherCore_lt h, decide_true, Bool.true_and]
theorem takeoverOp_eq (s : State) (sc : Nat) : takeoverOp s sc = if (coreDown s sc).mod.scFailed.getLsbD (otherCore sc) then
    postAll (withdrawStack (coreDown s sc) (sc / 2)) (allFns s) 0x03 0xFFFF (payWords [sc / 2]) else coreDown s sc := rfl
/-- Where the other core answers, it leads in the failed one's place. -/
theorem coreDown_leader {s : State} {sc : Nat} (h : sc < 24) (ho : s.mod.scFailed.getLsbD (otherCore sc) = false) (hl : s.mod.leader = some sc) :
    (coreDown s sc).mod.leader = some (otherCore sc) := by
  have := coreDown_other s h
  rw [ho] at this
  simp only [coreDown] at this ⊢
  simp [hl, this]

/-! ## A lost stack (R15). -/

/-- The hold on a lost stack's memory before it is withdrawn: claims and requests that use it end. -/
def letGo (s : State) (st : Nat) : State := (pinnedIn s st).foldl (fun s q => netRevoke (netInval (invalClaims s q 1) q) q) s
theorem letGo_sameModPart (s : State) (st : Nat) : SameModPart s (letGo s st) := by
  refine SameModPart.fold (fun s q => ?_) _ s
  refine SameModPart.trans (t := netInval (invalClaims s q 1) q) ?_ (netRevoke_sameModPart _ q)
  exact (invalClaims_sameModPart s q 1).upTo rfl rfl
/-- The state whose stack has no owner and to which no translation leads. -/
def withoutStack (s : State) (st : Nat) : State :=
  { s with
    xl := { s.xl with
      cache := s.xl.cache.filter (fun x => !(x.loc = .dev s.mod.poddev && x.pa / 0xC00000000 = st))
      wents := s.xl.wents.filter (fun w => !(w.fr < hbmEnd && w.fr / 0xC00000000 = st)) }
    mod := { s.mod with stackLost := setBit s.mod.stackLost st true }
    part := { s.part with
      units := s.part.units.filter (fun u => u.1 / 11 ≠ st)
      parts := s.part.parts.map (fun p => { p with hbmc := (List.range 12).map (fun i => if i = st then 0 else p.hbmc.getD i 0) }) } }
theorem withdrawStack_eq (s : State) (st : Nat) : withdrawStack s st = syncFuncs (withoutStack (letGo s st) st) := rfl
theorem withoutStack_timeShared (s : State) (st p : Nat) : timeShared (withoutStack s st) p = timeShared s p := by
  simp only [timeShared, withoutStack, List.any_map]; rfl
theorem withoutStack_shownPart (s : State) (st fn : Nat) : shownPart (withoutStack s st) fn = shownPart s fn := by
  simp only [shownPart, withoutStack, List.find?_map, Option.map_map]; rfl
/-- Where no claim and no region held a page of the stack, its loss leaves every function taking records as before. -/
theorem withdrawStack_takers {s : State} {st : Nat} (hp : pinnedIn s st = []) (hv : ViewsAgree s) : SameTakers s (withdrawStack s st) := by
  have free : letGo s st = s := by rw [letGo, hp]; rfl
  rw [withdrawStack_eq, free]
  exact syncFuncs_takers (s := withoutStack s st) (fun fn f h0 hf => by rw [withoutStack_shownPart]; exact hv fn f h0 hf)
theorem withdrawStack_mod (s : State) (st : Nat) : (withdrawStack s st).mod = { s.mod with stackLost := setBit s.mod.stackLost st true } := by
  rw [withdrawStack_eq, (syncFuncs_hostStep _).mod, ← (letGo_sameModPart s st).mod]; rfl
theorem withdrawStack_part (s : State) (st : Nat) : (withdrawStack s st).part = (withoutStack s st).part := by
  rw [withdrawStack_eq, (syncFuncs_hostStep _).part]
  simp only [withoutStack, (letGo_sameModPart s st).part]
theorem withdrawStack_units (s : State) (st : Nat) : ∀ u ∈ (withdrawStack s st).part.units, u.1 / 11 ≠ st := by
  rw [withdrawStack_part]
  exact fun u hu => of_decide_eq_true (List.mem_filter.mp hu).2
theorem withdrawStack_cache (s : State) (st : Nat) :
    ∀ x ∈ (withdrawStack s st).xl.cache, x.loc = .dev s.mod.poddev → x.pa / 0xC00000000 ≠ st := by
  rw [withdrawStack_eq, (syncFuncs_hostStep _).xl, ← (letGo_sameModPart s st).mod]
  intro x hx hl hst
  have kept := (List.mem_filter.mp hx).2
  simp [hl, hst] at kept
theorem withdrawStack_timeShared (s : State) (st p : Nat) : timeShared (withdrawStack s st) p = timeShared s p := by
  rw [timeShared, withdrawStack_part]; exact withoutStack_timeShared s st p
theorem withdrawStack_podNs {s : State} {st : Nat} (hp : pinnedIn s st = []) : (withdrawStack s st).fab.podNs = s.fab.podNs := by
  rw [withdrawStack_eq, (syncFuncs_hostStep _).fab, letGo, hp]; rfl

/-- SERVICE_CORE_TAKEOVER where the other core answers (R15). -/
theorem takeover_handsOver {sc : Nat} {s : State} (h : sc < 24) (ho : s.mod.scFailed.getLsbD (otherCore sc) = false) :
    Yields (exec (.serviceCoreTakeover sc) s) (fun t => t.mod.scFailed.getLsbD sc = true ∧
      (s.mod.leader = some sc → t.mod.leader = some (otherCore sc)) ∧ t.mod.stackLost = s.mod.stackLost ∧ t.part = s.part ∧ t.host = s.host) := by
  have done : takeoverOp s sc = coreDown s sc := by rw [takeoverOp_eq, coreDown_other s h, ho]; rfl
  exact ⟨_, congrArg (fun t => Host.Outcome.next (progress t)) done, coreDown_failed s h, coreDown_leader h ho, rfl, rfl, rfl⟩
/-- SERVICE_CORE_TAKEOVER where the other core had failed before (R15). -/
theorem takeover_losesStack {sc : Nat} {s : State} (h : sc < 24) (ho : s.mod.scFailed.getLsbD (otherCore sc) = true) :
    Yields (exec (.serviceCoreTakeover sc) s) (fun t => t.mod.scFailed.getLsbD sc = true ∧ t.mod.stackLost.getLsbD (sc / 2) = true ∧
      t.part.parts = s.part.parts.map (fun p => { p with hbmc := (List.range 12).map (fun i => if i = sc / 2 then 0 else p.hbmc.getD i 0) }) ∧
      (∀ u ∈ t.part.units, u.1 / 11 ≠ sc / 2) ∧ (∀ x ∈ t.xl.cache, x.loc = .dev s.mod.poddev → x.pa / 0xC00000000 ≠ sc / 2) ∧
      (pinnedIn s (sc / 2) = [] → ViewsAgree s → PostedAll s t (allFns s) 0x03 0xFFFF (payWords [sc / 2]))) := by
  have done : takeoverOp s sc = postAll (withdrawStack (coreDown s sc) (sc / 2)) (allFns s) 0x03 0xFFFF (payWords [sc / 2]) := by
    rw [takeoverOp_eq, coreDown_other s h, ho]; rfl
  have post := postAll_hostStep (withdrawStack (coreDown s sc) (sc / 2)) (allFns s) 0x03 0xFFFF (payWords [sc / 2])
  have hst : sc / 2 < 12 := by omega
  refine ⟨_, congrArg (fun t => Host.Outcome.next (progress t)) done, ?_, ?_, ?_, ?_, ?_, fun hp hv => ?_⟩
  · rw [progress_mod, post.mod, withdrawStack_mod]; exact coreDown_failed s h
  · rw [progress_mod, post.mod, withdrawStack_mod, getLsbD_setBit, decide_eq_true hst, if_pos rfl]; rfl
  · rw [progress_part, post.part, withdrawStack_part]; rfl
  · rw [progress_part, post.part]; exact withdrawStack_units _ _
  · rw [progress_xl, post.xl]; exact withdrawStack_cache (coreDown s sc) (sc / 2)
  · exact PostedAll.of_takers (s := s) (postAll_posted _ _ _ _ _) (withdrawStack_takers (s := coreDown s sc) hp hv) (withdrawStack_podNs (s := coreDown s sc) hp)
      (withdrawStack_timeShared (coreDown s sc) (sc / 2))

/-! ## Heat (R19). -/

/-- t differs from s at most in the token counts that wait to take effect. -/
def AsksOnly (s t : State) : Prop := t = { s with part := { s.part with tokPend := t.part.tokPend } }
theorem AsksOnly.trans {s t u : State} (h : AsksOnly s t) (k : AsksOnly t u) : AsksOnly s u := by
  rw [AsksOnly, k]; rw [h]
theorem askTokens_asksOnly (s : State) (part die c : Nat) (again : Bool) : AsksOnly s (askTokens s part die c again) := rfl
theorem askAllTokens_asksOnly (s : State) (p : Part) (again : Bool) : AsksOnly s (askAllTokens s p again) :=
  foldl_frame (R := AsksOnly) (fun _ => rfl) AsksOnly.trans _ (fun s d _ => askTokens_asksOnly s p.part d _ again) s
theorem setHalving_asksOnly (s : State) (b : Bool) : AsksOnly { s with mod := { s.mod with halving := b } } (setHalving s b) :=
  foldl_frame (R := AsksOnly) (fun _ => rfl) AsksOnly.trans _ (fun s p _ => askAllTokens_asksOnly s p false) _

/-- The count in effect for a partition on a die. -/
def tokensInEffect (s : State) (part die : Nat) : Nat := ((s.part.tokEff.find? (tokKey part die)).map (fun t => t.2.2)).getD 0
theorem askTokens_pending {s : State} {part die c : Nat} (h : tokensInEffect s part die ≠ c) :
    (part, die, c) ∈ (askTokens s part die c false).part.tokPend := by
  have changed : ¬(tokensInEffect s part die = c && !false) = true := by simp [h]
  unfold tokensInEffect at changed
  simp only [askTokens]
  rw [if_neg changed]
  exact List.mem_append_right _ (List.mem_singleton.mpr rfl)
theorem askTokens_keeps {s : State} {part die d c k : Nat} {again : Bool} (hd : d ≠ die) (h : (part, d, k) ∈ s.part.tokPend) :
    (part, d, k) ∈ (askTokens s part die c again).part.tokPend := by
  have kept : (part, d, k) ∈ s.part.tokPend.filter (fun t => !tokKey part die t) := List.mem_filter.mpr ⟨h, by simp [tokKey, hd]⟩
  simp only [askTokens]
  split
  · exact kept
  · exact List.mem_append_left _ kept
/-- Of the dies asked for in turn, each whose count changes has its new count pending at the end. -/
theorem askDies_pending (p : Part) (d : Nat) (l : List Nat) (s : State) (hc : tokensInEffect s p.part d ≠ tokenEffective s p d)
    (h : d ∈ l ∨ (p.part, d, tokenEffective s p d) ∈ s.part.tokPend) :
    (p.part, d, tokenEffective s p d) ∈ (l.foldl (fun s d => askTokens s p.part d (tokenEffective s p d) false) s).part.tokPend := by
  induction l generalizing s with
  | nil => simpa using h
  | cons e r ih =>
    refine ih (askTokens s p.part e (tokenEffective s p e) false) hc ?_
    by_cases hd : d = e
    · subst hd; exact .inr (askTokens_pending hc)
    · exact h.imp (fun hm => (List.mem_cons.mp hm).resolve_left hd) (askTokens_keeps hd)
/-- With one partition, each die's effective count is asked for where it differs from the one in effect. -/
theorem setHalving_pending {s : State} {p : Part} {d : Nat} (b : Bool) (hp : s.part.parts = [p]) (hd : d < 4)
    (hc : tokensInEffect s p.part d ≠ tokenEffective { s with mod := { s.mod with halving := b } } p d) :
    (p.part, d, tokenEffective { s with mod := { s.mod with halving := b } } p d) ∈ (setHalving s b).part.tokPend := by
  rw [setHalving, hp]
  exact askDies_pending p d (List.range 4) { s with mod := { s.mod with halving := b } } hc (.inl (List.mem_range.mpr hd))
theorem tokenEffective_hot (s : State) (p : Part) (d : Nat) (h : tokenCount s p d ≠ 0) :
    tokenEffective { s with mod := { s.mod with halving := true } } p d = max 1 (tokenCount s p d / 2) := by
  have hot : (true && decide (tokenCount s p d ≠ 0)) = true := by simp [h]
  exact if_pos hot
theorem tokenEffective_cool (s : State) (p : Part) (d : Nat) :
    tokenEffective { s with mod := { s.mod with halving := false } } p d = tokenCount s p d := rfl

/-- THERMAL_HIGH halves the counts and posts the die (R19). -/
theorem thermalHigh_halves (die : Nat) (s : State) : Yields (exec (.thermalHigh die) s) (fun t => t.mod.halving = true ∧
    PostedAll s t (allFns s) 0x04 0xFFFF (payWords [die]) ∧ ∀ p d, s.part.parts = [p] → d < 4 → tokenCount s p d ≠ 0 →
      tokensInEffect s p.part d ≠ max 1 (tokenCount s p d / 2) → (p.part, d, max 1 (tokenCount s p d / 2)) ∈ t.part.tokPend) := by
  have asked := setHalving_asksOnly s true
  have post := postAll_hostStep (setHalving s true) (allFns s) 0x04 0xFFFF (payWords [die])
  refine ⟨_, rfl, ?_, ?_, fun p d hp hd h0 hc => ?_⟩
  · rw [progress_mod, post.mod, asked]
  · refine PostedAll.of_takers (u := setHalving s true) (postAll_posted _ _ _ _ _) (fun n f hf => ⟨f, ?_, .refl f⟩) ?_ (fun p => ?_)
    · rw [asked]; exact hf
    · rw [asked]
    · rw [asked]; rfl
  · rw [progress_part, post.part, ← tokenEffective_hot s p d h0]
    exact setHalving_pending true hp hd (by rwa [tokenEffective_hot s p d h0])
/-- THERMAL_RESTORE asks for the counts as they were named (R19). -/
theorem thermalRestore_gives (s : State) : Yields (exec .thermalRestore s) (fun t => t.mod.halving = false ∧ ∀ p d, s.part.parts = [p] → d < 4 →
    tokensInEffect s p.part d ≠ tokenCount s p d → (p.part, d, tokenCount s p d) ∈ t.part.tokPend) := by
  refine ⟨_, rfl, ?_, fun p d hp hd hc => ?_⟩
  · rw [progress_mod, setHalving_asksOnly s false]
  · exact setHalving_pending false hp hd hc

/-! ## Patrol scrub (R13). -/

/-- A line of HBM is poisoned where it is marked, or its stack is lost. -/
theorem poisoned_line (s : State) (l : Nat) : poisoned s false (64 * l) 64 = (decide ((l, false) ∈ s.mem.poison) || lostAt s (64 * l)) := by
  have start : 64 * l / 64 = l := by omega
  have last : (64 * l + 64 - 1) / 64 = l := by omega
  have marked : s.mem.poison.any (fun p => p.2 = false && l ≤ p.1 && p.1 ≤ l) = decide ((l, false) ∈ s.mem.poison) := by
    rw [Bool.eq_iff_iff, List.any_eq_true, decide_eq_true_eq]
    constructor
    · rintro ⟨⟨k, y⟩, hm, hk⟩
      simp only [Bool.and_eq_true, decide_eq_true_eq] at hk
      obtain ⟨⟨rfl, hlo⟩, hhi⟩ := hk
      rwa [Nat.le_antisymm hlo hhi]
    · exact fun hm => ⟨(l, false), hm, by simp⟩
  simp only [poisoned, start, last, marked]
  rfl
theorem mem_setPoison (s : State) (line l : Nat) : (l, false) ∈ (setPoison s false line true).mem.poison ↔ l = line ∨ (l, false) ∈ s.mem.poison := by
  by_cases h : l = line <;> simp [setPoison, h]
theorem setPoison_poisoned (s : State) (line : Nat) : poisoned (setPoison s false line true) false (64 * line) 64 = true := by
  rw [poisoned_line, decide_eq_true ((mem_setPoison s line line).mpr (.inl rfl)), Bool.true_or]
theorem setPoison_elsewhere (s : State) {line l : Nat} (h : l ≠ line) :
    poisoned (setPoison s false line true) false (64 * l) 64 = poisoned s false (64 * l) 64 := by
  rw [poisoned_line, poisoned_line, decide_eq_decide.mpr ((mem_setPoison s line l).trans (or_iff_right h))]
  rfl

/-- Service cores, heat and scrub, each from its own lemma. -/
theorem theModuleGuardsItself : TheModuleGuardsItself :=
  ⟨fun _ _ h => ⟨takeover_handsOver h, takeover_losesStack h⟩, thermalHigh_halves, thermalRestore_gives,
    fun line s => ⟨rfl, rfl, _, rfl, setPoison_poisoned s line, rfl, fun _ => setPoison_elsewhere s⟩⟩

end Sys2Proof.Machine

/-- Settles O48: bring-up and the loss of power from their equations, and the module's guards from the frames of what they call. -/
theorem theModule : Obligations.TheModule := ⟨Sys2Proof.Machine.theModuleComesUp, Sys2Proof.Machine.theModuleGuardsItself⟩
end

section
/-! The state at reset, and the word placed there: nothing is due in it, its agent is chosen, and its word decodes by the default table (log 14). -/

namespace Sys2Proof.Machine

/-! ## Decoding by the default table (R246, R259). -/

theorem mem_of_lkp_eq_some {κ α : Type} [DecidableEq κ] {t : List (κ × α)} {k : κ} {v : α} (h : lkp t k = some v) : (k, v) ∈ t := by
  induction t with
  | nil => cases h
  | cons e r ih =>
    by_cases hk : e.1 = k
    · have hv : e.2 = v := by simpa [lkp, hk] using h
      subst hk; subst hv; exact List.mem_cons_self
    · exact List.mem_cons_of_mem _ (ih (by simpa [lkp, hk] using h))
/-- Every row of the decoder's table is an assigned opcode. -/
theorem opTable_assigned : ∀ e ∈ opTable, assigned e.1 = true := by decide +kernel
theorem assigned_of_decodeAs {op : Nat} {w : W64} {i : Instr} (h : decodeAs op w = some i) : assigned op = true := by
  unfold decodeAs at h
  split at h
  · cases h
  · next p hp => exact opTable_assigned _ (mem_of_lkp_eq_some hp)
/-- A context without a decode table of its own decodes by the default table (R246, R259). -/
theorem decodeIn_default {s : State} {g : Agent} {c : Ctx} (hc : ctxOf s g.part g.ctx = some c) (hd : c.decode = none) {w : W64} {i : Instr}
    (h : decode w = some i) : decodeIn s g w = some i := by
  have ha : assigned (w.extractLsb' 0 10).toNat = true := assigned_of_decodeAs h
  have hm : mapOpcode (some c) (w.extractLsb' 0 10).toNat = some (w.extractLsb' 0 10).toNat := by
    obtain ⟨⟩ := c
    cases hd
    exact if_pos ha
  rw [decodeIn, hc, hm]; exact h

/-! ## The word placed at reset (log 14). -/

/-- The state that holds word w and nothing else. -/
def holding (w : Nat) : State := State.reset.withFetchWord 64 w

/-- No link is up, so that the lowest junction is the master already (R47). -/
theorem holding_master (w : Nat) : masterOf (holding w) = some 0 := by
  have up (j : Nat) : jUp (holding w) j = jUp (holding 0) j := rfl
  have h0 : masterOf (holding 0) = some 0 := by decide +kernel
  simpa only [masterOf, up] using h0
theorem holding_dueFabric (w : Nat) : dueFabric (holding w) = none := by
  have hm : (holding w).fab.master = masterOf (holding w) := (holding_master w).symm
  simp only [dueFabric, hm, ne_eq, not_true_eq_false, if_false]
  rfl
/-- Whichever agent holds the word, nothing of it is due: no trap, no result, no batch. -/
theorem holding_dueAgents (w : Nat) : dueAgents (holding w) = none := by
  unfold holding State.withFetchWord
  generalize BitVec.ofNat 64 (w % 2 ^ 64) = x
  simp only
  split <;> rfl
/-- Nothing is due in the state. -/
theorem holding_quiet (w : Nat) : nextInternal (holding w) = none := by
  have house : dueHouse (holding w) = none := rfl
  have sched : dueSched (holding w) = none := rfl
  have xl : dueXl (holding w) = none := rfl
  have claims : dueClaims (holding w) = none := rfl
  have part : duePart (holding w) = none := rfl
  simp only [nextInternal, orDue, house, holding_dueAgents, sched, holding_dueFabric, xl, claims, part]
theorem holding_chosen (w : Nat) : chooseAgent (holding w) = some (holding w).cur := by
  unfold holding State.withFetchWord
  generalize BitVec.ofNat 64 (w % 2 ^ 64) = x
  simp only
  split <;> rfl
theorem holding_agent (w : Nat) : agent (holding w) (holding w).cur = some (fetchAgent (BitVec.ofNat 64 (w % 2 ^ 64))) := by
  simp [holding, State.withFetchWord, agent, lkp]
theorem agent_takeTurn {s : State} {a : AgentId} {g : Agent} (h : agent s a = some g) :
    agent (takeTurn s a) a = some { g with promo := false, yielded := false, tried := s.fab.cycles, turn := s.freeIx } := by
  have : agent (takeTurn s a) a = agent (modAgent s a _) a := rfl
  rw [this, modAgent, h]; exact agent_setAgent _ _ _
@[simp] theorem takeTurn_xl (s : State) (a : AgentId) : (takeTurn s a).xl = s.xl := by
  unfold takeTurn modAgent; split <;> rfl
/-- With nothing due and nothing arrived, a step issues the chosen agent's word. -/
theorem step_runs_word {s : State} {a : AgentId} {g : Agent} {i : Instr} (hq : nextInternal s = none) (hl : s.late = []) (hi : s.inbox = [])
    (hc : chooseAgent s = some a) (hg : agent (takeTurn s a) a = some g) (hw : (g.clause.isSome && g.waited) = true)
    (hd : decodeIn (takeTurn s a) g (curWord g) = some i) : step s = afterStep (exec i (takeTurn s a)) := by
  simp only [step, happen, hq, hl, hi, hc, List.find?_nil, runAgent, hg, hw, if_true, runWord, hd]

/-- A word that decodes, placed at reset, runs in the next step. -/
theorem holding_runs {w : Nat} {i : Instr} (h : decode (BitVec.ofNat 64 w) = some i) :
    ∃ g, agent (takeTurn (holding w) (holding w).cur) (holding w).cur = some g ∧
      step (holding w) = afterStep (exec i (takeTurn (holding w) (holding w).cur)) := by
  have hg := agent_takeTurn (holding_agent w)
  have hx : BitVec.ofNat 64 (w % 2 ^ 64) = BitVec.ofNat 64 w := BitVec.eq_of_toNat_eq (by simp)
  refine ⟨_, hg, step_runs_word (holding_quiet w) rfl rfl (holding_chosen w) hg rfl ?_⟩
  have hc : ctxOf (takeTurn (holding w) (holding w).cur) 1 0 = some (blankCtx 0 1 1) := by rw [ctxOf, takeTurn_xl]; rfl
  exact decodeIn_default hc rfl (hx ▸ h)

/-- The words decode to the operations they are listed with. -/
theorem wordsOfTheManual_decode : ∀ p ∈ wordsOfTheManual, decode (BitVec.ofNat 64 p.1) = some p.2 := by decide +kernel

end Sys2Proof.Machine

open Sys2Proof.Machine in
/-- Settles O54: the fields of the reset state by evaluation, and a placed word by `holding_runs`. -/
theorem resetIsTheUnpoweredModule : Obligations.ResetIsTheUnpoweredModule :=
  ⟨reset_memOk, rfl, rfl, rfl, rfl, rfl, rfl, rfl, rfl, rfl, rfl, rfl, rfl, rfl, rfl,
    fun p hp => holding_runs (wordsOfTheManual_decode p hp)⟩
end
